-- ==== Sys2Proof/Word.lean ====
section
/-!
DEFINITION. The word types of the SL1663 and the plainest bit operations on them.
Registers, masks, packet bytes and checksums are bit vectors (R6); counts, times and quantities are `Nat` or `Int`.
-/
namespace Sys2Proof

/-- One byte of a packet, a frame or a record. -/
abbrev Byte := BitVec 8

/-- A 32-bit word of the register window (R146). -/
abbrev Word := BitVec 32

/-- A counter that saturates at `max`. -/
def satAdd (max a b : Nat) : Nat := Nat.min max (a + b)

end Sys2Proof

/-- Sets or clears bit `i` of a bit vector. -/
def BitVec.putBit {n : Nat} (x : BitVec n) (i : Nat) (b : Bool) : BitVec n :=
  if b then x ||| BitVec.ofNat n (2 ^ i) else x &&& ~~~(BitVec.ofNat n (2 ^ i))

/-- The bits of `x` that `m` names are cleared (a W1C write of Table 00-3). -/
def BitVec.clearBits {n : Nat} (x m : BitVec n) : BitVec n := x &&& ~~~m

/-- The number of bits set. -/
def BitVec.ones {n : Nat} (x : BitVec n) : Nat :=
  (List.range n).foldl (fun a i => if x.getLsbD i then a + 1 else a) 0

/-- The numbers of the bits set, lowest first. -/
def BitVec.members {n : Nat} (x : BitVec n) : List Nat :=
  (List.range n).filter (fun i => x.getLsbD i)
end

