-- ==== Sys2Proof/Syntax.lean ====
section
/-!
DEFINITION. The commands of the block: `Instr`, one constructor per row of the opcode table, and the operand types.
-/
namespace Sys2Proof

/-- Where a command came from (R124); the ranks are SPI 0, CAN0 1, CAN1 2, internal 3. -/
inductive Origin where
  | spi | can0 | can1 | internal
deriving DecidableEq, Repr

/-- The header fields of a request packet (Table 06-1) and how it reached the die: `node` is the CAN source node
(R143), `chain` says that a chain frame carried it (R145). The opcode and the length are the row's own. -/
structure Hdr where
  origin : Origin
  node : Nat
  chain : Bool
  flags : BitVec 8
  target : BitVec 8
  tag : BitVec 8
  epoch : Nat
deriving DecidableEq, Repr

/-- The blocks of Table 01-1 that have a READY bit; the bit number is also the block's window number (Tables 04-5, 06-7). -/
inductive Block where
  | sys | cmd | time | wdg | conv | prot | meas | therm | bezel | slolos | clasp | pendant | memi | geode
deriving DecidableEq, Repr

/-- The monitored supplies of Table 03-3. -/
inductive Supply where
  | vaon | vio | vana | vpll | vcore
deriving DecidableEq, Repr

/-- The strap levels at the sampling instant (R37): MODE[1:0], XSEL, and the straps that are changing while they
are sampled, which R38 reads as 0 or as 1. -/
structure Straps where
  mode : BitVec 2
  xsel : Bool
  changing : BitVec 3
deriving DecidableEq, Repr

/-- What befell a chain frame on its hop (R314): nothing, errors that only its CRC shows, a number of code or disparity violations, or an
ABORT or an early start character. -/
inductive Harm where
  | none
  | bits
  | code (violations : Nat)
  | cut
deriving DecidableEq, Repr

/-- The boundary cells of PWMH0 to PWMH15, PWML0 to PWML15 and BZ0_DRV to BZ5_DRV (R36). -/
structure Cells where
  pwmh : BitVec 16
  pwml : BitVec 16
  bz : BitVec 6
deriving DecidableEq, Repr

/-- An actuator value of a class of Table 05-5, as the application core writes it for a lane, channel or strand. -/
inductive Actuator where
  /-- Classes 0x01 to 0x03: a lane's voltage setpoint [mV] and current [mA]. -/
  | laneTarget (mv ma : Nat)
  /-- Classes 0x02 and 0x03: a lane's share [mA]. -/
  | laneShare (ma : Nat)
  /-- Class 0x04: a lane's carrier period, in the unit of its profile. -/
  | lanePeriod (period : Nat)
  /-- Class 0x05: the link voltage that a boosting lane holds [mV]. -/
  | linkHold (mv : Nat)
  /-- Class 0x06: the code at an offset of a channel's record. -/
  | threshold (offset code : Nat)
  /-- Class 0x07: a source's input current limit [mA]. -/
  | sourceLimit (ma : Nat)
  /-- Class 0x08: a lane's coefficients of a set. -/
  | coeffs (boost : Bool) (values : List Int)
  /-- Class 0x09: a lane's drop compensation [mV]. -/
  | drop (mv : Nat)
  /-- Class 0x0A: a strand's charge window [0.1 C]. -/
  | window (low high : Int)
  /-- Class 0x0B: a lane's EXTENDED profile. -/
  | extended (on : Bool)
  /-- Classes 0x05 and 0x0C: the Pendant target [mV] and its slew code. -/
  | pendant (mv slew : Nat)
  /-- Class 0x0D: a lane's function BOOST. -/
  | boost
deriving DecidableEq, Repr

/-- What the application core writes: a word of the window, or an actuator value (R97). -/
inductive CoreWrite where
  | register (data : Nat)
  | actuator (value : Actuator)
deriving DecidableEq, Repr

/-- A frame as a port receives it (R313, R314): its bytes, and what befell it on the hop. -/
structure Received where
  bytes : List Byte
  harm : Harm
deriving DecidableEq, Repr

/-- A receiver's loss of its link (R316): the port, and the code and disparity violations that the receiver counted. -/
structure LinkLoss where
  port : Nat
  violations : Nat
deriving DecidableEq, Repr

/-- An edge of a capture input (R406): its direction, and the core ticks for which the input has held the new level. -/
structure Edge where
  rising : Bool
  held : Nat
deriving DecidableEq, Repr

/-- What a visit of the scrubber finds (R419): the bits that upsets have flipped since the word's last check, and the syndrome that more
than one gives. -/
structure Upset where
  flips : Nat
  syndrome : Nat
deriving DecidableEq, Repr

/-- An SPI transaction in which the host sends bytes: its command byte, and the bytes after it (Table 06-5). -/
structure Transaction where
  command : Nat
  bytes : List Byte
deriving DecidableEq, Repr

/-- The name of a command in flight: its origin, whether a chain frame carried it, and its tag (R124). -/
structure FlightKey where
  origin : Origin
  chain : Bool
  tag : Nat
deriving DecidableEq, Repr

/-- An owner's access to a word of a protected memory (R416, R417): a read, a write of part of a word, or a write of a whole word. A read
and a write of part find the bits that upsets have flipped since the word's last check, and carry the syndrome that more than one gives,
the reader's number in the fault record (R422), and the command in whose buffer a word of queue RAM lies; `together` marks a read in the
very cycle in which the scrubber reads the same word (Table 18-2). A word that is not valid has no flips. -/
inductive RamUse where
  | read (word flips syndrome reader : Nat) (tagged : Option FlightKey) (together : Bool)
  | part (word flips syndrome reader : Nat) (tagged : Option FlightKey)
  | write (word : Nat)
deriving DecidableEq, Repr

/-- One constructor per row of the opcode table; each docstring gives the row's rule. Rows that carry a
packet take its header fields (Table 06-1) and its payload bytes; the other rows take what the event carries. -/
inductive Instr where
  /-- VAON_RISE (R43). -/
  | vaonRise
  /-- SUPPLY_MONITOR_TRIP (R41). -/
  | supplyMonitorTrip (supply : Supply)
  /-- SUPPLY_MONITOR_RELEASE (R41). -/
  | supplyMonitorRelease
  /-- NRST_LOW (R44). -/
  | nrstLow (ns : Nat)
  /-- NRST_RISE (R37). -/
  | nrstRise (straps : Straps)
  /-- RESET_ENTRY (R76). -/
  | resetEntry
  /-- RESET_END (R76). -/
  | resetEnd (straps : Straps)
  /-- REFERENCE_CHECK (R61). -/
  | referenceCheck (edges : Nat)
  /-- PLL_LOCK (R61). -/
  | pllLock
  /-- PLL_LOCK_TIMEOUT (R62). -/
  | pllLockTimeout
  /-- PLL_RETRY_RESTART (R62). -/
  | pllRetryRestart
  /-- CLOCK_START (R61). -/
  | clockStart
  /-- BLOCK_READY (R65). -/
  | blockReady (block : Block)
  /-- BLOCK_RESTART (R70). -/
  | blockRestart (block : Block)
  /-- PLL_LOSS (R63). -/
  | pllLoss
  /-- REF_LOSS (R63). -/
  | refLoss (edges : Nat)
  /-- LFRC_MEAS_UPDATE (R64). -/
  | lfrcMeasUpdate (ticks : Nat)
  /-- PATCH_CHECK_DONE (R93): `intact` says that the area reads as it is programmed. -/
  | patchCheckDone (intact : Bool)
  /-- PENDING_WIPE_DONE (R94). -/
  | pendingWipeDone
  /-- SLOT_SELECTION_DONE (R95). -/
  | slotSelectionDone
  /-- BOOT_CERT_LOADED (R93). -/
  | bootCertLoaded
  /-- EUPEFEN_RUNNING (R93). -/
  | eupefenRunning
  /-- EXEC_FAULT (R117). -/
  | execFault
  /-- APP_CORE_ACTUATOR_WRITE (R97): `place` is the window address of a register, or the number of the lane, channel or strand. -/
  | appCoreActuatorWrite (place : Nat) (write : CoreWrite)
  /-- WRITE_PACKET (R139): a transaction in which the host sends bytes; it is of an unknown command where Table 06-5 does not give its
  command byte (R137). -/
  | writePacket (transaction : Transaction)
  /-- READ_PACKET (R137). -/
  | readPacket (count : Nat)
  /-- WINDOW_READ (R140). -/
  | windowRead (address : Nat) (count : Nat)
  /-- WINDOW_WRITE (R146). -/
  | windowWrite (address : Nat) (data : Nat)
  /-- STATUS (R138). -/
  | status
  /-- HUNG_ACCESS_COMPLETE (R72). -/
  | hungAccessComplete
  /-- HS_CSN_WAKE (R80). -/
  | hsCsnWake
  /-- CMD_ERRORS_READ (R8). -/
  | cmdErrorsRead
  /-- PENDANT_COUNT_READ (R8). -/
  | pendantCountRead
  /-- SLOLOS_ERRORS_READ (R8). -/
  | slolosErrorsRead
  /-- CLASP_COUNT_READ (R8). -/
  | claspCountRead (port : Nat)
  /-- MEMI_STATUS_READ (R8). -/
  | memiStatusRead
  /-- MEMI_CORR_READ (R8). -/
  | memiCorrRead (mem : Nat)
  /-- TIMER_CAPSTAT_READ (R8). -/
  | timerCapstatRead (timer : Nat)
  /-- TIMER_CAPTURE_READ (R406). -/
  | timerCaptureRead (timer : Nat)
  /-- TIME_SYS_LO_READ (R399). -/
  | timeSysLoRead
  /-- TIMER_COUNT_LATCH_READ (R399). -/
  | timerCountLatchRead (timer : Nat)
  /-- TIME_EPOCH_NUM_READ (R399). -/
  | timeEpochNumRead
  /-- TIMER_COMPARE_WRITE (R402). -/
  | timerCompareWrite (timer : Nat) (value : Nat)
  /-- TIMER_PERIOD_WRITE (R401). -/
  | timerPeriodWrite (timer : Nat) (value : Nat)
  /-- TIMER_COUNT_WRITE (R401). -/
  | timerCountWrite (timer : Nat) (value : Nat)
  /-- MEAS_VIEW_HOLD_WRITE (R376). -/
  | measViewHoldWrite (hold : Bool)
  /-- WDG_SERVICE (R409). -/
  | wdgService (key : Nat)
  /-- WDG_WINDOW_WRITE (R410). -/
  | wdgWindowWrite (value : Nat)
  /-- MALFORMED_PACKET (R121). -/
  | malformedPacket (origin : Origin) (node : Nat) (bytes : List Byte)
  /-- UNDEFINED_OPCODE (R148). -/
  | undefinedOpcode (h : Hdr) (opcode : Nat) (p : List Byte)
  /-- CAN_FRAME_RECEIVED (R144). -/
  | canFrameReceived (controller : Nat) (ident : Nat) (fd : Bool) (bytes : List Byte)
  /-- CAN_REASSEMBLY_TIMEOUT (R144). -/
  | canReassemblyTimeout (controller : Nat) (node : Nat)
  /-- CAN_BUS_OFF (R142). -/
  | canBusOff (controller : Nat)
  /-- CAN_BUS_OFF_RECOVERY (R142). -/
  | canBusOffRecovery (controller : Nat)
  /-- ECHO (R148). -/
  | echo (h : Hdr) (p : List Byte)
  /-- DIE_INFO (R148). -/
  | dieInfo (h : Hdr) (p : List Byte)
  /-- CANCEL (R129). -/
  | cancel (h : Hdr) (p : List Byte)
  /-- EVENT_ROUTE (R149). -/
  | eventRoute (h : Hdr) (p : List Byte)
  /-- CAN_CONFIG (R149). -/
  | canConfig (h : Hdr) (p : List Byte)
  /-- CMD_STATS (R148). -/
  | cmdStats (h : Hdr) (p : List Byte)
  /-- ENTER_STANDBY (R81). -/
  | enterStandby (h : Hdr) (p : List Byte)
  /-- ENTER_HIBERNATE (R85). -/
  | enterHibernate (h : Hdr) (p : List Byte)
  /-- SET_WAKE (R80). -/
  | setWake (h : Hdr) (p : List Byte)
  /-- SOFT_RESET (R81). -/
  | softReset (h : Hdr) (p : List Byte)
  /-- WAKE_INPUT (R80). -/
  | wakeInput (input : Nat) (high : Bool)
  /-- WAKE_TIMER_EXPIRED (R80). -/
  | wakeTimerExpired
  /-- STANDBY_WAKE (R83). -/
  | standbyWake
  /-- HIB_WAKE (R85). -/
  | hibWake
  /-- SERVICE_WAKE (R84). -/
  | serviceWake
  /-- SERVICE_WAKE_RETURN (R84). -/
  | serviceWakeReturn
  /-- EPOCH_STATUS (R164). -/
  | epochStatus (h : Hdr) (p : List Byte)
  /-- EPOCH_SET_LENGTH (R152). -/
  | epochSetLength (h : Hdr) (p : List Byte)
  /-- EPOCH_BOUNDARY (R18). -/
  | epochBoundary
  /-- POLICY_LATE (R162). -/
  | policyLate
  /-- MARKER_SEND (R153). -/
  | markerSend
  /-- MARKER (R322). -/
  | marker (fromB : Bool) (frame : Received)
  /-- MARKER_MISSED (R156). -/
  | markerMissed
  /-- TELEMETRY_SLOT (R323). -/
  | telemetrySlot
  /-- TELEMETRY_FRAME (R324). -/
  | telemetryFrame (address : Nat) (frame : Received)
  /-- SUM_DEADLINE (R324). -/
  | sumDeadline
  /-- ALLOTMENT_COMPUTED (R324). -/
  | allotmentComputed
  /-- ALLOTMENT_FRAME (R325). -/
  | allotmentFrame (frame : Received)
  /-- ALLOTMENT_MISSED (R21). -/
  | allotmentMissed
  /-- FRAME_START (R188). -/
  | frameStart (lane : Nat)
  /-- LEG_TURN_ON (R174). -/
  | legTurnOn (leg : Nat)
  /-- DECIMATOR_OUTPUT (R169). -/
  | decimatorOutput (modulator : Nat) (sum : Nat)
  /-- BRAKE_END (R197). -/
  | brakeEnd (lane : Nat)
  /-- COMPARATOR_CROSSING (R211). -/
  | comparatorCrossing (cmp : Nat) (upper : Bool) (beyond : Bool) (brief : Bool)
  /-- CROWBAR_BLANK_END (R221). -/
  | crowbarBlankEnd (lane : Nat)
  /-- CROWBAR_CLOSE (R220). -/
  | crowbarClose (lane : Nat)
  /-- CROWBAR_TIMEOUT (R220). -/
  | crowbarTimeout (lane : Nat)
  /-- DFLT_INPUT_CHANGE (R224). -/
  | dfltInputChange (leg : Nat) (high : Bool)
  /-- DRIVER_FAULT (R224). -/
  | driverFault (leg : Nat)
  /-- FAULT_FRAME (R327). -/
  | faultFrame (fromB : Bool) (frame : Received)
  /-- LANE_CONFIG (R206). -/
  | laneConfig (h : Hdr) (p : List Byte)
  /-- LANE_START (R193). -/
  | laneStart (h : Hdr) (p : List Byte)
  /-- LANE_STOP (R209). -/
  | laneStop (h : Hdr) (p : List Byte)
  /-- SET_LANE_TARGET (R185). -/
  | setLaneTarget (h : Hdr) (p : List Byte)
  /-- SET_LANE_COEFFS (R183). -/
  | setLaneCoeffs (h : Hdr) (p : List Byte)
  /-- SET_LANE_PROFILE (R196). -/
  | setLaneProfile (h : Hdr) (p : List Byte)
  /-- SET_BURST (R194). -/
  | setBurst (h : Hdr) (p : List Byte)
  /-- TUNING_CONTROL (R199). -/
  | tuningControl (h : Hdr) (p : List Byte)
  /-- LANE_PHASE_LOCK (R181). -/
  | lanePhaseLock (h : Hdr) (p : List Byte)
  /-- LANE_LEGS (R179). -/
  | laneLegs (h : Hdr) (p : List Byte)
  /-- LANE_STATUS (R207). -/
  | laneStatus (h : Hdr) (p : List Byte)
  /-- PROT_CONFIG (R231). -/
  | protConfig (h : Hdr) (p : List Byte)
  /-- PROT_CLEAR (R234). -/
  | protClear (h : Hdr) (p : List Byte)
  /-- PROT_LOG_READ (R233). -/
  | protLogRead (h : Hdr) (p : List Byte)
  /-- ECHO_READ (R233). -/
  | echoRead (h : Hdr) (p : List Byte)
  /-- ECHO_CLEAR (R234). -/
  | echoClear (h : Hdr) (p : List Byte)
  /-- STRAND_CONFIG (R236). -/
  | strandConfig (h : Hdr) (p : List Byte)
  /-- CHARGE_START (R256). -/
  | chargeStart (h : Hdr) (p : List Byte)
  /-- CHARGE_STOP (R259). -/
  | chargeStop (h : Hdr) (p : List Byte)
  /-- CHARGE_EQUALISE (R255). -/
  | chargeEqualise (h : Hdr) (p : List Byte)
  /-- STRAND_STATUS (R261). -/
  | strandStatus (h : Hdr) (p : List Byte)
  /-- BMS_LIMITS (R254). -/
  | bmsLimits (h : Hdr) (p : List Byte)
  /-- STRAND_PLAN (R253). -/
  | strandPlan (h : Hdr) (p : List Byte)
  /-- BEZEL_CONFIG (R263). -/
  | bezelConfig (h : Hdr) (p : List Byte)
  /-- PATH_CONFIG (R275). -/
  | pathConfig (h : Hdr) (p : List Byte)
  /-- SOURCE_INHIBIT (R284). -/
  | sourceInhibit (h : Hdr) (p : List Byte)
  /-- BEZEL_CLEAR (R271). -/
  | bezelClear (h : Hdr) (p : List Byte)
  /-- PATH_STATUS (R287). -/
  | pathStatus (h : Hdr) (p : List Byte)
  /-- PEER_POWER (R285). -/
  | peerPower (h : Hdr) (p : List Byte)
  /-- BEZEL_COMPARATOR_CROSSING (R266). -/
  | bezelComparatorCrossing (comparator : Nat) (crossed : Bool)
  /-- BEZEL_TRIP (R266). -/
  | bezelTrip (comparator : Nat)
  /-- SLOW_OC_NO_SAMPLE (R267). -/
  | slowOcNoSample (channel : Nat)
  /-- BZ_FB_QUALIFIED (R265). -/
  | bzFbQualified (channel : Nat)
  /-- BZ_CLOSE_TIMEOUT (R265). -/
  | bzCloseTimeout (channel : Nat)
  /-- BZ_OPEN_TIMEOUT (R265). -/
  | bzOpenTimeout (channel : Nat)
  /-- BZ_RETRY_RESET (R270). -/
  | bzRetryReset (channel : Nat)
  /-- PENDANT_SETPOINT_FRAME (R297). -/
  | pendantSetpointFrame (word : Nat)
  /-- PENDANT_STATUS_FRAME (R301). -/
  | pendantStatusFrame (word : Nat)
  /-- PENDANT_GAP_DISCARD (R295). -/
  | pendantGapDiscard
  /-- PENDANT_ANSWER_READY (R294). -/
  | pendantAnswerReady
  /-- PENDANT_ANSWER_READ (R294). -/
  | pendantAnswerRead
  /-- PENDANT_ANSWER_TIMEOUT (R294). -/
  | pendantAnswerTimeout
  /-- PENDANT_SLEW_STEP (R298). -/
  | pendantSlewStep
  /-- PENDANT_DONE (R299). -/
  | pendantDone
  /-- PENDANT_NOT_SETTLED (R299). -/
  | pendantNotSettled
  /-- PENDANT_CONFIG (R307). -/
  | pendantConfig (h : Hdr) (p : List Byte)
  /-- PENDANT_STATUS (R307). -/
  | pendantStatus (h : Hdr) (p : List Byte)
  /-- LINK_UP (R316). -/
  | linkUp (port : Nat)
  /-- LINK_DOWN_DETECTED (R316). -/
  | linkDownDetected (loss : LinkLoss)
  /-- DELAY_MEASURED (R317). -/
  | delayMeasured (port : Nat) (delay : Nat) (down : Nat) (up : Nat)
  /-- ECHO_FRAME (R317). -/
  | echoFrame (port : Nat) (answer : Bool) (harm : Harm) (received : Nat) (sent : Nat)
  /-- ENUM (R318). -/
  | enum (fromB : Bool) (harm : Harm) (nextAddr : Nat) (prevAddr : Nat) (delay : Nat) (mode : Nat)
  /-- ENUM_ANSWER (R318). -/
  | enumAnswer (harm : Harm) (dieId : List Byte) (partRole : Nat) (address : Nat) (delay : Nat)
  /-- ENUM_END (R318). -/
  | enumEnd (harm : Harm) (address : Nat) (roleConflict : Bool)
  /-- ENUM_NO_WORKER_TIMEOUT (R321). -/
  | enumNoWorkerTimeout
  /-- APPEND_RETRY (R320). -/
  | appendRetry
  /-- JOIN (R320). -/
  | join (harm : Harm)
  /-- JOIN_TIMER (R320). -/
  | joinTimer
  /-- UNASSIGN (R320). -/
  | unassign (harm : Harm)
  /-- RESET_FRAME (R337). -/
  | resetFrame (harm : Harm) (mask : Nat)
  /-- LINK_DOWN (R334). -/
  | linkDown (harm : Harm) (address : Nat) (port : Nat)
  /-- PACKET_FRAME (R328). -/
  | packetFrame (frame : Received)
  /-- SLOLOS_WAKE_DETECTED (R335). -/
  | slolosWakeDetected
  /-- CHAIN_STATUS (R337). -/
  | chainStatus (h : Hdr) (p : List Byte)
  /-- CHAIN_WORKER (R337). -/
  | chainWorker (h : Hdr) (p : List Byte)
  /-- CHAIN_ENUMERATE (R320). -/
  | chainEnumerate (h : Hdr) (p : List Byte)
  /-- CHAIN_RESET (R337). -/
  | chainReset (h : Hdr) (p : List Byte)
  /-- CHAIN_CONFIG (R336). -/
  | chainConfig (h : Hdr) (p : List Byte)
  /-- CLASP_SENSE_CHANGE (R340). -/
  | claspSenseChange (port : Nat) (lineB : Bool) (band : Nat)
  /-- CLASP_ATTACH_TIMER (R343). -/
  | claspAttachTimer (port : Nat)
  /-- CLASP_TOGGLE (R344). -/
  | claspToggle (port : Nat)
  /-- CLASP_TRY_TIMEOUT (R344). -/
  | claspTryTimeout (port : Nat)
  /-- CLASP_DETACH_DETECTED (R357). -/
  | claspDetachDetected (port : Nat)
  /-- CAPS (R349). -/
  | caps (port : Nat) (fromB : Bool) (seqNo : Nat) (answers : Nat) (payload : List Byte)
  /-- REQUEST (R349). -/
  | request (port : Nat) (fromB : Bool) (seqNo : Nat) (answers : Nat) (payload : List Byte)
  /-- ACCEPT (R349). -/
  | accept (port : Nat) (fromB : Bool) (seqNo : Nat) (answers : Nat) (payload : List Byte)
  /-- REJECT (R348). -/
  | reject (port : Nat) (fromB : Bool) (seqNo : Nat) (answers : Nat) (payload : List Byte)
  /-- READY (R350). -/
  | ready (port : Nat) (fromB : Bool) (seqNo : Nat) (answers : Nat) (payload : List Byte)
  /-- SWAP_JS (R354). -/
  | swapJs (port : Nat) (fromB : Bool) (seqNo : Nat) (answers : Nat) (payload : List Byte)
  /-- HOLD (R352). -/
  | hold (port : Nat) (fromB : Bool) (seqNo : Nat) (answers : Nat) (payload : List Byte)
  /-- DETACH (R356). -/
  | detach (port : Nat) (fromB : Bool) (seqNo : Nat) (answers : Nat) (payload : List Byte)
  /-- CLASP_BAD_MESSAGE (R347). -/
  | claspBadMessage (port : Nat)
  /-- CLASP_COLLISION (R348). -/
  | claspCollision (port : Nat)
  /-- CLASP_RETRY_IDLE (R348). -/
  | claspRetryIdle (port : Nat)
  /-- CLASP_ANSWER_TIMEOUT (R348). -/
  | claspAnswerTimeout (port : Nat)
  /-- CLASP_TRANSITION_TIMEOUT (R352). -/
  | claspTransitionTimeout (port : Nat)
  /-- CLASP_HOLD_TIMEOUT (R352). -/
  | claspHoldTimeout (port : Nat)
  /-- CLASP_SWAP_DELAY (R354). -/
  | claspSwapDelay (port : Nat)
  /-- CLASP_RECOVERY_END (R356). -/
  | claspRecoveryEnd (port : Nat)
  /-- CLASP_CONFIG (R361). -/
  | claspConfig (h : Hdr) (p : List Byte)
  /-- CLASP_STATUS (R360). -/
  | claspStatus (h : Hdr) (p : List Byte)
  /-- CLASP_REQUEST (R360). -/
  | claspRequest (h : Hdr) (p : List Byte)
  /-- CLASP_SWAP_JS (R360). -/
  | claspSwapJs (h : Hdr) (p : List Byte)
  /-- CLASP_HOLD (R352). -/
  | claspHold (h : Hdr) (p : List Byte)
  /-- CLASP_DETACH (R356). -/
  | claspDetach (h : Hdr) (p : List Byte)
  /-- CONVERSION_DONE (R366). -/
  | conversionDone (converter : Nat) (code : Nat)
  /-- MEAS_CALIBRATION_DONE (R363). -/
  | measCalibrationDone
  /-- MEAS_TABLE (R365). -/
  | measTable (h : Hdr) (p : List Byte)
  /-- MEAS_ACC_CONFIG (R372). -/
  | measAccConfig (h : Hdr) (p : List Byte)
  /-- MEAS_CLEAR (R381). -/
  | measClear (h : Hdr) (p : List Byte)
  /-- MEAS_SNAPSHOT_READ (R377). -/
  | measSnapshotRead (h : Hdr) (p : List Byte)
  /-- MEAS_TABLE_STATUS (R380). -/
  | measTableStatus (h : Hdr) (p : List Byte)
  /-- THERMAL_READ_START (R385). -/
  | thermalReadStart
  /-- THERMAL_READ_DONE (R384). -/
  | thermalReadDone (readings : List Int)
  /-- THERMAL_HELD_READ (R390). -/
  | thermalHeldRead (readings : List Int)
  /-- THERM_CONFIG (R394). -/
  | thermConfig (h : Hdr) (p : List Byte)
  /-- THERM_STATUS (R397). -/
  | thermStatus (h : Hdr) (p : List Byte)
  /-- THERM_PEAK_CLEAR (R397). -/
  | thermPeakClear (h : Hdr) (p : List Byte)
  /-- TIMER_OVERFLOW (R400). -/
  | timerOverflow (timer : Nat)
  /-- TIMER_MATCH (R403). -/
  | timerMatch (timer : Nat)
  /-- CAPTURE_EDGE (R406). -/
  | captureEdge (input : Nat) (edge : Edge)
  /-- LFRC_STEP_SWITCH (R407). -/
  | lfrcStepSwitch
  /-- DEBUG_HALT (R407). -/
  | debugHalt (halt : Bool)
  /-- WDG_EXPIRE (R409). -/
  | wdgExpire
  /-- WDG_CLKMON (R411). -/
  | wdgClkmon
  /-- LFRC_RESUME (R411). -/
  | lfrcResume
  /-- TIMER_CONFIG (R414). -/
  | timerConfig (h : Hdr) (p : List Byte)
  /-- TIMER_STATUS (R414). -/
  | timerStatus (h : Hdr) (p : List Byte)
  /-- TIMER_CAPTURES (R414). -/
  | timerCaptures (h : Hdr) (p : List Byte)
  /-- TIME_READ (R414). -/
  | timeRead (h : Hdr) (p : List Byte)
  /-- SCRUB_VISIT (R419). -/
  | scrubVisit (mem : Nat) (uses : List RamUse) (found : Upset) (tagged : Option FlightKey) (rewritten : Bool)
  /-- DRIP_LEAK (R420). -/
  | dripLeak (mem : Nat)
  /-- MEMI_CONFIG (R424). -/
  | memiConfig (h : Hdr) (p : List Byte)
  /-- MEMI_READ (R426). -/
  | memiRead (h : Hdr) (p : List Byte)
  /-- MEMI_INJECT (R425). -/
  | memiInject (h : Hdr) (p : List Byte)
  /-- FLASH_STATUS (R436). -/
  | flashStatus (h : Hdr) (p : List Byte)
  /-- FW_UPDATE_BEGIN (R104). -/
  | fwUpdateBegin (h : Hdr) (p : List Byte)
  /-- UPDATE_ERASE_DONE (R104). -/
  | updateEraseDone
  /-- FW_UPDATE_CHUNK (R105). -/
  | fwUpdateChunk (h : Hdr) (p : List Byte)
  /-- CHUNK_COMMITTED (R105). -/
  | chunkCommitted
  /-- FW_UPDATE_FINISH (R107). -/
  | fwUpdateFinish (h : Hdr) (p : List Byte)
  /-- FW_ACTIVATE (R107). -/
  | fwActivate (h : Hdr) (p : List Byte)
  /-- FW_CONFIRM (R108). -/
  | fwConfirm (h : Hdr) (p : List Byte)
  /-- FW_UPDATE_ABORT (R116). -/
  | fwUpdateAbort (h : Hdr) (p : List Byte)
  /-- JOURNAL_WRITE (R112). -/
  | journalWrite (h : Hdr) (p : List Byte)
  /-- JOURNAL_COMMIT (R112). -/
  | journalCommit (h : Hdr) (p : List Byte)
  /-- JOURNAL_COMMIT_DONE (R112). -/
  | journalCommitDone
  /-- JOURNAL_READ (R436). -/
  | journalRead (h : Hdr) (p : List Byte)
  /-- JOURNAL_REMOVE (R110). -/
  | journalRemove (h : Hdr) (p : List Byte)
  /-- LC_STATUS (R436). -/
  | lcStatus (h : Hdr) (p : List Byte)
  /-- LC_ADVANCE (R113). -/
  | lcAdvance (h : Hdr) (p : List Byte)
  /-- LC_WIPE_DONE (R113). -/
  | lcWipeDone
  /-- KEY_PROGRAM (R115). -/
  | keyProgram (h : Hdr) (p : List Byte)
  /-- KEY_REVOKE (R115). -/
  | keyRevoke (h : Hdr) (p : List Byte)
  /-- KEY_STATUS_READ (R436). -/
  | keyStatusRead (h : Hdr) (p : List Byte)
  /-- CERT_LOAD (R102). -/
  | certLoad (h : Hdr) (p : List Byte)
  /-- CERT_VERIFIED (R102). -/
  | certVerified
  /-- CERT_COMMITTED (R102). -/
  | certCommitted
  /-- CERT_ERASE_DONE (R102). -/
  | certEraseDone
  /-- CERT_READ (R436). -/
  | certRead (h : Hdr) (p : List Byte)
  /-- FENCE_STATUS (R436). -/
  | fenceStatus (h : Hdr) (p : List Byte)
  /-- OTP_OPTION (R115). -/
  | otpOption (h : Hdr) (p : List Byte)
  /-- JTAG_INSTRUCTION (R36). -/
  | jtagInstruction (cells : Option Cells)
  /-- BZ_FB_CHANGE (R265). -/
  | bzFbChange (channel : Nat) (closed : Bool)
  /-- SLOLOS_PORT_START (R317). -/
  | slolosPortStart (port : Nat)
  /-- CLASP_LINE_IDLE (R348). -/
  | claspLineIdle (port : Nat)
  /-- CLASP_MESSAGE_SENT (R349). -/
  | claspMessageSent (port : Nat)
  /-- CAN_FRAME_TRANSMITTED (R124). -/
  | canFrameTransmitted (controller : Nat)
  /-- OTP_PROGRAM_DONE (R115). -/
  | otpProgramDone
  /-- TOMBSTONE_COMMITTED (R110). -/
  | tombstoneCommitted
  /-- BODY_HASH_DONE (R107). -/
  | bodyHashDone
deriving DecidableEq, Repr

end Sys2Proof
end

