-- ==== Sys2Proof/Decode.lean ====
section
/-!
DEFINITION. The command that a word spells by the bits of the opcode table. No row of the table gives bits: commands come
as packets, transactions, frames and events, so no word spells one.
-/
namespace Sys2Proof

/-- The command of a table word: none, since no row gives bits. -/
def decodeTableWord (nbits w : Nat) : Option Instr :=
  match nbits, w with
  | _, _ => none

end Sys2Proof
end

