-- ==== Sys2Proof/Config.lean ====
section
/-!
DEFINITION. What an implementation fixes: the numbers that the spec states as constants of the part, and the free
values, which are opaque constants without a body (nothing can be proved of the value one takes).
-/
namespace Sys2Proof.Config

/-- A bit that the spec leaves open (R37 and R38: a strap that changes while it is sampled; R44: an NRST pulse between
100 ns and 1 us; R213: a crossing that reverses within 5 ns). Applied to the state's counter of free values. -/
opaque freeBit : Nat → Bool

/-- Whether a quotient whose rounding the spec leaves open is rounded up, as a function of the place where it is taken, the numerator and
the denominator: results of the promise of R159 depend on their operands alone. -/
opaque roundUp : Nat → Int → Nat → Bool

/-- A number that the spec leaves open. Applied to the state's counter of free values. -/
opaque freeNat : Nat → Nat

/-- An integer that the spec leaves open. Applied to the state's counter of free values. -/
opaque freeInt : Nat → Int

/-- An integer that the spec leaves open and that a result of the promise of R159 rests on, as a function of what it can depend on: the
first argument numbers the place where it is taken. -/
opaque openInt : Nat → List Int → Int

/-- Fraction bits that the loop filter (R182), the limiter (R184) and the trims (R186) hold beyond the code they write:
the spec gives a 64-bit fixed point without its place. -/
opaque filterBits : Nat
opaque limiterBits : Nat
opaque trimBits : Nat

/-- Whether a worker serves a strand alone (R181): the strand record is the home die's. Applied to the strand and the
epoch. -/
opaque servesAlone : Nat → Nat → Bool

/-- Whether a strand lane of a worker runs in CC while its field code is CHARGE_MAIN (R199): the phase is the home die's. Applied to the
strand and the epoch. -/
opaque strandInCc : Nat → Nat → Bool

/-- The bit of the tuning sequence that sets the sign of the perturbation (R199). -/
opaque tuneSign : Nat → Bool

/-- Core ticks per microsecond (R60). -/
def ticksPerUs : Nat := 200

/-- Commands of one queue (R125). -/
def queueEntries : Nat := 8

/-- Internal tags of a die (R125), and those a manager keeps for the internal origin (R329). -/
def internalTags : Nat := 128
def managerInternal : Nat := 32

/-- Events that an interface holds (R135). -/
def eventSpace : Nat := 32

/-- Packets that the SPI target holds (R139). -/
def spiBuffers : Nat := 2

end Sys2Proof.Config
end

