-- ==== Sys2Proof/Machine/Bytes.lean ====
section
/-!
DEFINITION. Byte order (R6), byte fields of payloads and records, and the checksums of R119 and R314.
-/
namespace Sys2Proof.Machine

/-- `n` bytes of a number, least significant first (R6). -/
def le : Nat → Nat → List Byte
  | 0, _ => []
  | n + 1, v => BitVec.ofNat 8 v :: le n (v / 256)

/-- A number from its bytes, least significant first (R6). -/
def leNat : List Byte → Nat
  | [] => 0
  | b :: r => b.toNat + 256 * leNat r

/-- `n` bytes of a number, most significant first (R92: the standards of signatures). -/
def be (n v : Nat) : List Byte := (le n v).reverse

/-- A number from its bytes, most significant first. -/
def beNat (l : List Byte) : Nat := leNat l.reverse

/-- The bytes of a field; bytes past the end are absent. -/
def slice (p : List Byte) (off len : Nat) : List Byte := (p.drop off).take len

/-- A little-endian field of a payload or a record; bytes past the end count as zero. -/
def fieldAt (p : List Byte) (off len : Nat) : Nat := leNat (slice p off len)

/-- One byte of a payload or a record. -/
def byteAt (p : List Byte) (off : Nat) : Nat := fieldAt p off 1

/-- The two's complement reading of `bits` bits. -/
def signed (bits v : Nat) : Int := if v < 2 ^ (bits - 1) then v else (v : Int) - 2 ^ bits

/-- The `bits`-bit two's complement pattern of an integer. -/
def unsigned (bits : Nat) (v : Int) : Nat := (v % (2 ^ bits : Int)).toNat

/-- A signed little-endian field. -/
def sfieldAt (p : List Byte) (off len : Nat) : Int := signed (8 * len) (fieldAt p off len)

/-- Bit `i` of the byte at `off`. -/
def bitAt (p : List Byte) (off i : Nat) : Bool := (byteAt p off).testBit i

/-- Every byte of a field is zero. -/
def zeroAt (p : List Byte) (off len : Nat) : Bool := (slice p off len).all (· == 0)

/-- Replaces a little-endian field. -/
def putField (p : List Byte) (off len v : Nat) : List Byte := p.take off ++ le len v ++ p.drop (off + len)

/-- `n` zero bytes. -/
def zeros (n : Nat) : List Byte := List.replicate n 0

/-- A flag as a number. -/
def bit (b : Bool) : Nat := if b then 1 else 0

/-- One bit step of CRC-32C, reflected (R119). -/
def crc32Bit (c : Nat) : Nat := if c % 2 = 1 then (c / 2) ^^^ 0x82F63B78 else c / 2

/-- One byte of CRC-32C. -/
def crc32Byte (c : Nat) (b : Byte) : Nat :=
  crc32Bit (crc32Bit (crc32Bit (crc32Bit (crc32Bit (crc32Bit (crc32Bit (crc32Bit (c ^^^ b.toNat))))))))

/-- CRC-32C (R119). -/
def crc32c (l : List Byte) : Nat := (l.foldl crc32Byte 0xFFFFFFFF) ^^^ 0xFFFFFFFF

/-- One bit step of CRC-16 with polynomial 0x1021, unreflected (R314). -/
def crc16Bit (c : Nat) : Nat := if c ≥ 0x8000 then ((2 * c) % 65536) ^^^ 0x1021 else 2 * c

/-- One byte of CRC-16. -/
def crc16Byte (c : Nat) (b : Byte) : Nat :=
  crc16Bit (crc16Bit (crc16Bit (crc16Bit (crc16Bit (crc16Bit (crc16Bit (crc16Bit (c ^^^ (b.toNat * 256)))))))))

/-- CRC-16 over a preset register (R314: the telemetry preset). -/
def crc16From (c : Nat) (l : List Byte) : Nat := l.foldl crc16Byte c

/-- CRC-16 (R314). -/
def crc16 (l : List Byte) : Nat := crc16From 0xFFFF l

/-- Bytes followed by their CRC-32C, least significant byte first. -/
def withCrc32 (l : List Byte) : List Byte := l ++ le 4 (crc32c l)

/-- Bytes followed by their CRC-16, least significant byte first. -/
def withCrc16 (l : List Byte) : List Byte := l ++ le 2 (crc16 l)

/-- The frame ends in the CRC-32C of what precedes. -/
def crc32Good (l : List Byte) : Bool :=
  4 ≤ l.length && fieldAt l (l.length - 4) 4 == crc32c (l.take (l.length - 4))

/-- The frame ends in the CRC-16 of what precedes. -/
def crc16Good (l : List Byte) : Bool :=
  2 ≤ l.length && fieldAt l (l.length - 2) 2 == crc16 (l.take (l.length - 2))

/-- The element at an index, or a default. -/
def getAt {α : Type} (l : List α) (i : Nat) (d : α) : α := l.getD i d

/-- Replaces the element at an index. -/
def setAt {α : Type} (l : List α) (i : Nat) (x : α) : List α := l.set i x

/-- Applies a function to the element at an index. -/
def modAt {α : Type} (l : List α) (i : Nat) (f : α → α) : List α := l.modify i f

/-- Puts an element before the first one that it does not exceed. -/
def insertBy {α : Type} (below : α → α → Bool) (x : α) : List α → List α
  | [] => [x]
  | y :: r => if below x y then x :: y :: r else y :: insertBy below x r

/-- A stable sort by a total preorder. -/
def sortBy {α : Type} (below : α → α → Bool) (l : List α) : List α := l.foldr (insertBy below) []

/-- Ceiling division. -/
def ceilDiv (a b : Nat) : Nat := (a + b - 1) / b

/-- A value brought into a range. -/
def clampInt (lo hi v : Int) : Int := if v < lo then lo else if hi < v then hi else v

end Sys2Proof.Machine
end

