-- ==== Sys2Proof/Machine/State.lean ====
section
/-!
DEFINITION. The state of one SL1663: plain data, one structure per block, and the queue of waiting commands.
Each field's docstring or its structure's names the table or rule of spec/ that gives it.
-/
namespace Sys2Proof.Machine

/-- The reasons a step can fault. None is raised: the spec gives the block no fault entry; errors are replies,
flags, events or resets. Safe. -/
inductive Fault where
  /-- Raised by no command; kept so that the type is a closed inductive with a name. Safe. -/
  | none
deriving DecidableEq, Repr

/-- The reasons a command is refused by the model. -/
inductive Refusal where
  /-- The command has no meaning in the model yet; raised by the arms of `exec` only. Safe. -/
  | notModelled (mnemonic : String)
deriving DecidableEq, Repr

/-! ### SYS and the clock unit (04) -/

/-- The clock unit's place in Table 04-2 and R62; `stopped` is STANDBY and HIBERNATE (R82, R85). -/
inductive ClkState where
  | off | refCheck | pllStart | locked | powerDown | running | stopped
deriving DecidableEq, Repr

/-- Table 01-3. -/
inductive Role where
  | standalone | worker | manager
deriving DecidableEq, Repr

/-- POWER_STATE of Table 04-5. -/
inductive Power where
  | run | standby | leaving | serviceWake
deriving DecidableEq, Repr

/-- The last-fault record (Table 04-14) without its padding. -/
structure FaultRec where
  code : BitVec 8
  causeBit : BitVec 8
  block : Nat
  epoch : Nat
  tick : Nat
  seqNo : Nat
  detail : List Byte
  crc : BitVec 32
deriving DecidableEq, Repr

/-- The SET_WAKE settings (R80). -/
structure WakeCfg where
  enable : BitVec 4
  level : BitVec 4
  csn : Bool
  slolos : Bool
  timer : Bool
  periods : Nat
deriving DecidableEq, Repr

/-- An internal window access that waits on a stopped block (R72): a read or a write, from SPI or, stalling
it, from the application core (R74). -/
structure Hung where
  block : Block
  address : Nat
  write : Option Nat
deriving DecidableEq, Repr

/-- SYS, the clock unit, the always-on domain and the balls they own. Reset triggers use the CAUSE bit layout of
Table 04-7. -/
structure Sys where
  /-- R41: which supplies are above their thresholds; bit 0 VAON, 1 VIO, 2 VANA, 3 VPLL, 4 VCORE. -/
  supplies : BitVec 5
  /-- R41: every supply has been above its rising threshold for 100 us. -/
  suppliesOk : Bool
  nrstLow : Bool
  /-- R76: triggers not yet recognised. -/
  trigPending : BitVec 12
  /-- R77: the reset now held and the triggers merged into it. -/
  held : Bool
  trig : BitVec 12
  /-- R63: the reset held or pending restarts the PLL although its kind does not. -/
  trigPll : Bool
  clk : ClkState
  /-- R63: lock was lost, and the reset that restarts the PLL has not ended. -/
  pllLost : Bool
  lfrcRun : Bool
  lfrcTrimmed : Bool
  /-- Table 04-3. -/
  refOk : Bool
  pllRetry : Nat
  lfrcMeas : Nat
  /-- Table 04-4: the straps as sampled and the role that R14 and R2 give. -/
  mode : BitVec 2
  xsel : Bool
  role : Role
  roleRefused : Bool
  roleForced : Bool
  /-- SYS_READY[15:0], Table 04-5. -/
  ready : BitVec 16
  power : Power
  hibernate : Bool
  /-- Tables 04-10 to 04-13. -/
  rstCause : BitVec 12
  seen : BitVec 12
  rstCount : Nat
  epochAtReset : Nat
  hint : BitVec 2
  lastFault : FaultRec
  /-- R79: an event was recorded and no reset has ended since. -/
  faultOpen : Bool
  faultSeq : Nat
  wake : WakeCfg
  /-- R70: the values of SYS_RST_HISTORY and of the SET_WAKE settings whose replacement is still in its crossing, with the core
  ticks that it has left. -/
  crossSeen : Option (Nat × BitVec 12)
  crossWake : Option (Nat × WakeCfg)
  /-- R86: a life-cycle change has wiped the always-on retention, and the reset that completes it has not ended. -/
  forgetting : Bool
  /-- R80: the levels of WAKE3 to WAKE0, the latched wake, and the LFRC periods left of the wake timer. -/
  wakePins : BitVec 4
  wakeLatched : Bool
  wakeLeft : Nat
  hung : Option Hung
  /-- R74: the same of the application core, which it stalls. -/
  coreHung : Option Hung
  /-- SAFE_N is driven low (R32). -/
  safeLow : Bool
  /-- R36: the boundary cells, where an instruction in force has them drive PWMH, PWML and BZk_DRV. -/
  cells : Option Cells
  /-- R35: the TAP is enabled. -/
  tapOn : Bool
  /-- R82, R83: a wake from STANDBY or a service wake is starting the clocks. -/
  waking : Bool
  /-- R37: an NRST edge has sampled the straps of the reset that is held. -/
  strapsTaken : Bool
  /-- R81: the low-power state that the boundary in progress enters: STANDBY or (true) HIBERNATE. -/
  entering : Option Bool
deriving DecidableEq, Repr

/-! ### OTP, flash and Geode (05) -/

/-- A life-cycle field of OTP: four state bits, each stored three times (R91); `noMajority` marks the bits whose
copies cannot be read by majority. -/
structure Triple where
  a : BitVec 4
  b : BitVec 4
  c : BitVec 4
  noMajority : BitVec 4
deriving DecidableEq, Repr

/-- OTP (Table 05-2). -/
structure Otp where
  dieId : List Byte
  factoryTrim : List Byte
  lfrcTrim : Nat
  partWq : Bool
  roleCfg : BitVec 8
  wdgCfg : BitVec 8
  wdgDevClose : BitVec 8
  lcState : Triple
  lcWiped : Triple
  rollback : Nat
  vRevoked : BitVec 4
  iProgrammed : BitVec 4
  iRevoked : BitVec 4
  vkeys : List (List Byte)
  ikeys : List (List Byte)
  /-- Uncorrectable OTP outside the life-cycle fields (R117, code 0x85). -/
  eccBad : Bool
deriving DecidableEq, Repr

/-- GEODE_STATUS.LC_STATE (Table 05-4). -/
inductive LcState where
  | blank | develop | field | ret | scrapped
deriving DecidableEq, Repr

/-- A firmware slot. -/
inductive SlotId where
  | a | b
deriving DecidableEq, Repr

/-- What a firmware slot holds (R103, R105): header, committed chunks, a chunk programmed without its progress record
(R106), and the mark of R107. -/
structure Slot where
  header : List Byte
  chunks : List (List Byte)
  part : Option (List Byte)
  complete : Bool
  /-- R89: how often the units of `part` have been programmed. -/
  programs : Nat
deriving DecidableEq, Repr

/-- A journal record (R110); `whole` says that its trailer and, for the records of a blob, the blob-end record
are committed (R112). -/
structure JRec where
  type : Nat
  inst : Nat
  seqNo : Nat
  body : List Byte
  whole : Bool
deriving DecidableEq, Repr

/-- An update session (R104). -/
structure Session where
  number : Nat
  header : List Byte
  target : SlotId
  next : Nat
  erased : Bool
deriving DecidableEq, Repr

/-- One copy of the limit certificate in flash (R102). -/
inductive CertCopy where
  | blank
  | uncommitted
  | committed (bytes : List Byte)
  | partErased
deriving DecidableEq, Repr

/-- The flash or OTP operation in progress (R89) and, where a command started it, that command. -/
inductive FlashOp where
  | none
  | updateErase (session : Nat)
  | chunk (by_ : FlightKey) (index : Nat) (data : List Byte) (readsBack : Bool)
  | commit (by_ : FlightKey) (records : List JRec) (compact : Bool)
  | tombstone (by_ : FlightKey) (type inst : Nat) (compact : Bool)
  | otp (by_ : FlightKey)
  | lcWipe (target : LcState)
  | certWrite (by_ : FlightKey) (bytes : List Byte)
  | certErase
  | bootWipe
deriving DecidableEq, Repr

/-- Flash (Table 05-1), the slot record, and the SRAM staging buffer of R112. -/
structure Flash where
  slotA : Slot
  slotB : Slot
  active : SlotId
  trial : Option SlotId
  session : Option Session
  lastSession : Nat
  jGen : Nat
  jRecs : List JRec
  jSeq : Nat
  jFill : Nat
  jOtherBlank : Bool
  certA : CertCopy
  certB : CertCopy
  certHighest : Nat
  op : FlashOp
  staging : List Host.Cell
  /-- Table 05-1: the patch area, from its first byte to the last one programmed. -/
  patch : List Byte
deriving DecidableEq, Repr

/-- BOOT_STAGE (Table 05-4). -/
inductive BootStage where
  | otp | patch | wipe | image | cert | journal | running | recovery | scrapped
deriving DecidableEq, Repr

/-- A certificate held in Geode RAM for its boundary, or one being verified (R102). -/
structure HeldCert where
  by_ : FlightKey
  bytes : List Byte
  epoch : Nat
deriving DecidableEq, Repr

/-- GEODE (Tables 05-4 and 05-6), the fence, and the application core's own state. -/
structure Geode where
  stage : BootStage
  wipePending : Bool
  /-- The integrator certificate in force (R101). -/
  cert : Option (List Byte)
  certBuiltin : Bool
  slotRunning : Option SlotId
  build : Nat
  clampCount : Nat
  lastClass : Nat
  discards : Nat
  /-- R99: clamps since the last boundary, the first one's class and register offset. -/
  epClamps : Nat
  epFirstClass : Nat
  epFirstOffset : Nat
  /-- R11: a protected write was discarded since the last boundary. -/
  epDiscard : Bool
  heldCert : Option HeldCert
  checking : Option HeldCert
  /-- R107: the command whose body hash is being computed, and its session. -/
  hashing : Option (FlightKey × Nat)
  /-- R113: the life-cycle state that the transition in progress enters. -/
  lcTarget : Option LcState
  /-- R74, R407: the application core waits on a stopped block, or is halted for debug. -/
  stalled : Bool
deriving DecidableEq, Repr

/-! ### CMD (06) -/

/-- A command packet (Table 06-1) without sync, length and CRC, which its encoding adds. -/
structure Packet where
  flags : BitVec 8
  target : BitVec 8
  tag : BitVec 8
  opcode : Nat
  epoch : Nat
  payload : List Byte
deriving DecidableEq, Repr

/-- A packet waiting to leave the die (R135); `frees` names the command whose final reply it is (R124). -/
structure OutItem where
  pkt : Packet
  node : Nat
  isEvent : Bool
  frees : Option FlightKey
deriving DecidableEq, Repr

/-- Where a command in flight stands (R125, R127, R129, R435). -/
inductive Phase where
  | waiting | forwarded | working | held | replied
deriving DecidableEq, Repr

/-- A command in flight (R124 to R127). -/
structure Flight where
  key : FlightKey
  node : Nat
  opcode : Nat
  flags : BitVec 8
  target : Nat
  bcast : Bool
  sched : Bool
  epoch : Nat
  payload : List Byte
  phase : Phase
  shortLead : Bool
  shortMargin : Bool
  /-- The epoch in progress at acceptance (Table 06-3). -/
  accEpoch : Nat
  /-- R133: the dies whose answer to a broadcast is awaited, and the answers so far. -/
  awaited : List Nat
  answers : List (Nat × List Byte)
  /-- R133: the ACCEPTED answer of a scheduled broadcast has been sent. -/
  accepted : Bool
  /-- R127: completions of a scheduled broadcast that came while its ACCEPTED answer was still awaited. -/
  early : List (Nat × List Byte)
  /-- R125: the workers in whose queues a broadcast holds an entry. -/
  queues : List Nat
deriving DecidableEq, Repr

/-- A complete packet received and not yet taken by the command engine (R139, R144). -/
structure Inbound where
  origin : Origin
  node : Nat
  bytes : List Byte
deriving DecidableEq, Repr

/-- A reassembly on a CAN controller (R144). -/
structure Reass where
  node : Nat
  next : Nat
  bytes : List Byte
deriving DecidableEq, Repr

/-- A CAN FD frame that a controller has sent (R143, R144): identifier and data field. -/
structure CanFrame where
  ident : Nat
  bytes : List Byte
deriving DecidableEq, Repr

/-- A CAN FD controller (R142 to R144): its binding record (Table 06-6), bus state, reassemblies, the frames of the packet in
transmission that have been sent, and the latest of them. -/
structure CanCtl where
  body : Option (List Byte)
  busOff : Bool
  reass : List Reass
  sent : Nat
  frame : Option CanFrame
deriving DecidableEq, Repr

/-- An event that leaves at the next boundary; `key` distinguishes those sent at most once per epoch. -/
structure DueEvent where
  opcode : Nat
  key : Nat
  payload : List Byte
deriving DecidableEq, Repr

/-- CMD (Tables 06-9 to 06-12). -/
structure Cmd where
  inbox : List Inbound
  outSpi : List OutItem
  outCan0 : List OutItem
  outCan1 : List OutItem
  flights : List Flight
  routes : List (BitVec 64)
  /-- R135: events dropped on each interface since its last EVENTS_LOST. -/
  lost : List Nat
  framing : Nat
  crcErr : Nat
  eventsLost : Nat
  winRefused : Nat
  lostEn : Bool
  outEn : Bool
  discarded : Bool
  /-- The bytes sent on HS_MISO in the latest SPI transaction (Table 06-5). -/
  miso : List Byte
  can0 : CanCtl
  can1 : CanCtl
  due : List DueEvent
deriving DecidableEq, Repr

/-! ### TIME and WDG (07, 17) -/

/-- A general timer (Tables 17-8 to 17-14). -/
structure Timer where
  source : BitVec 2
  armed : Bool
  wakeEn : Bool
  eventEn : Bool
  capSel : BitVec 3
  edge : BitVec 2
  filter : BitVec 8
  count : Nat
  period : Nat
  compare : Nat
  interval : Nat
  captures : List Nat
  catchup : Nat
  capOvf : Nat
  /-- R405: matches, late matches and dropped captures of the epoch in progress. -/
  epMatches : Nat
  epLate : Nat
  epDrops : Nat
  /-- R399: the count stored by a latching read. -/
  latched : Option Nat
  /-- The system time of the latest capture: edges within one tick give one capture (R406). -/
  capturedAt : Option Nat
deriving DecidableEq, Repr

/-- An epoch overrun to be reported at the next boundary (R162, R165). -/
structure Overrun where
  epoch : Nat
  cause : Nat
  address : Nat
deriving DecidableEq, Repr

/-- TIME: system time, epochs (Tables 07-6 to 07-9, 17-4 to 17-7) and the timers. -/
structure Time where
  sysTime : Nat
  epoch : Nat
  hasEpoch : Bool
  tick : Nat
  tickLatched : Nat
  length : Nat
  /-- The length of the epoch before [us]. -/
  prevLength : Nat
  /-- The promise word of the epoch in progress as far as known, and of n - 1 (LOCAL). -/
  wordNow : BitVec 8
  wordLast : BitVec 8
  domain : BitVec 8
  broken : Nat
  /-- Boundaries since the reset, up to 2: the epochs whose words exist (R160). -/
  boundaries : Nat
  latch : Bool
  hiLatched : Option Nat
  ovf : BitVec 16
  match_ : BitVec 16
  timers : List Timer
  /-- R407. -/
  lfrcStep : Bool
  debugHalt : Bool
  /-- R162: Eupefen's decisions came too late for the next boundary. -/
  policyLate : Bool
  overruns : List Overrun
deriving DecidableEq, Repr

/-- WDG (Tables 17-15 to 17-18). -/
structure Wdg where
  count : Nat
  prescale : Nat
  openTick : Nat
  closeTick : Nat
  window : Option (Nat × Nat)
  locked : Bool
  lockViol : Bool
  clkLfrc : Bool
  lfrcStalled : Bool
  /-- R115: WDG_DEV_CLOSE as it stood at the latest reset end. -/
  devClose : BitVec 8
deriving DecidableEq, Repr

/-! ### MEMI (18) -/

/-- One protected memory (Tables 18-4 to 18-6); `errors` are the valid words that hold flipped bits. -/
structure Ram where
  ceiling : Nat
  intervalMs : Nat
  leakTicks : Nat
  count : Nat
  overflows : Nat
  corrected : Nat
  overflowed : Bool
  epOverflows : Nat
  /-- Corrections since the reset (DRIP_OVERFLOW). -/
  total : Nat
  scrubAt : Nat
  errors : List (Nat × Nat)
deriving DecidableEq, Repr

/-- MEMI; `inject` is an armed MEMI_INJECT (R425): memory, bits, word index. -/
structure Memi where
  rams : List Ram
  queueUncorr : Nat
  inject : Option (Nat × Nat × Nat)
deriving DecidableEq, Repr

/-! ### SLOLOS (13) -/

/-- PORT_A and PORT_B of Table 13-9. -/
inductive PortState where
  | off | training | measuring | up | down
deriving DecidableEq, Repr

/-- The control frames of R314. -/
inductive Ctrl where
  | enum (next prev delay mode : Nat)
  | enumAnswer (dieId : List Byte) (partRole address delay : Nat)
  | enumEnd (address : Nat) (roleConflict : Bool)
  | join
  | echo (t2 t3 : Nat)
  | reset (mask : BitVec 64)
  | unassign
  | linkDown (address port : Nat)
deriving DecidableEq, Repr

/-- A frame, or a wake burst, handed to a port's transmitter (Table 13-2). The content follows the start character. -/
inductive ChainFrame where
  | marker (bytes : List Byte)
  | allotment (bytes : List Byte)
  | control (c : Ctrl)
  | packet (bytes : List Byte)
  /-- A packet frame that carries the final reply of a command of this die (R124). -/
  | reply (bytes : List Byte) (key : FlightKey)
  | telemetry (bytes : List Byte)
  | fault (bytes : List Byte)
  | abort
  /-- A manager's burst of WAKE characters, and a worker's toggling (Table 13-8). -/
  | wakeBurst
  | toggle
  /-- A bulk frame that passes through the relay buffer (R312). -/
  | relayed (frame : ChainFrame)
deriving DecidableEq, Repr

/-- STATE of a worker context (Table 13-6). -/
inductive CtxState where
  | absent | enumerated | active | lost | refused
deriving DecidableEq, Repr

/-- A worker context (Table 13-6) with the latest telemetry frame and what the current sum has seen of the worker. -/
structure Ctx where
  state : CtxState
  viaA : Bool
  wq : Bool
  dieId : List Byte
  missed : Nat
  d : Nat
  dRev : Nat
  lastEpoch : Nat
  allot : List Byte
  /-- R17, R318: the pass that enumerated the worker is still to be completed; boundaries passed since it was. -/
  joining : Bool
  age : Nat
  /-- The telemetry frame last summed, and the one that has arrived for the sum to come (R324). -/
  telemetry : List Byte
  arrived : Option (List Byte)
deriving DecidableEq, Repr

/-- SLOLOS (Tables 13-9 to 13-12), the chain record of R336, and a worker's allotment (R21, R325). -/
structure Slolos where
  portA : PortState
  portB : PortState
  address : Nat
  workers : Nat
  topology : BitVec 2
  facing : BitVec 2
  enumActive : Bool
  /-- The mode of the pass in progress: 0 append, 1 full, 2 verify, 3 the reverse pass (Table 13-4). -/
  enumMode : Nat
  /-- R151: the pass has named the first worker that it left out. -/
  capped : Bool
  cutOff : Bool
  errCode : Nat
  errCrc : Nat
  errLink : Nat
  errDropped : Nat
  /-- D and D' [125 ps], Table 13-11. -/
  d : Nat
  dRev : Nat
  /-- R317: channel delays and repeat latencies [ps]. -/
  cA : Nat
  cB : Nat
  r : Nat
  rRev : Nat
  ctxs : List Ctx
  ringExpected : Bool
  autoAppend : Bool
  expected : Nat
  /-- R332, R334: the addresses before the breaks that the manager knows of; 0 is its own SLB. -/
  breaks : List Nat
  /-- R334: the manager sends out of both ports; markers left until it sends on SLB only, once the ring has closed again. -/
  bothPorts : Bool
  /-- R334: from the next marker on the manager sends out of both ports. -/
  bridging : Bool
  /-- R335: the verify pass of a STANDBY wake is still to be completed; no marker leaves before. -/
  verifyDue : Bool
  restoring : Option Nat
  /-- R320: a JOIN waits for its append pass. -/
  joinSeen : Bool
  /-- R17 (worker): boundaries performed since the die took its address or rejoined, up to 2. -/
  age : Nat
  /-- The worker's allotment entry and BZ4 bit in force, those received for the next epoch with the link target, and the consecutive
  misses (R21). -/
  entry : List Byte
  bz4 : Bool
  heldEntry : Option (List Byte × Bool × Nat)
  misses : Nat
  /-- R21: the allotment of the next epoch was missed; reported in telemetry. -/
  missedFlag : Bool
  firstAllot : Bool
  /-- R156, R322 (worker): the marker of the next boundary: its epoch number and length; and the boundaries skipped in a
  row. -/
  marker : Option (Nat × Nat)
  skipped : Nat
  sumBegun : Bool
  /-- R324: the allotment of the next epoch is computed; on a worker: it was missed (R325). -/
  allotReady : Bool
  /-- What each transmitter has been handed and has not finished sending, and the half core ticks it has spent on it. -/
  txA : List ChainFrame
  txB : List ChainFrame
  spentA : Nat
  spentB : Nat
deriving DecidableEq, Repr

/-! ### CONV (08) -/

/-- Table 08-6. -/
inductive LaneMode where
  | off | softstart | regulate | burst | brake | crowbar | hiccup | latched | unconfigured
deriving DecidableEq, Repr

/-- Table 08-5. -/
inductive LaneFn where
  | charge | boost | bus
deriving DecidableEq, Repr

/-- What a leg's gates do: both low; the pulses of R172; the low side held on (CROWBAR). -/
inductive Drive where
  | low | pulses | lowOn
  /-- R179, R209: the pulse that has started completes, then both gates stay low. -/
  | ending
deriving DecidableEq, Repr

/-- A leg (R172 to R174, R186, R187): its trim, the duty code in its register, the code latched at its last turn-on, the
pulse that this code makes, and the low side held off by reverse blocking or soft start. -/
structure Leg where
  drive : Drive
  trim : Int
  duty : Nat
  /-- The duty register before the latest frame's filter wrote it (Table 08-4, step 4). -/
  prev : Nat
  /-- The leg turns on in the frame in progress and has not yet (R175, R176). -/
  due : Bool
  /-- Steps from the leg's latest turn-on to the end of the frame in progress. -/
  left : Nat
  latched : Nat
  tOn : Nat
  highOmitted : Bool
  lowOmitted : Bool
  lowHeldOff : Bool
  lowOnAt : Nat
  lowOffAt : Nat
deriving DecidableEq, Repr

/-- A sinc3 decimator (R169): outputs since its start (up to 4), the newest valid one, and the sum and number of the
valid outputs of the frame in progress. -/
structure Decimator where
  seen : Nat
  newest : Option Int
  sum : Int
  num : Nat
deriving DecidableEq, Repr

/-- What a lane accumulates over an epoch for its record (Table 08-8). -/
structure LaneEpoch where
  frames : Nat
  sumI : Int
  peakI : Int
  sumD : Nat
  peakD : Nat
  sumP : Int
  bursts : Nat
  brakes : Nat
  bound : Nat
  skipped : Nat
  atDmax : Bool
  blocked : Bool
  tuned : Bool
  legsChanged : Bool
  reversed : Bool
deriving DecidableEq, Repr

/-- The reversal of a lane (R190): the function it takes, and whether its frame of rest has begun. -/
structure Reversal where
  fn : LaneFn
  resting : Bool
deriving DecidableEq, Repr

/-- Adaptive tuning of a lane (R199 to R203). -/
structure Tuning where
  mode : Nat
  window : Nat
  seq : Nat
  /-- Whole epochs, or frames in continuous mode, of the window so far. -/
  done : Nat
  disturbed : Bool
  /-- The voltage target at the start of the window [mV]. -/
  target : Nat
  sums : List Int
  /-- R200: the sums as the latest boundary froze them, and whether a boundary has begun the window. -/
  frozen : List Int
  begun : Bool
  /-- The outcome decided and waiting for its boundary: code, estimates, coefficients. -/
  outcome : Option (Nat × List Nat × List Int)
  /-- Signs of the last 32 perturbed frames, newest first. -/
  signs : List Int
deriving DecidableEq, Repr

/-- A lane. `body` is its profile (Table 08-9); the values that commands change while it runs stand beside it. -/
structure Lane where
  body : Option (List Byte)
  mode : LaneMode
  fn : LaneFn
  legs : BitVec 16
  newLegs : Option (BitVec 16)
  period : Nat
  newPeriod : Option Nat
  extended : Bool
  brakeTime : Nat
  brakeThreshold : Nat
  burstThreshold : Nat
  burstLength : Nat
  burstBand : Nat
  buck : List Int
  boost : List Int
  /-- R185: the host's target [mV] and current [mA]. -/
  host : Option (Nat × Nat)
  /-- R185, ch. 10: the charge machine's voltage and current for the lane. -/
  plan : Option (Nat × Nat)
  /-- Ch. 11: the lane field of the allotment in force: code and current [mA]. -/
  fieldCode : Nat
  share : Option Nat
  /-- R191 and ch. 11: the link voltage that a boosting lane holds [mV]. -/
  linkHold : Nat
  /-- R176: the frames since the last step, and the leg in slot 0. -/
  rotCount : Nat
  rotFirst : Nat
  /-- R176: the leg that does not fire in the step frame in progress. -/
  stepping : Bool
  /-- R181: the leader and m, and whether the offset has been set. -/
  phaseLock : Option (Nat × Nat)
  lockSet : Bool
  /-- The start of the next frame, in steps since the start of the system time, and the steps that a phase lock adds to the frame in
  progress (R180, R181). -/
  nextAt : Nat
  extra : Nat
  /-- R209: epoch and tick of the latest unscheduled stop. -/
  stopped : Option (Nat × Nat)
  startOffset : Nat
  frames : Nat
  /-- The ramped target and the limiter output of R184, the effective reference (Q1.15). -/
  rt : Int
  rc : Int
  r : Int
  /-- The filter's output and histories (R182), newest first. -/
  u : Int
  /-- The duty code of the latest frame (R188). -/
  uCode : Nat
  uHist : List Int
  eHist : List Int
  /-- The lane current of the latest frame [mA], in the charging direction. -/
  current : Int
  /-- R193. -/
  vStart : Int
  lowsHeld : Bool
  awaitDecim : Bool
  /-- R194, R195. -/
  lowFrames : Nat
  burstLeft : Nat
  sleeping : Bool
  wake : Bool
  wakeRegulate : Bool
  /-- R197: frames left of the brake hold-off. -/
  brakeHold : Nat
  reversal : Option Reversal
  lowLink : Nat
  /-- R191: an auto-reversal not yet recorded by policy. -/
  autoReversed : Bool
  failedReversals : Nat
  /-- Ch. 09: hiccup retries, the system time of the hiccup entry, a stop carried out at the retry, and
  the frames of a short in a row. -/
  retries : Nat
  hiccupAt : Nat
  stopAtRelease : Bool
  shortCount : Nat
  limitAct : Bool
  tuning : Tuning
  /-- R199: the limiter's share of the epoch before, in frames: bound and total. -/
  lastBound : Nat
  lastFrames : Nat
  /-- R252: the string impedance of the latest applied TUNING_RESULT [uOhm]. -/
  impedance : Option Nat
  /-- R252: the drop compensation computed for the next boundary [mV]. -/
  drop : Nat
  /-- R282: an auto-reversal whose boundary has passed follows its fields from the next one. -/
  reversedAt : Nat
  ep : LaneEpoch
  closed : List Byte
  sticky : BitVec 8
deriving DecidableEq, Repr

/-- CONV (Tables 08-10 to 08-15). -/
structure Conv where
  lanes : List Lane
  legs : List Leg
  decims : List Decimator
deriving DecidableEq, Repr

/-! ### PROT (09) -/

/-- A local report of a class in an epoch (R226). -/
structure Report where
  cls : Nat
  legs : BitVec 16
  lanes : BitVec 4
  count : Nat
  epoch : Nat
  tick : Nat
deriving DecidableEq, Repr

/-- The source of an over-voltage action (R219, R222). -/
inductive OvSource where
  | comparator (n : Nat)
  | stringDecimator
  | linkDecimator
deriving DecidableEq, Repr

/-- The crowbar of a lane in CROWBAR (R220, R221). -/
structure Crowbar where
  source : OvSource
  fn : LaneFn
  /-- The low sides wait for BZ4 (R220). -/
  waiting : Bool
  /-- Crossings of the lower threshold are ignored (R221). -/
  blanked : Bool
  legs : BitVec 16
deriving DecidableEq, Repr

/-- An echo record with its side table (Table 09-8). -/
structure Echo where
  opened : Bool
  count : Nat
  first : Nat
  last : Nat
  epochs : Nat
  closed : BitVec 64
  live : BitVec 64
  side : List (BitVec 16)
  changed : Bool
deriving DecidableEq, Repr

/-- PROT (Tables 09-10 to 09-12). -/
structure Prot where
  body : Option (List Byte)
  held : BitVec 16
  dfltRaw : BitVec 16
  dfltLow : BitVec 16
  cmpUp : BitVec 16
  cmpLo : BitVec 16
  flags : BitVec 32
  reports : List Report
  log : List (List Report)
  crowbars : List (Option Crowbar)
  echo : List Echo
  /-- R228: classes sent or forwarded, with their epochs. -/
  sent : List (Nat × Nat)
  /-- R230: what the sum of the telemetry of an epoch closes at the next boundary: the epoch and, by address, the classes and masks. -/
  closing : Option (Nat × List (Nat × List (Nat × BitVec 16)))
  /-- R227: lanes whose share is zero until they return to OFF. -/
  shareZero : BitVec 4
  /-- The newest decimator voltages beyond a lane's over-voltage threshold: string side, link side. -/
  overString : BitVec 4
  overLink : BitVec 4
deriving DecidableEq, Repr

/-! ### BEZEL and the power path (11) -/

/-- Table 11-3. -/
inductive ChanState where
  | disabled | opened | closing | closed | opening | tripped | lockout
deriving DecidableEq, Repr

/-- A Bezel channel (R263 to R271). -/
structure Chan where
  body : Option (List Byte)
  state : ChanState
  drv : Bool
  fb : Bool
  welded : Bool
  retries : Nat
  /-- R265: the opening has been confirmed by the feedback. -/
  openSeen : Bool
  /-- R267: the integrator [mA^2 ticks], the ticks for which the current has been above the pickup, and the system time
  of the last accepted sample. -/
  integ : Nat
  aboveTicks : Nat
  lastSample : Nat
  /-- R266: crossings whose filter runs: OC or export, REV, OV. -/
  ocPending : Bool
  revPending : Bool
  ovPending : Bool
  /-- TRIPS of Table 11-11: bit 0 OC fast, 1 OC slow, 2 OV, 3 REV, 4 feedback. -/
  trips : BitVec 5
  /-- R270: the retry delay counted so far [us]; it starts at the first boundary after the trip. -/
  delayUs : Nat
  delayOn : Bool
  /-- R273: boundaries in a row at which the source voltage lay in its window. -/
  qualify : Nat
  wanted : Bool
deriving DecidableEq, Repr

/-- HOLDER of Table 11-13. -/
inductive Holder where
  | none | source | lanes
deriving DecidableEq, Repr

/-- What policy sees of a channel: its state once the actions of the latest boundary are done (R19, R23, R276). -/
structure ChanSeen where
  state : ChanState
  welded : Bool
  retryDue : Bool
  retries : Nat
deriving DecidableEq, Repr

/-- What policy sees of a Clasp port, as it stood at the latest boundary (R23): it counts as ATTACHED_SINK with an accepted contract,
or as ATTACHED_SOURCE; the granted current and the contract slew; its tie is wanted closed in export (R350). -/
structure TieSeen where
  sink : Bool
  source : Bool
  grant : Option Nat
  slew : Nat
  exports : Bool
deriving DecidableEq, Repr

/-- The latest PEER_POWER message (R285). -/
structure Peer where
  demand : Nat
  draw : Nat
  grant : Nat
  holder : Nat
  closedMask : Nat
deriving DecidableEq, Repr

/-- What a computation decided for the next boundary: channels to close and open, lane entries by address, the BZ4
bitmap and the link target (Table 11-6, R249). -/
structure Decided where
  close : BitVec 6
  open_ : BitVec 6
  entries : List (List Byte)
  bz4 : BitVec 64
  linkTarget : Nat
  boosting : BitVec 16
deriving DecidableEq, Repr

/-- The power path (R272 to R285). -/
structure Path where
  body : Option (List Byte)
  chans : List Chan
  inhibit : BitVec 4
  holder : Holder
  boosting : BitVec 16
  linkTarget : Nat
  cap : Nat
  load : Nat
  budget : Nat
  shares : List Nat
  /-- R272: the source that the precharge is for, and the time since BZ5's close [us]. -/
  precharge : Option (Nat × Nat)
  /-- R272: a precharge failed at this computation: its source. -/
  preFailed : Option Nat
  peer : Option Peer
  /-- The message received since the boundary (R23, R285). -/
  peerNew : Option Peer
  peerAge : Nat
  peerStale : Bool
  grant : Nat
  /-- R280: the load last computed while a source was closed. -/
  lastLoad : Nat
  /-- R284: the source that a change through keep-alive returns to. -/
  changing : Option Nat
  decided : Option Decided
  /-- R18, R162: the die's own entry as last applied; late decisions leave it in force. -/
  entry : List Byte
  seen : List ChanSeen
  ties : List TieSeen
  /-- The peer's figures of the latest computation: this die's demand on the link side, and its draw [mA]. -/
  linkDemand : Nat
  draw : Nat
  /-- Boundaries in a row with BOOST fields in force, and whether boost telemetry exists since a source was last closed (R280). -/
  boostEpochs : Nat
  boostTold : Bool
  /-- The BZ4 bitmap of the latest computation (R278). -/
  bz4Map : BitVec 64
  /-- R304: the Pendant reference sampled at the boundary; none where no LINK setpoint is stored. -/
  refAt : Option Nat
deriving DecidableEq, Repr

/-! ### Charging (10) -/

/-- Table 10-3. -/
inductive ChargePhase where
  | check | recover | ramp | cc | cv | finish | rest | maintain | equalise | halt
deriving DecidableEq, Repr

/-- Table 10-5. -/
inductive HaltReason where
  | idle | host | complete | temp | tempUnknown | bmsStop | overvoltage | absent | recoverTimeout | timeout | noLanes
  | protection | mismatch | keepAlive
deriving DecidableEq, Repr

/-- A BMS_LIMITS message (Table 10-7). -/
structure Bms where
  chargeOk : Bool
  dischargeOk : Bool
  iCharge : Nat
  vCharge : Nat
  iDischarge : Nat
  vDischarge : Nat
  vPack : Nat
  tMin : Int
  tMax : Int
deriving DecidableEq, Repr

/-- A strand's plan (R253): the targets of the CHARGE codes [mV] and the LSB [mA]. -/
structure Plan where
  main : Nat
  recover : Nat
  maintain : Nat
  equalise : Nat
  lsb : Nat
deriving DecidableEq, Repr

/-- The part of a charge machine that a computation decides (R242 to R248, R255): times in us, charge in mA x us. -/
structure ChargeMachine where
  phase : ChargePhase
  reason : HaltReason
  entered : Nat
  /-- The phase before, whose last epoch ends where this one begins (R244, R245). -/
  prior : ChargePhase
  phaseTime : Nat
  totalTime : Nat
  resumeTime : Nat
  iRamp : Nat
  /-- Consecutive computations that met the phase's first and second condition. -/
  twiceA : Nat
  twiceB : Nat
  topUp : Bool
  qRef : Int
  qRefCount : Nat
  qLast : List Int
  accepted : Int
  completed : Nat
  sinceEqualise : Nat
  equaliseDue : Bool
deriving DecidableEq, Repr

/-- A strand on this die. `body` is its record (Table 10-2), which only the home die holds; `plan` is held by every die
that serves it. -/
structure Strand where
  body : Option (List Byte)
  mach : ChargeMachine
  /-- R242: the state decided for the next boundary; none where a command has acted on the strand since (R259). -/
  next : Option ChargeMachine
  /-- R254: the limits that entered at a boundary, those received since, the epochs since, and whether they are fresh. -/
  bms : Option Bms
  bmsNew : Option Bms
  bmsAge : Nat
  bmsFresh : Bool
  /-- R255: entries with a start failure; entries out for a lost worker. -/
  startFail : BitVec 16
  lostMask : BitVec 16
  counted : BitVec 16
  /-- Entries that a CHARGE code names, newest computation first; entries whose latest telemetry showed a running
  lane. -/
  charged : List (BitVec 16)
  running : BitVec 16
  /-- R282: entries that have reversed and have been given neither a BOOST field nor a charge code with a source closed since. -/
  reversed : BitVec 16
  /-- R253: the plan in force on this die, the changes on their way to it, the plan last decided, the workers that have not
  accepted it, and whether it lowers a target. -/
  plan : Option Plan
  /-- R252: the drop resistance ceiling [uOhm] and the compensation maximum [0.01%] of the record that this die holds for the
  strand, where that record enables drop compensation. -/
  dropSet : Option (Nat × Nat)
  planNext : List (Nat × Plan)
  planSent : Option Plan
  planOwed : List Nat
  /-- The dies that hold a plan, each with the epoch at which it applies where that lies ahead. -/
  holders : List (Nat × Option Nat)
  planLowers : Bool
  /-- R253: the workers whose acceptance of a lowered target holds the strand's currents at 0; a record whose plan is still to be decided. -/
  planHold : List Nat
  planNew : Bool
  demand : Nat
  share : Nat
  /-- Strand limits, newest computation first. -/
  limits : List Nat
  current : Int
  /-- The strand current of the latest computation [mA] (R245). -/
  currentNow : Int
  vs : Option Nat
  tempKnown : Bool
  /-- R261: the STRAND_STATUS reply as it stood at the latest boundary. -/
  shown : List Byte
deriving DecidableEq, Repr

/-- Charging: the strands, and whether auto-start has been done since the reset (R256). -/
structure Charge where
  strands : List Strand
  autoStarted : Bool
deriving DecidableEq, Repr

/-! ### PENDANT (12) -/

/-- PHASE of Table 12-6. -/
inductive PendPhase where
  | idle | slewing | settling
deriving DecidableEq, Repr

/-- PENDANT (Tables 12-6 to 12-9). -/
structure Pendant where
  body : Option (List Byte)
  phase : PendPhase
  /-- The stored setpoint [mV] and its slew code. -/
  stored : Bool
  target : Nat
  slew : Nat
  /-- R298: the present reference [mV], none where no transition has run since the reset; the slew code of the transition in progress, which
  no certificate changes (R305), and its SEQ. -/
  ref : Option Nat
  rate : Nat
  seqNo : Nat
  lastSeq : Nat
  /-- LAST_END: 0 none, 1 DONE, 2 SUPERSEDED, 3 ABANDONED. -/
  lastEnd : Nat
  /-- R301: PND_ALRTN is low, and the ending that drove it low, coded as LAST_END. -/
  alert : Bool
  alertEnd : Nat
  /-- R294, Table 12-5: the answers decided for frames, oldest first, and whether PND_DAT is low as the ready signal of the first. -/
  answers : List Nat
  ready : Bool
  discarded : Nat
  naks : Nat
  rejs : Nat
  superseded : Nat
deriving DecidableEq, Repr

/-! ### CLASP (14) -/

/-- Table 14-3. -/
inductive PortMode where
  | unattached | attachWait | trySource | tryWaitSink | attachedSource | attachedSink | transition | hold | recovery
deriving DecidableEq, Repr

/-- What both lines of a port present (R339). -/
inductive Term where
  | opened | source | sink
deriving DecidableEq, Repr

/-- The bands of R340. -/
inductive Band where
  | low | mid | high
deriving DecidableEq, Repr

/-- A message (Tables 14-5 and 14-6): type code, sequence, sequence answered, payload. -/
structure ClaspMsg where
  type : Nat
  seqNo : Nat
  answers : Nat
  payload : List Byte
deriving DecidableEq, Repr

/-- A message that a port sends: waiting for the line, under transmission, stopped by a collision, or awaiting its answer. -/
inductive SendState where
  | waiting | sending | collided | sent
deriving DecidableEq, Repr

structure Outgoing where
  msg : ClaspMsg
  state : SendState
  resends : Nat
deriving DecidableEq, Repr

/-- The steps of a jumper-supply swap (R354). -/
inductive Swap where
  | none | asked | supplying | handing
deriving DecidableEq, Repr

/-- A Clasp port. -/
structure Port where
  body : Option (List Byte)
  mode : PortMode
  /-- Table 14-2: the role preference in force, which a CLASP_DETACH may replace (R356). -/
  pref : Nat
  term : Term
  bandA : Band
  bandB : Band
  /-- R344. -/
  spent : Bool
  fromTry : Bool
  /-- R341: the active line is B; MID on both lines; an end conflict. -/
  endB : Bool
  conflict : Bool
  endConflict : Bool
  /-- R346: the port exports. -/
  exporter : Bool
  /-- R349: the granted contract current [mA] and whether it is suspended (R346); the contract slew [V/ms]; the request
  sent, or wanted by the host. -/
  grant : Option Nat
  suspended : Bool
  slew : Nat
  request : Option (List Byte)
  /-- R349: the CAPS last sent, the partner's latest CAPS, and that it came since HOLD was entered. -/
  capsSent : List Byte
  caps : Option (List Byte)
  capsSinceHold : Bool
  /-- R348: the message that the port sends, those waiting behind it, its own sequence, and the answers it has given
  to the partner's latest sequence. -/
  out : Option Outgoing
  queue : List ClaspMsg
  seqNo : Nat
  answered : Option ClaspMsg
  /-- The answer to the partner's latest message, where it has not left yet; its leaving enters TRANSITION (R349). -/
  answerState : Option SendState
  entersOnSend : Bool
  /-- R353. -/
  silent : Bool
  /-- R354: this end holds the jumper-supply role; the partner does; the swap in progress. -/
  js : Bool
  jsPartner : Bool
  swap : Swap
  /-- R357: the epoch in which the transition began. R350: READY has been sent. -/
  transEpoch : Nat
  readySent : Bool
  /-- R350: the exporter's tie is wanted closed. -/
  wanted : Bool
  /-- R356: the lines are released, in DETACHED_RECOVERY. -/
  released : Bool
  /-- R344: when the present half of a DUAL port's toggling began [ticks]. -/
  halfAt : Nat
  /-- R349: CAPS is due for an entry into HOLD. R354: the sequence of the READY that ends a swap, 0 for none. -/
  capsDue : Bool
  swapReady : Nat
deriving DecidableEq, Repr

/-- CLASP (Tables 14-9 to 14-11): front port, then rear port. -/
structure Clasp where
  ports : List Port
  badMsg : Nat
  resends : Nat
  collisions : Nat
  pulled : Nat
deriving DecidableEq, Repr

/-! ### MEAS (15) -/

/-- An accumulator (R371, R372). -/
structure Acc where
  sum : Nat
  count : Nat
  discards : Nat
  saturated : Bool
  /-- The count saturated in the epoch in progress (R381). -/
  satNew : Bool
  running : Bool
deriving DecidableEq, Repr

/-- A tracker (R373): empty while its minimum exceeds its maximum. -/
structure Trk where
  min : Nat
  max : Nat
  running : Bool
deriving DecidableEq, Repr

/-- A Cameo snapshot (R375) with the gains of its entries. -/
structure Snap where
  epoch : Nat
  accs : List (Acc × Nat)
  trks : List (Trk × Nat)
deriving DecidableEq, Repr

/-- The counts of a converter over an epoch (MEAS_TABLE_STATUS). -/
structure AdcCount where
  passes : Nat
  unreached : Nat
  conversions : Nat
  discards : Nat
  idle : Nat
deriving DecidableEq, Repr

/-- A converter and its table (R364 to R369). -/
structure Adc where
  body : Option (List Byte)
  /-- The table waits for its first boundary (R378). -/
  started : Bool
  stopped : Bool
  entry : Nat
  sample : Nat
  /-- Conversions of the sample in progress and their sum. -/
  convs : Nat
  part : Nat
  /-- Discards left before the entry's first sample; the entry has begun. -/
  discards : Nat
  begun : Bool
  /-- The latest conversion: channel, gain code, filter code; none before the first (R367). -/
  last : Option (Nat × Nat × Nat)
  /-- The CLK_ADC cycle, from the start edge, at which the next conversion starts, and the delay of the
  entry left to run. -/
  cycle : Nat
  delay : Nat
  now : AdcCount
  ended : AdcCount
deriving DecidableEq, Repr

/-- MEAS (Tables 15-7 to 15-15). -/
structure Meas where
  adcs : List Adc
  accs : List Acc
  trks : List Trk
  newest : Option Snap
  view : Option Snap
  hold : Bool
  modes : Option (List Byte)
  calDone : Bool
  throttled : Bool
deriving DecidableEq, Repr

/-! ### THERM (16) -/

/-- The flags of a scheme (R383). -/
structure Levels where
  warning : Bool
  throttle : Bool
  shutdown : Bool
deriving DecidableEq, Repr

/-- An external channel (R392). -/
structure ExtCh where
  reading : Option Int
  unknown : Nat
  levels : Levels
deriving DecidableEq, Repr

/-- The thermal state of a boundary (R387): levels of the junction, the channels and the strands. -/
structure ThermState where
  junction : Nat
  ext : List Nat
  strands : List Nat
deriving DecidableEq, Repr

/-- THERM (Tables 16-6 to 16-9). `readings` and `ok` are those of the latest read. -/
structure Therm where
  body : Option (List Byte)
  readings : List Int
  ok : BitVec 8
  hottest : Nat
  reading : Option Int
  haveRead : Bool
  levels : Levels
  /-- PEAK: nothing before the first valid read, then a reading, or unknown where THERM_PEAK_CLEAR made it so. -/
  peak : Option (Option Int)
  reads : Bool
  /-- A read has completed since the block last started (R385). -/
  started : Bool
  ext : List ExtCh
  batt : List Levels
  frozen : ThermState
  inForce : ThermState
  /-- Table 16-3 step 6: reads below the release level in a row, while the shutdown holds. -/
  coolReads : Nat
  shutdown : Bool
deriving DecidableEq, Repr

/-! ### The whole state -/

/-- The state of one die. `pending` is the queue of waiting commands, first in, first out; `freeCtr` counts the free
values taken (the model's own field). -/
structure State where
  sys : Sys
  otp : Otp
  flash : Flash
  geode : Geode
  cmd : Cmd
  time : Time
  wdg : Wdg
  memi : Memi
  conv : Conv
  prot : Prot
  path : Path
  slolos : Slolos
  charge : Charge
  pendant : Pendant
  clasp : Clasp
  meas : Meas
  therm : Therm
  pending : List Instr
  freeCtr : Nat
deriving DecidableEq, Repr


/-! ### Reset values -/

def Ram.reset : Ram :=
  { ceiling := 64, intervalMs := 10, leakTicks := 0, count := 0, overflows := 0, corrected := 0, overflowed := false,
    epOverflows := 0, total := 0, scrubAt := 0, errors := [] }

def Timer.reset : Timer :=
  { source := 0, armed := false, wakeEn := false, eventEn := false, capSel := 0, edge := 0, filter := 0, count := 0,
    period := 0xFFFFFFFF, compare := 0, interval := 0, captures := [], catchup := 0, capOvf := 0, epMatches := 0,
    epLate := 0, epDrops := 0, latched := none, capturedAt := none }

def LaneEpoch.empty : LaneEpoch :=
  { frames := 0, sumI := 0, peakI := 0, sumD := 0, peakD := 0, sumP := 0, bursts := 0, brakes := 0, bound := 0,
    skipped := 0, atDmax := false, blocked := false, tuned := false, legsChanged := false, reversed := false }

def Tuning.reset : Tuning :=
  { mode := 0, window := 8, seq := 1, done := 0, disturbed := false, target := 0, sums := List.replicate 64 0,
    frozen := List.replicate 64 0, begun := false, outcome := none, signs := [] }

/-- A lane without a profile (R166). -/
def Lane.reset : Lane :=
  { body := none, mode := .unconfigured, fn := .charge, legs := 0, newLegs := none, period := 0, newPeriod := none,
    extended := false, brakeTime := 0, brakeThreshold := 0, burstThreshold := 0, burstLength := 0, burstBand := 0,
    buck := [], boost := [], host := none, plan := none, fieldCode := 0, share := none, linkHold := 0,
    rotCount := 0, rotFirst := 0, stepping := false, phaseLock := none, lockSet := false, nextAt := 0, extra := 0, stopped := none, startOffset := 0, frames := 0, rt := 0, rc := 0,
    r := 0, u := 0, uCode := 0, uHist := [0, 0, 0], eHist := [0, 0, 0, 0], current := 0, vStart := 0, lowsHeld := false,
    awaitDecim := false, lowFrames := 0, burstLeft := 0, sleeping := false, wake := false, wakeRegulate := false,
    brakeHold := 0, reversal := none, lowLink := 0, autoReversed := false, failedReversals := 0, retries := 0,
    hiccupAt := 0, stopAtRelease := false, shortCount := 0, limitAct := false,
    tuning := Tuning.reset, lastBound := 0, lastFrames := 0, impedance := none, drop := 0, reversedAt := 0, ep := LaneEpoch.empty,
    closed := List.replicate 24 0, sticky := 0 }

def Leg.reset : Leg :=
  { drive := .low, trim := 0, duty := 0, prev := 0, due := false, left := 0, latched := 0, tOn := 0, highOmitted := false,
    lowOmitted := false, lowHeldOff := false, lowOnAt := 0, lowOffAt := 0 }

def Decimator.reset : Decimator := { seen := 0, newest := none, sum := 0, num := 0 }

def Echo.empty : Echo :=
  { opened := false, count := 0, first := 0, last := 0, epochs := 0, closed := 0, live := 0,
    side := List.replicate 64 0, changed := false }

def Chan.reset : Chan :=
  { body := none, state := .disabled, drv := false, fb := false, welded := false, retries := 0, openSeen := false,
    integ := 0, aboveTicks := 0, lastSample := 0, ocPending := false, revPending := false, ovPending := false, trips := 0,
    delayUs := 0, delayOn := false, qualify := 0, wanted := false }

def ChanSeen.reset : ChanSeen := { state := .disabled, welded := false, retryDue := false, retries := 0 }

def TieSeen.reset : TieSeen := { sink := false, source := false, grant := none, slew := 0, exports := false }

def Ctx.absent : Ctx :=
  { state := .absent, viaA := false, wq := false, dieId := List.replicate 8 0, missed := 0, d := 0, dRev := 0xFFFF,
    lastEpoch := 0, allot := List.replicate 8 0, joining := false, age := 0, telemetry := List.replicate 112 0, arrived := none }

/-- A machine at boot: HALT IDLE (R256). -/
def ChargeMachine.reset : ChargeMachine :=
  { phase := .halt, reason := .idle, entered := 0, prior := .halt, phaseTime := 0, totalTime := 0, resumeTime := 0, iRamp := 0,
    twiceA := 0, twiceB := 0, topUp := false, qRef := 0, qRefCount := 0, qLast := [], accepted := 0, completed := 0,
    sinceEqualise := 0, equaliseDue := false }

def Strand.reset : Strand :=
  { body := none, mach := ChargeMachine.reset, next := none, bms := none, bmsNew := none, bmsAge := 0, bmsFresh := false,
    startFail := 0, lostMask := 0, counted := 0, charged := [], running := 0, reversed := 0, plan := none, dropSet := none, planNext := [],
    planSent := none, planOwed := [], holders := [], planLowers := false, planHold := [], planNew := false, demand := 0, share := 0, limits := [], current := 0, currentNow := 0,
    vs := none, tempKnown := false, shown := [] }

def Port.reset : Port :=
  { body := none, mode := .unattached, pref := 0, term := .opened, bandA := .low, bandB := .low, spent := false,
    fromTry := false, endB := false, conflict := false, endConflict := false, exporter := false, grant := none,
    suspended := false, slew := 0, request := none, capsSent := [], caps := none, capsSinceHold := false, out := none,
    queue := [], seqNo := 0, answered := none, answerState := none,
    entersOnSend := false, silent := false, js := false, jsPartner := false, swap := .none,
    transEpoch := 0, readySent := false, wanted := false, released := false, halfAt := 0, capsDue := false, swapReady := 0 }

def Acc.reset : Acc := { sum := 0, count := 0, discards := 0, saturated := false, satNew := false, running := false }

def Trk.reset : Trk := { min := 0xFFFF, max := 0, running := false }

def AdcCount.reset : AdcCount := { passes := 0, unreached := 0xFF, conversions := 0, discards := 0, idle := 0 }

def Adc.reset : Adc :=
  { body := none, started := false, stopped := false, entry := 0, sample := 0, convs := 0, part := 0, discards := 0,
    begun := false, last := none, cycle := 0, delay := 0, now := AdcCount.reset, ended := AdcCount.reset }

def Levels.none : Levels := { warning := false, throttle := false, shutdown := false }

def ExtCh.reset : ExtCh := { reading := .none, unknown := 0, levels := Levels.none }

def ThermState.none : ThermState :=
  { junction := 0, ext := List.replicate 8 0, strands := List.replicate 16 0 }

def CanCtl.reset : CanCtl := { body := none, busOff := false, reass := [], sent := 0, frame := none }

def Slot.blank : Slot := { header := [], chunks := [], part := none, complete := false, programs := 0 }

def WakeCfg.reset : WakeCfg :=
  { enable := 0, level := 0, csn := false, slolos := false, timer := false, periods := 0 }

/-- The last-fault record at its reset value: its CRC is the CRC-32C of 60 zero bytes (R79). -/
def FaultRec.reset : FaultRec :=
  { code := 0, causeBit := 0, block := 0, epoch := 0, tick := 0, seqNo := 0, detail := List.replicate 44 0,
    crc := 0x5A0B0531 }

def Cmd.reset : Cmd :=
  { inbox := [], outSpi := [], outCan0 := [], outCan1 := [], flights := [],
    routes := [0xFFFFFFFFFFFFFFFF, 0xFFFFFFFFFFFFFFFF, 0xFFFFFFFFFFFFFFFF], lost := [0, 0, 0], framing := 0, crcErr := 0,
    eventsLost := 0, winRefused := 0, lostEn := false, outEn := true, discarded := false, miso := [],
    can0 := CanCtl.reset, can1 := CanCtl.reset, due := [] }

def Time.reset : Time :=
  { sysTime := 0, epoch := 0, hasEpoch := true, tick := 0, tickLatched := 0, length := 1000, prevLength := 1000,
    wordNow := 0x40, wordLast := 0x40, domain := 0, broken := 0, boundaries := 0, latch := false, hiLatched := none, ovf := 0,
    match_ := 0, timers := List.replicate 16 Timer.reset, lfrcStep := false, debugHalt := false, policyLate := false,
    overruns := [] }

def Wdg.reset : Wdg :=
  { count := 0, prescale := 0, openTick := 100, closeTick := 500, window := none, locked := false, lockViol := false,
    clkLfrc := false, lfrcStalled := false, devClose := 0 }

def Memi.reset : Memi := { rams := List.replicate 4 Ram.reset, queueUncorr := 0, inject := none }

def Slolos.reset : Slolos :=
  { portA := .off, portB := .off, address := 0, workers := 0, topology := 0, facing := 0, enumActive := false,
    enumMode := 0, capped := false, cutOff := false, errCode := 0, errCrc := 0, errLink := 0, errDropped := 0, d := 0, dRev := 0xFFFF,
    cA := 0, cB := 0, r := 0, rRev := 0, ctxs := List.replicate 63 Ctx.absent, ringExpected := false, autoAppend := true,
    expected := 0, breaks := [], bothPorts := false, bridging := false, verifyDue := false, restoring := none, joinSeen := false, age := 0,
    entry := List.replicate 8 0, bz4 := false, heldEntry := none, misses := 0, missedFlag := false, firstAllot := false,
    marker := none, skipped := 0, sumBegun := false, allotReady := false, txA := [], txB := [],
    spentA := 0, spentB := 0 }

def Conv.reset : Conv :=
  { lanes := List.replicate 4 Lane.reset, legs := List.replicate 16 Leg.reset,
    decims := List.replicate 20 Decimator.reset }

def Prot.reset : Prot :=
  { body := none, held := 0, dfltRaw := 0, dfltLow := 0, cmpUp := 0, cmpLo := 0, flags := 0, reports := [], log := [],
    crowbars := List.replicate 4 none, echo := List.replicate 32 Echo.empty, sent := [], closing := none, shareZero := 0, overString := 0,
    overLink := 0 }

def Path.reset : Path :=
  { body := none, chans := List.replicate 6 Chan.reset, inhibit := 0, holder := .none, boosting := 0, linkTarget := 0,
    cap := 0, load := 0, budget := 0, shares := List.replicate 16 0, precharge := none, preFailed := none, peer := none, peerNew := none,
    peerAge := 0, peerStale := true, grant := 0, lastLoad := 0, changing := none, decided := none, entry := List.replicate 8 0,
    seen := List.replicate 6 ChanSeen.reset, ties := List.replicate 2 TieSeen.reset, linkDemand := 0, draw := 0,
    boostEpochs := 0, boostTold := false, bz4Map := 0, refAt := none }

def Charge.reset : Charge := { strands := List.replicate 16 Strand.reset, autoStarted := false }

def Pendant.reset : Pendant :=
  { body := none, phase := .idle, stored := false, target := 0, slew := 0, ref := none, rate := 0, seqNo := 0, lastSeq := 0, lastEnd := 0,
    alert := false, alertEnd := 0, answers := [], ready := false, discarded := 0, naks := 0, rejs := 0,
    superseded := 0 }

def Clasp.reset : Clasp :=
  { ports := List.replicate 2 Port.reset, badMsg := 0, resends := 0, collisions := 0, pulled := 0 }

def Meas.reset : Meas :=
  { adcs := List.replicate 4 Adc.reset, accs := List.replicate 64 Acc.reset, trks := List.replicate 32 Trk.reset,
    newest := none, view := none, hold := false, modes := none, calDone := false, throttled := false }

def Therm.reset : Therm :=
  { body := none, readings := List.replicate 8 0, ok := 0, hottest := 0, reading := some 0, haveRead := false,
    levels := Levels.none, peak := none, reads := false, started := false, ext := List.replicate 8 ExtCh.reset,
    batt := List.replicate 16 Levels.none, frozen := ThermState.none, inForce := ThermState.none, coolReads := 0,
    shutdown := false }

def Geode.reset : Geode :=
  { stage := .otp, wipePending := false, cert := none, certBuiltin := false, slotRunning := none, build := 0,
    clampCount := 0, lastClass := 0, discards := 0, epClamps := 0, epFirstClass := 0, epFirstOffset := 0, epDiscard := false, heldCert := none, checking := none,
    hashing := none, lcTarget := none, stalled := false }

def Triple.of (v : BitVec 4) : Triple := { a := v, b := v, c := v, noMajority := 0 }

/-- The machine right after a POR reset: every register at the value of its table; the parts whose contents the spec does
not give (OTP, flash, pin levels) at the values of the log. -/
def State.reset : State :=
  { sys :=
      { supplies := 0x1F, suppliesOk := true, nrstLow := false, trigPending := 0, held := false, trig := 0,
        trigPll := false, clk := .refCheck, pllLost := false, lfrcRun := true, lfrcTrimmed := true, refOk := false, pllRetry := 0,
        lfrcMeas := 0, mode := 0, xsel := false, role := .standalone, roleRefused := false, roleForced := false,
        ready := 0x0001, power := .run, hibernate := false, rstCause := 0x002, seen := 0x002, rstCount := 1,
        epochAtReset := 0, hint := 0, lastFault := FaultRec.reset, faultOpen := false, faultSeq := 0,
        wake := WakeCfg.reset, crossSeen := none, crossWake := none, forgetting := false, wakePins := 0, wakeLatched := false, wakeLeft := 0, hung := none, coreHung := none, safeLow := true,
        cells := none, tapOn := true, waking := false, strapsTaken := false,
        entering := none }
    otp :=
      { dieId := List.replicate 8 0, factoryTrim := List.replicate 56 0, lfrcTrim := 0, partWq := false, roleCfg := 0,
        wdgCfg := 0, wdgDevClose := 0, lcState := Triple.of 1, lcWiped := Triple.of 1, rollback := 0, vRevoked := 0,
        iProgrammed := 0, iRevoked := 0, vkeys := List.replicate 4 (List.replicate 32 0),
        ikeys := List.replicate 4 (List.replicate 32 0), eccBad := false }
    flash :=
      { slotA := Slot.blank, slotB := Slot.blank, active := .a, trial := none, session := none, lastSession := 0,
        jGen := 1, jRecs := [], jSeq := 0, jFill := 16, jOtherBlank := true, certA := .blank, certB := .blank,
        certHighest := 0, op := .none, staging := [], patch := [] }
    geode := Geode.reset
    cmd := Cmd.reset
    time := Time.reset
    wdg := Wdg.reset
    memi := Memi.reset
    conv := Conv.reset
    prot := Prot.reset
    path := Path.reset
    slolos := Slolos.reset
    charge := Charge.reset
    pendant := Pendant.reset
    clasp := Clasp.reset
    meas := Meas.reset
    therm := Therm.reset
    pending := []
    freeCtr := 0 }

end Sys2Proof.Machine
end

