-- ==== Sys2Proof/Machine/Ops.lean ====
section
/-!
DEFINITION. The named operations that the commands share: block updates, readiness, free values, reset triggers and the
last-fault record, replies and events, frames handed to the chain.
-/
namespace Sys2Proof

/-! ### Codes of the operand types -/

/-- The READY bit and window number of a block. -/
def Block.index : Block → Nat
  | .sys => 0 | .cmd => 1 | .time => 2 | .wdg => 3 | .conv => 4 | .prot => 5 | .meas => 6 | .therm => 7
  | .bezel => 8 | .slolos => 9 | .clasp => 10 | .pendant => 11 | .memi => 12 | .geode => 15

/-- The rank of an origin (R124). -/
def Origin.rank : Origin → Nat
  | .spi => 0 | .can0 => 1 | .can1 => 2 | .internal => 3

/-- The origin of a rank. -/
def Origin.ofRank : Nat → Origin
  | 0 => .spi | 1 => .can0 | 2 => .can1 | _ => .internal

/-- The interface of an origin. -/
def Origin.iface : Origin → Option Nat
  | .spi => some 0 | .can0 => some 1 | .can1 => some 2 | .internal => none

end Sys2Proof

namespace Sys2Proof.Machine

/-! ### Updates of one block -/

def State.modSys (s : State) (f : Sys → Sys) : State := { s with sys := f s.sys }
def State.modOtp (s : State) (f : Otp → Otp) : State := { s with otp := f s.otp }
def State.modFlash (s : State) (f : Flash → Flash) : State := { s with flash := f s.flash }
def State.modGeode (s : State) (f : Geode → Geode) : State := { s with geode := f s.geode }
def State.modCmd (s : State) (f : Cmd → Cmd) : State := { s with cmd := f s.cmd }
def State.modTime (s : State) (f : Time → Time) : State := { s with time := f s.time }
def State.modWdg (s : State) (f : Wdg → Wdg) : State := { s with wdg := f s.wdg }
def State.modMemi (s : State) (f : Memi → Memi) : State := { s with memi := f s.memi }
def State.modConv (s : State) (f : Conv → Conv) : State := { s with conv := f s.conv }
def State.modProt (s : State) (f : Prot → Prot) : State := { s with prot := f s.prot }
def State.modPath (s : State) (f : Path → Path) : State := { s with path := f s.path }
def State.modSlolos (s : State) (f : Slolos → Slolos) : State := { s with slolos := f s.slolos }
def State.modCharge (s : State) (f : Charge → Charge) : State := { s with charge := f s.charge }
def State.modPendant (s : State) (f : Pendant → Pendant) : State := { s with pendant := f s.pendant }
def State.modClasp (s : State) (f : Clasp → Clasp) : State := { s with clasp := f s.clasp }
def State.modMeas (s : State) (f : Meas → Meas) : State := { s with meas := f s.meas }
def State.modTherm (s : State) (f : Therm → Therm) : State := { s with therm := f s.therm }

/-! ### Free values -/

/-- Takes the next free bit. -/
def State.takeBit (s : State) : Bool × State :=
  (Config.freeBit s.freeCtr, { s with freeCtr := s.freeCtr + 1 })

/-- Takes the next free number. -/
def State.takeNat (s : State) : Nat × State :=
  (Config.freeNat s.freeCtr, { s with freeCtr := s.freeCtr + 1 })

/-- Takes the next free integer. -/
def State.takeInt (s : State) : Int × State :=
  (Config.freeInt s.freeCtr, { s with freeCtr := s.freeCtr + 1 })

/-! ### Blocks and readiness (Tables 04-5, 06-7) -/

/-- The block of a window number (Table 06-7). -/
def blockOf : Nat → Option Block
  | 0 => some .sys | 1 => some .cmd | 2 => some .time | 3 => some .wdg | 4 => some .conv | 5 => some .prot
  | 6 => some .meas | 7 => some .therm | 8 => some .bezel | 9 => some .slolos | 10 => some .clasp
  | 11 => some .pendant | 12 => some .memi | 15 => some .geode | _ => none

/-- The block's READY bit. -/
def State.isReady (s : State) (b : Block) : Bool := s.sys.ready.getLsbD b.index

/-- Sets or clears the block's READY bit. -/
def State.setReady (s : State) (b : Block) (v : Bool) : State :=
  s.modSys fun y => { y with ready := y.ready.putBit b.index v }

def State.isWorker (s : State) : Bool := s.sys.role == .worker
def State.isManager (s : State) : Bool := s.sys.role == .manager
def State.isStandalone (s : State) : Bool := s.sys.role == .standalone

/-! ### Life cycle (R91) -/

/-- Majority of three copies, bit by bit. -/
def Triple.value (t : Triple) : BitVec 4 := (t.a &&& t.b) ||| (t.a &&& t.c) ||| (t.b &&& t.c)

/-- All three copies with a bit set. -/
def Triple.program (t : Triple) (m : BitVec 4) : Triple := { t with a := t.a ||| m, b := t.b ||| m, c := t.c ||| m }

/-- The highest state bit set; SCRAPPED where a bit has no majority (R91). -/
def Triple.state (t : Triple) : LcState :=
  if t.noMajority ≠ 0 then .scrapped
  else if t.value.getLsbD 3 then .scrapped
  else if t.value.getLsbD 2 then .ret
  else if t.value.getLsbD 1 then .field
  else if t.value.getLsbD 0 then .develop
  else .blank

/-- The life-cycle state in force: SCRAPPED too where a bit of LC_WIPED has no majority, since both fields hold state bits
(R91). -/
def State.lc (s : State) : LcState := if s.otp.lcWiped.noMajority ≠ 0 then .scrapped else s.otp.lcState.state

/-- The code of LC_STATE in Table 05-4, which is also the target code of LC_ADVANCE (R113). -/
def LcState.code : LcState → Nat
  | .blank => 0 | .develop => 1 | .field => 2 | .ret => 3 | .scrapped => 4

/-- The OTP bit of a life-cycle state (Table 05-2). -/
def LcState.mask : LcState → BitVec 4
  | .blank => 0 | .develop => 1 | .field => 2 | .ret => 4 | .scrapped => 8

/-- BOOT_STAGE of Table 05-4. -/
def BootStage.code : BootStage → Nat
  | .otp => 0 | .patch => 1 | .wipe => 2 | .image => 3 | .cert => 4 | .journal => 5
  | .running => 6 | .recovery => 7 | .scrapped => 8

/-- Eupefen runs (R94). -/
def State.eupefen (s : State) : Bool := s.geode.stage == .running

/-! ### Reset triggers and the last-fault record (R76 to R79) -/

/-- CAUSE bit numbers of Table 04-7. -/
def causePor : Nat := 1
def causeBor : Nat := 2
def causePin : Nat := 3
def causeWdgExpire : Nat := 4
def causeWdgEarly : Nat := 5
def causeWdgClkmon : Nat := 6
def causeGeodeSafe : Nat := 7
def causeSoft : Nat := 8
def causeChain : Nat := 9
def causeHibWake : Nat := 10
def causeThermal : Nat := 11

/-- VAON is above its threshold, so the always-on domain is powered. -/
def State.powered (s : State) : Bool := s.sys.supplies.getLsbD 0

/-- A reset trigger: it merges with a reset that is held, and is recognised by RESET_ENTRY otherwise (R76, R77). -/
def State.trigger (s : State) (bit : Nat) : State :=
  if s.sys.held then s.modSys fun y => { y with trig := y.trig.putBit bit true }
  else s.modSys fun y => { y with trigPending := y.trigPending.putBit bit true }

/-- Bytes 0x00 to 0x3B of the last-fault record (Table 04-14). -/
def FaultRec.body (r : FaultRec) : List Byte :=
  [r.code, r.causeBit] ++ le 2 r.block ++ le 4 r.epoch ++ le 4 r.tick ++ le 4 r.seqNo ++ (r.detail ++ zeros 44).take 44

/-- The record with its CRC recomputed. -/
def FaultRec.seal (r : FaultRec) : FaultRec := { r with crc := BitVec.ofNat 32 (crc32c r.body) }

/-- The record at its reset value (R79). -/
def FaultRec.clear : FaultRec :=
  { code := 0, causeBit := 0, block := 0, epoch := 0, tick := 0, seqNo := 0, detail := zeros 44, crc := 0 }

/-- Rewrites the last-fault record for an event (R79). -/
def State.recordFault (s : State) (code block : Nat) (detail : List Byte) : State :=
  s.modSys fun y =>
    { y with
      faultSeq := (y.faultSeq + 1) % 2 ^ 32
      faultOpen := true
      lastFault := FaultRec.seal
        { code := BitVec.ofNat 8 code, causeBit := 0, block := block, epoch := s.time.epoch, tick := s.time.tick,
          seqNo := (y.faultSeq + 1) % 2 ^ 32, detail := (detail ++ zeros 44).take 44, crc := 0 } }

/-- The Geode's safe state with a last-fault code of its own (R117). -/
def State.geodeSafe (s : State) (code : Nat) : State :=
  (s.recordFault code 0x0F []).trigger causeGeodeSafe

/-! ### Packets (R118 to R120, R132) -/

/-- The bytes of a packet (Table 06-1). -/
def Packet.bytes (k : Packet) : List Byte :=
  withCrc32 ([0xA7, k.flags, k.target, k.tag] ++ le 2 k.opcode ++ le 2 k.payload.length ++ le 4 k.epoch ++ k.payload)

/-- The packet that bytes spell, without any check. -/
def Packet.ofBytes (l : List Byte) : Packet :=
  { flags := getAt l 1 0, target := getAt l 2 0, tag := getAt l 3 0, opcode := fieldAt l 4 2, epoch := fieldAt l 8 4,
    payload := slice l 12 (l.length - 16) }

/-! ### Frames handed to the chain (Table 13-2) -/

/-- The bytes of a packet frame after its start character: address, origin rank, packet, CRC-32C. -/
def packetFrame (address : Nat) (o : Origin) (packet : List Byte) : List Byte :=
  withCrc32 (le 1 address ++ le 1 o.rank ++ packet)

/-- Hands a frame to SLA. -/
def State.sendA (s : State) (f : ChainFrame) : State := s.modSlolos fun y => { y with txA := y.txA ++ [f] }

/-- Hands a frame to SLB. -/
def State.sendB (s : State) (f : ChainFrame) : State := s.modSlolos fun y => { y with txB := y.txB ++ [f] }

/-- What goes on behind a frame: ABORT where the frame was cut short (R310). -/
def carriedOn (h : Harm) (f : ChainFrame) : ChainFrame := if h == .cut then .abort else f

/-- Sends upstream: on the port that faces the manager (R322, R334). -/
def State.sendUp (s : State) (f : ChainFrame) : State :=
  if s.slolos.facing == 2 then s.sendB f else s.sendA f

/-- A worker repeats a frame away from the manager (R311). -/
def State.repeatDown (s : State) (f : ChainFrame) : State :=
  if s.slolos.facing == 2 then s.sendA f else s.sendB f

/-- The manager sends downstream: on SLB, and on SLA too while a break is bridged (R334). -/
def State.sendDown (s : State) (f : ChainFrame) : State :=
  if s.slolos.bothPorts then (s.sendB f).sendA f else s.sendB f

/-! ### Host interfaces (R135) -/

/-- The waiting packets of an interface: 0 SPI, 1 CAN0, 2 CAN1. -/
def Cmd.out (c : Cmd) : Nat → List OutItem
  | 0 => c.outSpi | 1 => c.outCan0 | _ => c.outCan1

def Cmd.setOut (c : Cmd) (i : Nat) (q : List OutItem) : Cmd :=
  match i with
  | 0 => { c with outSpi := q }
  | 1 => { c with outCan0 := q }
  | _ => { c with outCan1 := q }

/-- The CAN FD controller of a number. -/
def Cmd.can (c : Cmd) : Nat → CanCtl
  | 0 => c.can0 | _ => c.can1

def Cmd.setCan (c : Cmd) (i : Nat) (x : CanCtl) : Cmd :=
  if i = 0 then { c with can0 := x } else { c with can1 := x }

/-- A controller is on: its binding record enables it (R142). -/
def CanCtl.enabled (x : CanCtl) : Bool :=
  match x.body with
  | some b => bitAt b 0 0
  | none => false

/-- CAN0_ON and CAN1_ON of Table 06-9; 0 on an SL1663-WQ (R3). -/
def State.canOn (s : State) (i : Nat) : Bool := !s.otp.partWq && (s.cmd.can i).enabled && !(s.cmd.can i).busOff

/-- The interface is ready to deliver (R135): the command engine is ready and, on CAN, the controller is on. -/
def State.ifaceReady (s : State) (i : Nat) : Bool := s.isReady .cmd && (i == 0 || s.canOn (i - 1))

/-- Events waiting on an interface. -/
def Cmd.eventCount (c : Cmd) (i : Nat) : Nat := ((c.out i).filter (·.isEvent)).length

/-- The EVENT_ROUTE mask bit of an event opcode (Table 06-12). -/
def routeBit (opcode : Nat) : Nat := (opcode - 0x7F00) / 4

/-- Puts an event on one interface, or drops and counts it (R135). -/
def Cmd.pushEvent (c : Cmd) (i : Nat) (k : Packet) (node : Nat) : Cmd :=
  if c.eventCount i < Config.eventSpace then
    c.setOut i (c.out i ++ [{ pkt := k, node := node, isEvent := true, frees := none }])
  else { c with lost := modAt c.lost i (· + 1), eventsLost := satAdd 255 c.eventsLost 1 }

/-- The event destination node of a controller (Table 06-6). -/
def CanCtl.eventNode (x : CanCtl) : Nat :=
  match x.body with
  | some b => byteAt b 6
  | none => 0

/-- Event packet of this die (R134). -/
def State.eventPacket (s : State) (opcode : Nat) (payload : List Byte) : Packet :=
  { flags := 0x10, target := BitVec.ofNat 8 s.slolos.address, tag := 0, opcode := opcode, epoch := s.time.epoch,
    payload := payload }

/-- Delivers an event on one interface where it is ready and, unless `always`, routed (R135, R117). -/
def State.deliverOn (s : State) (i : Nat) (always : Bool) (k : Packet) : State :=
  if s.ifaceReady i && (always || (getAt s.cmd.routes i 0).getLsbD (routeBit k.opcode)) then
    s.modCmd fun c => c.pushEvent i k (if i = 0 then 0 else (c.can (i - 1)).eventNode)
  else s

/-- Delivers an event on the host interfaces. -/
def State.deliver (s : State) (always : Bool) (k : Packet) : State :=
  ((s.deliverOn 0 always k).deliverOn 1 always k).deliverOn 2 always k

/-- A worker with an address sends its events upstream (R134, R319). -/
def State.eventUp (s : State) (k : Packet) : State :=
  if s.isWorker && s.slolos.address ≠ 0 then
    s.sendUp (.packet (packetFrame s.slolos.address .spi k.bytes))
  else s

/-- Sends an event of this die at once. -/
def State.event (s : State) (opcode : Nat) (payload : List Byte) : State :=
  (s.deliver false (s.eventPacket opcode payload)).eventUp (s.eventPacket opcode payload)

/-- Queues an event for the next boundary. -/
def State.dueEvent (s : State) (opcode key : Nat) (payload : List Byte) : State :=
  s.modCmd fun c => { c with due := c.due ++ [{ opcode := opcode, key := key, payload := payload }] }

/-- Queues an event of which the epoch sends the first only, per opcode and key. -/
def State.dueFirst (s : State) (opcode key : Nat) (payload : List Byte) : State :=
  if s.cmd.due.any (fun d => d.opcode == opcode && d.key == key) then s else s.dueEvent opcode key payload

/-- Queues an event of which the epoch sends the latest only, per opcode and key. -/
def State.dueLatest (s : State) (opcode key : Nat) (payload : List Byte) : State :=
  s.modCmd fun c =>
    { c with due := (c.due.filter fun d => !(d.opcode == opcode && d.key == key)) ++
        [{ opcode := opcode, key := key, payload := payload }] }

/-- Once event space returns, one EVENTS_LOST event carries the count (R135). -/
def State.eventsLost (s : State) (i : Nat) : State :=
  if getAt s.cmd.lost i 0 ≠ 0 && s.cmd.eventCount i < Config.eventSpace then
    s.modCmd fun c =>
      { c.pushEvent i (s.eventPacket 0x7F00 (le 4 (getAt c.lost i 0)))
          (if i = 0 then 0 else (c.can (i - 1)).eventNode) with lost := setAt c.lost i 0 }
  else s

/-! ### Commands in flight (R124, R125) -/

def State.findFlight (s : State) (k : FlightKey) : Option Flight := s.cmd.flights.find? (fun f => f.key == k)

def State.dropFlight (s : State) (k : FlightKey) : State :=
  s.modCmd fun c => { c with flights := c.flights.filter (fun f => !(f.key == k)) }

def State.modFlight (s : State) (k : FlightKey) (g : Flight → Flight) : State :=
  s.modCmd fun c => { c with flights := c.flights.map (fun f => if f.key == k then g f else f) }

/-- Internal tags in flight (R125). -/
def Cmd.tags (c : Cmd) : Nat := c.flights.length

/-- The command holds an entry in queue `k`: its target's, or, for a broadcast, queue 0 and those of the workers that were enumerated
when it was accepted (R125). -/
def Flight.holds (f : Flight) (k : Nat) : Bool := f.target == k || f.queues.contains k

/-- Entries held in queue `k`. -/
def Cmd.depth (c : Cmd) (k : Nat) : Nat := (c.flights.filter (fun f => f.holds k)).length

/-- A reply (R132): an unscheduled command's carries the epoch in which the command executed. -/
def State.replyPacket (s : State) (f : Flight) (payload : List Byte) : Packet :=
  { flags := 0x80 ||| (f.flags &&& 0x60), target := BitVec.ofNat 8 s.slolos.address, tag := BitVec.ofNat 8 f.key.tag,
    opcode := f.opcode, epoch := if f.sched then f.epoch else f.accEpoch, payload := payload }

/-- Sends a packet back to the origin of a command: upstream where a chain frame carried the command, to the host
interface otherwise. A reply to the die's own Eupefen stays inside. -/
def State.sendBack (s : State) (f : Flight) (k : Packet) (frees : Option FlightKey) : State :=
  if f.key.chain then
    let b := packetFrame s.slolos.address f.key.origin k.bytes
    s.sendUp (match frees with
      | some key => .reply b key
      | none => .packet b)
  else match f.key.origin.iface with
    | some i => s.modCmd fun c =>
        c.setOut i (c.out i ++ [{ pkt := k, node := f.node, isEvent := false, frees := frees }])
    | none => s

/-- A refusal before the command holds a tag (R121). -/
def State.refuse (s : State) (f : Flight) (answer : List Byte) : State :=
  s.sendBack f (s.replyPacket f answer) none

/-- A reply that does not end the command: ACCEPTED (R127). -/
def State.replyFirst (s : State) (f : Flight) (answer : List Byte) : State :=
  s.sendBack f (s.replyPacket f answer) none

/-- The final reply: the tag and the entry are freed once it has left the die (R124), which for the die's own Eupefen is at once. -/
def State.replyFinal (s : State) (f : Flight) (answer : List Byte) : State :=
  let s1 := s.sendBack f (s.replyPacket f answer) (some f.key)
  if !f.key.chain && f.key.origin == .internal then s1.dropFlight f.key
  else s1.modFlight f.key (fun g => { g with phase := .replied })

/-! ### Time left (R126) -/

/-- Core ticks of an epoch. -/
def State.epochTicks (s : State) : Nat := s.time.length * Config.ticksPerUs

/-- Core ticks left before the next boundary. -/
def State.ticksLeft (s : State) : Nat := s.epochTicks - s.time.tick

/-! ### Status codes of Table 06-4 -/

def stOk : Byte := 0x00
def stAccepted : Byte := 0x01
def stBusy : Byte := 0x02
def stBadCrc : Byte := 0x10
def stBadOpcode : Byte := 0x11
def stBadLength : Byte := 0x12
def stBadParam : Byte := 0x13
def stTagInUse : Byte := 0x14
def stFenced : Byte := 0x20
def stLocked : Byte := 0x21
def stTempForbidden : Byte := 0x22
def stTooLate : Byte := 0x30
def stTooEarly : Byte := 0x31
def stQueueFull : Byte := 0x32
def stNoTag : Byte := 0x33
def stTargetAbsent : Byte := 0x40
def stTargetTimeout : Byte := 0x41
def stNotReady : Byte := 0x50
def stSuperseded : Byte := 0x60
def stNotQuiescent : Byte := 0x70
def stInternal : Byte := 0xFF

/-- A mask of numbers. -/
def bitsOf (n : Nat) (l : List Nat) : BitVec n := BitVec.ofNat n (l.foldl (fun m k => m ||| 2 ^ k) 0)

end Sys2Proof.Machine
end

