-- ==== Sys2Proof/Machine/Receipt.lean ====
section
/-!
DEFINITION. The life of a command packet (06): the checks of Table 06-2, acceptance, forwarding to a worker,
broadcasts, execution, and the replies. An opcode is described by an `OpSpec`; its chapter's file gives it.
-/
namespace Sys2Proof.Machine

/-- The Scheduling column of an opcode's table. -/
inductive SchedRule where
  | unscheduled | scheduled | either
deriving DecidableEq, Repr

/-- An answer: the status byte and what follows it (R132). -/
abbrev Answer := List Byte

/-- The ACCEPTED payload (Table 06-3). -/
def acceptedPayload (f : Flight) : Answer :=
  [stAccepted, BitVec.ofNat 8 (bit f.shortLead + 2 * bit f.shortMargin)] ++ le 4 f.accEpoch

/-! ### Broadcast answers (R133) -/

/-- The status of an answer is OK or ACCEPTED. -/
def granted (a : Answer) : Bool := getAt a 0 0 == stOk || getAt a 0 0 == stAccepted

/-- The lowest-addressed refusal. -/
def lowestRefusal (l : List (Nat × Answer)) : Option (Nat × Answer) :=
  (l.filter fun x => !granted x.2).foldl
    (fun m x => match m with
      | none => some x
      | some y => if x.1 < y.1 then some x else some y) none

/-- The bitmap of the dies that refused. -/
def refusalMap (l : List (Nat × Answer)) : Nat :=
  l.foldl (fun m x => if granted x.2 then m else m ||| 2 ^ x.1) 0

/-- The manager's one answer to a broadcast stage. -/
def aggregate (f : Flight) (first : Bool) : Answer :=
  match lowestRefusal f.answers with
  | some (_, a) => a.take 1 ++ le 8 (refusalMap f.answers) ++ a.drop 1
  | none =>
    if first then
      [stAccepted] ++ le 8 0 ++ le 1 (f.answers.foldl (fun m x => m ||| byteAt x.2 1) 0) ++ le 4 f.accEpoch
    else [stOk] ++ le 8 0

/-- The dies that have accepted a scheduled broadcast. -/
def Flight.acceptors (f : Flight) : List Nat := (f.answers.filter fun x => granted x.2).map (·.1)

/-- The second stage of a scheduled broadcast: the completions of the dies that accepted it, those that have come already included. -/
def Flight.nextStage (f : Flight) : Flight :=
  { f with
    accepted := true
    awaited := f.acceptors.filter fun a => !(f.early.any fun x => x.1 == a)
    answers := f.early
    early := [] }

/-- All awaited dies have answered the stage: the aggregated answer is sent. -/
def State.closeStage (s : State) (f : Flight) : State :=
  if f.sched && !f.accepted then
    if f.acceptors.isEmpty then s.replyFinal f (aggregate f true)
    else
      let s1 := (s.replyFirst f (aggregate f true)).modFlight f.key Flight.nextStage
      if f.nextStage.awaited.isEmpty then s1.replyFinal f.nextStage (aggregate f.nextStage false) else s1
  else s.replyFinal f (aggregate f false)

/-- A die that has accepted a scheduled broadcast owes its completion while the ACCEPTED answer is still awaited from others. -/
def Flight.owes (f : Flight) (address : Nat) : Bool :=
  f.sched && !f.accepted && f.acceptors.contains address && !(f.early.any fun x => x.1 == address)

/-- One die's answer to a broadcast. -/
def State.dieAnswer (s : State) (k : FlightKey) (address : Nat) (a : Answer) : State :=
  match s.findFlight k with
  | none => s
  | some f =>
    if f.awaited.contains address then
      let g := { f with awaited := f.awaited.filter (· ≠ address), answers := f.answers ++ [(address, a)] }
      let s1 := s.modFlight k (fun _ => g)
      if g.awaited.isEmpty then s1.closeStage g else s1
    else if f.owes address then s.modFlight k fun g => { g with early := g.early ++ [(address, a)] }
    else s

/-- The command's final answer on this die. -/
def State.finish (s : State) (f : Flight) (a : Answer) : State :=
  if f.bcast then s.dieAnswer f.key 0 a else s.replyFinal f a

/-- The command's ACCEPTED answer on this die. -/
def State.answerAccepted (s : State) (f : Flight) : State :=
  if f.bcast then s.dieAnswer f.key 0 (acceptedPayload f) else s.replyFirst f (acceptedPayload f)

/-! ### Opcodes -/

/-- What a chapter gives an opcode: its number, its Scheduling column, whether R133 permits a broadcast, whether the
SL1663-WQ lacks it (R3), the block whose readiness is tested when it executes (R123), whether its handling needs
Eupefen (R435), step 13 of Table 06-2, what acceptance does, and its execution, which answers at once or leaves the
answer to a later event. -/
structure OpSpec where
  code : Nat
  sched : SchedRule
  bcast : Bool
  mqOnly : Bool := false
  block : Option Block := none
  eupefen : Bool := false
  check : State → Flight → Option Answer
  accept : State → Flight → State := State.answerAccepted
  run : State → Flight → State × Option Answer

/-- OK without data. -/
def okay (s : State) : State × Option Answer := (s, some [stOk])

/-- OK with the data of the opcode's reply column. -/
def okayWith (s : State) (data : List Byte) : State × Option Answer := (s, some (stOk :: data))

/-- A status found at execution. -/
def answer (s : State) (status : Byte) : State × Option Answer := (s, some [status])

/-- The answer comes with a later event, or never. -/
def later (s : State) : State × Option Answer := (s, none)

/-- Step 13: the payload has the table's length. -/
def needLength (f : Flight) (n : Nat) : Option Answer :=
  if f.payload.length = n then none else some [stBadLength]

/-- Step 13: a condition of the opcode's chapter. -/
def need (c : Bool) (status : Byte) : Option Answer := if c then none else some [status]

/-- The first of several checks that fails. -/
def firstOf : List (Option Answer) → Option Answer
  | [] => none
  | some a :: _ => some a
  | none :: r => firstOf r

/-! ### Execution (R66, R94, R96, R123, R435) -/

/-- The opcodes that RECOVERY accepts (R96). -/
def recoveryOpcode (c : Nat) : Bool := c < 0x10 || (0x0C00 ≤ c && c < 0x0E00)

/-- Why a command is answered NOT_READY when it executes. -/
def OpSpec.notReady (o : OpSpec) (s : State) : Bool :=
  (match o.block with
    | some b => !s.isReady b
    | none => false)
  || (o.eupefen && !s.eupefen)
  || (s.geode.stage == .recovery && !recoveryOpcode o.code)

/-- Executes a command on this die and answers it. A command that needs Eupefen is held while the application core
is stalled (R435). -/
def OpSpec.execute (o : OpSpec) (s : State) (f : Flight) : State :=
  if o.notReady s then s.finish f [stNotReady]
  else if o.eupefen && s.geode.stalled then s.modFlight f.key (fun g => { g with phase := .held })
  else match o.run s f with
    | (s1, some a) => s1.finish f a
    | (s1, none) => s1.modFlight f.key (fun g => if g.phase == .waiting then { g with phase := .working } else g)

/-! ### Checks at receipt (Table 06-2, steps 4 to 13) -/

/-- The command that a header and a payload make. -/
def mkFlight (s : State) (h : Hdr) (code : Nat) (p : List Byte) : Flight :=
  let sched := h.flags.getLsbD 6
  let d := (h.epoch + 2 ^ 32 - s.time.epoch) % 2 ^ 32
  { key := { origin := h.origin, chain := h.chain, tag := h.tag.toNat }
    node := h.node
    opcode := code
    flags := h.flags
    target := if s.isWorker then 0 else h.target.toNat
    bcast := h.flags.getLsbD 5 && !h.chain
    sched := sched
    epoch := h.epoch
    payload := p
    phase := .working
    shortLead := sched && d < 2
    shortMargin := sched && d == 1 && s.ticksLeft < 100 * Config.ticksPerUs
    accEpoch := s.time.epoch
    awaited := []
    answers := []
    accepted := false
    early := []
    queues := [] }

/-- An address that names an enumerated worker (step 6): its context is ENUMERATED or ACTIVE. -/
def State.enumerated (s : State) (k : Nat) : Bool :=
  k ≠ 0 && (match s.slolos.ctxs[k - 1]? with
    | some c => c.state == .enumerated || c.state == .active
    | none => false)

/-- The enumerated workers in address order. -/
def State.workerList (s : State) : List Nat := (List.range 64).filter s.enumerated

/-- Step 4. -/
def badHeader (h : Hdr) : Bool :=
  (h.flags &&& 0x9F) ≠ 0 || h.target.toNat ≥ 64 || h.tag.toNat ≥ 128 || h.tag == 0

/-- Step 5: a broadcast on a manager with target 0, and an opcode that R133 permits. A packet that a chain frame
carries is the manager's own copy of a broadcast (log 17). -/
def badBroadcast (o : OpSpec) (h : Hdr) (s : State) : Bool :=
  h.flags.getLsbD 5 && !h.chain && !(s.isManager && h.target == 0 && o.bcast)

/-- Step 6: the target names this die. -/
def ownTarget (h : Hdr) (s : State) : Bool :=
  h.target == 0 || (s.isWorker && s.slolos.address ≠ 0 && h.target.toNat == s.slolos.address)

/-- Step 6 fails. -/
def absentTarget (h : Hdr) (s : State) : Bool :=
  !(ownTarget h s) && !(s.isManager && s.enumerated h.target.toNat)

/-- Step 9 (R125, R329). -/
def noTag (h : Hdr) (s : State) : Bool :=
  if s.isManager then
    if h.origin == .internal then
      Config.managerInternal ≤ (s.cmd.flights.filter (·.key.origin == .internal)).length
    else
      Config.internalTags - Config.managerInternal ≤ (s.cmd.flights.filter (·.key.origin != .internal)).length
  else Config.internalTags ≤ s.cmd.tags

/-- Step 10. -/
def badScheduling (o : OpSpec) (h : Hdr) : Bool :=
  match o.sched, h.flags.getLsbD 6 with
  | .unscheduled, true => true
  | .scheduled, false => true
  | _, true => false
  | _, false => h.epoch ≠ 0

/-- Step 11 (R126, R157): the epoch window of a scheduled command. -/
def windowRefusal (h : Hdr) (s : State) : Option Answer :=
  if !h.flags.getLsbD 6 then none
  else if s.isWorker && !s.time.hasEpoch then some [stNotReady]
  else
    let d := (h.epoch + 2 ^ 32 - s.time.epoch) % 2 ^ 32
    if d = 0 || d ≥ 2 ^ 31 then some [stTooLate]
    else if d = 1 && s.ticksLeft < 10 * Config.ticksPerUs then some [stTooLate]
    else if d > 2 ^ 20 then some [stTooEarly]
    else none

/-- Step 12 (R125). -/
def queueFull (f : Flight) (s : State) : Bool :=
  if f.bcast then (0 :: s.workerList).any fun k => Config.queueEntries ≤ s.cmd.depth k
  else Config.queueEntries ≤ s.cmd.depth f.target

/-- Step 13 on this die: the life-cycle state first (a die in SCRAPPED answers LC_STATUS only, R94), then the
opcode's own checks. -/
def ownCheck (o : OpSpec) (s : State) (f : Flight) : Option Answer :=
  if s.lc == .scrapped && o.code ≠ 0x0D00 then some [stLocked] else o.check s f

/-- Steps 4 to 12 of Table 06-2: the first that fails gives the reply. -/
def receiptRefusal (o : OpSpec) (h : Hdr) (f : Flight) (s : State) : Option Answer :=
  firstOf
    [ need (!badHeader h) stBadParam,
      need (!badBroadcast o h s) stBadParam,
      need (!absentTarget h s) stTargetAbsent,
      need (!(o.mqOnly && s.otp.partWq)) stBadOpcode,
      need (!(s.cmd.flights.any fun g => g.key.origin == h.origin && g.key.tag == h.tag.toNat)) stTagInUse,
      need (!noTag h s) stNoTag,
      need (!badScheduling o h) stBadParam,
      windowRefusal h s,
      need (!queueFull f s) stQueueFull ]

/-- The command engine takes the packet out of the inbound buffer that holds it (R139). -/
def Cmd.takeInbound (c : Cmd) (h : Hdr) (code : Nat) (p : List Byte) : Cmd :=
  let b := Packet.bytes { flags := h.flags, target := h.target, tag := h.tag, opcode := code, epoch := h.epoch, payload := p }
  { c with inbox := c.inbox.erase { origin := h.origin, node := h.node, bytes := b } }

/-- A packet can reach the command engine: it is ready (R141), a SL1663-WQ receives nothing over CAN (R3), and a CAN
controller that is off or bus-off receives nothing (R142). -/
def receives (h : Hdr) (s : State) : Bool :=
  s.isReady .cmd &&
  (h.chain || match h.origin with
    | .can0 => s.canOn 0
    | .can1 => s.canOn 1
    | _ => true)

/-- A command of this die: step 13, then acceptance or execution. -/
def receiveOwn (o : OpSpec) (f : Flight) (s : State) : State :=
  match ownCheck o s f with
  | some a => s.refuse f a
  | none =>
    if f.sched then
      o.accept (s.modCmd fun c => { c with flights := c.flights ++ [{ f with phase := .waiting }] }) { f with phase := .waiting }
    else o.execute (s.modCmd fun c => { c with flights := c.flights ++ [f] }) f

/-- The bytes of the packet that a command came in, for its chain frame (R145). -/
def Flight.bytes (f : Flight) (target : Nat) : List Byte :=
  Packet.bytes { flags := f.flags, target := BitVec.ofNat 8 target, tag := BitVec.ofNat 8 f.key.tag, opcode := f.opcode,
                 epoch := f.epoch, payload := f.payload }

/-- A manager forwards a command to worker `k` (R125, R328). -/
def forward (f : Flight) (k : Nat) (s : State) : State :=
  (s.modCmd fun c => { c with flights := c.flights ++ [{ f with phase := .forwarded }] }).sendDown
    (.packet (packetFrame k f.key.origin (f.bytes k)))

/-- A manager sends a broadcast to every enumerated worker and takes its own part (R125, R133). -/
def broadcast (o : OpSpec) (f : Flight) (s : State) : State :=
  let ws := s.workerList
  let g := { f with awaited := 0 :: ws, queues := ws, phase := if f.sched then .waiting else .working }
  let s1 := s.modCmd fun c => { c with flights := c.flights ++ [g] }
  let s2 := ws.foldl (fun s k => s.sendDown (.packet (packetFrame k g.key.origin (g.bytes 0)))) s1
  match ownCheck o s2 g with
  | some a => (s2.modFlight g.key fun x => { x with phase := .forwarded }).dieAnswer g.key 0 a
  | none => if g.sched then o.accept s2 g else o.execute s2 g

/-- The receipt of a command packet: R121 from step 4 on. -/
def receive (o : OpSpec) (h : Hdr) (p : List Byte) (s0 : State) : State :=
  let s := s0.modCmd fun c => c.takeInbound h o.code p
  if !receives h s then s
  else
    let f := mkFlight s h o.code p
    match receiptRefusal o h f s with
    | some a => s.refuse f a
    | none =>
      if f.bcast then broadcast o f s
      else if ownTarget h s then receiveOwn o f s
      else forward f h.target.toNat s

/-! ### Scheduled commands at a boundary (R128) -/

/-- The order of two scheduled commands of one boundary: ascending tag, then ascending origin rank (R128). -/
def Flight.before (x y : Flight) : Bool :=
  x.key.tag < y.key.tag || (x.key.tag == y.key.tag && x.key.origin.rank ≤ y.key.origin.rank)

/-- The commands of this die that the boundary opening epoch `e` applies, in ascending tag order and, for one tag, in
ascending origin rank. -/
def Cmd.scheduledFor (c : Cmd) (e : Nat) : List Flight :=
  sortBy Flight.before
    (c.flights.filter fun f => f.phase == .waiting && f.epoch == e && (f.bcast || f.target == 0))

/-! ### Relations between records (R112) -/

/-- The configuration that a scheduled command places, as far as relations between records read it. -/
def State.place (s : State) (f : Flight) : State :=
  let k := byteAt f.payload 0
  let b := some (f.payload.drop 4)
  let mask := fun (off : Nat) => BitVec.ofNat 16 (fieldAt f.payload off 2)
  match f.opcode with
  | 0x0200 => s.modConv fun c =>
      { c with lanes := modAt c.lanes k fun l => { l with body := b, legs := mask 4, newLegs := none } }
  | 0x0209 => s.modConv fun c => { c with lanes := modAt c.lanes k fun l => { l with legs := mask 4, newLegs := none } }
  | 0x0400 => s.modCharge fun c => { c with strands := modAt c.strands k fun x => { x with body := b } }
  | 0x0500 => s.modPath fun p => { p with chans := modAt p.chans k fun c => { c with body := b } }
  | 0x0501 => s.modPath fun p => { p with body := some f.payload }
  | 0x0600 => s.modMeas fun m => { m with adcs := modAt m.adcs k fun a => { a with body := b } }
  | 0x0601 => s.modMeas fun m => { m with modes := b }
  | 0x0700 => s.modTherm fun t => { t with body := b }
  | _ => s

/-- What will be in force when a scheduled command applies, as far as the commands that wait before it say: relations between records are
judged against it at receipt (R112), and against the state itself at the boundary (R207). -/
def State.ahead (s : State) (f : Flight) : State :=
  let lead := fun (g : Flight) => (g.epoch + (2 ^ 32 - s.time.epoch)) % 2 ^ 32
  let first := fun (g h : Flight) => lead g < lead h || (lead g == lead h && g.before h)
  (sortBy first (s.cmd.flights.filter fun g => g.phase == .waiting && (g.bcast || g.target == 0) && g.sched && first g f)).foldl
    State.place s

/-- Ends waiting commands of this die with a status, in ascending tag order. -/
def State.endWaiting (s : State) (p : Flight → Bool) (status : Byte) : State :=
  (sortBy (fun x y => x.key.tag ≤ y.key.tag)
      (s.cmd.flights.filter fun f => f.phase == .waiting && (f.bcast || f.target == 0) && p f)).foldl
    (fun s f => s.finish f [status]) s

/-- Commands held while the application core was stalled are handled once it runs again (R435): the scheduled ones in the order of their
boundaries and, for one boundary, in that of R128, then the unscheduled ones in the order of their receipt. -/
def Cmd.heldFlights (c : Cmd) (now : Nat) : List Flight :=
  let l := c.flights.filter fun f => f.phase == .held
  let age := fun (f : Flight) => (now + 2 ^ 32 - f.epoch) % 2 ^ 32
  sortBy (fun x y => age y < age x || (age x == age y && x.before y)) (l.filter (·.sched)) ++ l.filter fun f => !f.sched

/-- A command that a manager has sent on to worker `k`: one of its queue, or a CANCEL that names a command there (R129). -/
def Flight.sentTo (f : Flight) (k : Nat) : Bool :=
  f.phase == .forwarded && !f.bcast && (f.target == k || (f.target == 0 && f.opcode == 0x0002 && byteAt f.payload 0 == k))

/-- A manager answers TARGET_TIMEOUT for a lost worker: the commands of queue `k` and a CANCEL sent on to it end, and its part of
every broadcast counts as refused and leaves its queue (R130, R133). -/
def State.loseQueue (s : State) (k : Nat) : State :=
  let s1 := (s.cmd.flights.filter fun f => f.sentTo k).foldl (fun s f => s.replyFinal f [stTargetTimeout]) s
  (s1.cmd.flights.filter fun f => f.queues.contains k).foldl
    (fun s f => (s.modFlight f.key fun g => { g with queues := g.queues.filter (· ≠ k) }).dieAnswer f.key k [stTargetTimeout]) s1

end Sys2Proof.Machine
end

