-- ==== Sys2Proof/Machine/MemoryIntegrity.lean ====
section
/-!
DEFINITION. Memory integrity: scrubbers, drip counters, uncorrectable errors and the commands of Table 18-7 (18).
-/
namespace Sys2Proof.Machine

def Memi.ram (m : Memi) (k : Nat) : Ram := getAt m.rams k Ram.reset

def Memi.modRam (m : Memi) (k : Nat) (f : Ram → Ram) : Memi := { m with rams := modAt m.rams k f }

/-- Words of the memory with a code (Table 18-1). -/
def ramWords : Nat → Nat
  | 0 => 262144 | 1 => 34816 | 2 => 8192 | _ => 4096

/-- Core ticks of the leak interval. -/
def Ram.leakLength (r : Ram) : Nat := r.intervalMs * 1000 * Config.ticksPerUs

/-- One correction: the counts rise; an increment above the ceiling empties the drip count and overflows (R420). -/
def Ram.correct (r : Ram) : Ram :=
  let r1 := { r with corrected := satAdd 65535 r.corrected 1, total := r.total + 1 }
  if r.count + 1 > r.ceiling then
    { r1 with count := 0, overflowed := true, overflows := satAdd 65535 r.overflows 1, epOverflows := r.epOverflows + 1 }
  else { r1 with count := r.count + 1 }

/-- One leak: -1, never below 0 (R420). -/
def Ram.leak (r : Ram) : Ram := { r with count := r.count - 1 }

/-- The leak timer moves by `k` core ticks. -/
def Ram.advance (r : Ram) (k : Nat) : Ram :=
  { r with
    count := r.count - (r.leakTicks + k) / r.leakLength
    leakTicks := (r.leakTicks + k) % r.leakLength }

/-- Time passes for the drip counters; in STANDBY the counts and their leak timers hold (R420), and a service wake changes no
retained state (R84). -/
def State.memiAdvance (s : State) (k : Nat) : State :=
  if s.sys.clk == .running && s.sys.power != .serviceWake then s.modMemi fun m => { m with rams := m.rams.map fun r => r.advance k } else s

/-- A leak interval of one memory elapses now. -/
def execDripLeak (mem : Nat) (s : State) : Host.Outcome State Fault Refusal :=
  if s.sys.clk == .running && s.sys.power != .serviceWake && !s.sys.held then
    .next (s.modMemi fun m => m.modRam mem fun r => { r.leak with leakTicks := 0 })
  else .next s

/-- The detail bytes of an uncorrectable error (R422). -/
def uncorrDetail (mem syndrome word reader drip : Nat) : List Byte :=
  le 1 mem ++ le 1 syndrome ++ zeros 2 ++ le 4 word ++ le 1 reader ++ zeros 3 ++ le 2 drip

/-- An uncorrectable error in queue RAM inside the buffer of a command in flight: the command is answered INTERNAL,
and QUEUE_UNCORR follows at the boundary (R422). -/
def State.queueUncorr (s : State) (f : Flight) : State :=
  (s.finish f [stInternal]).dueEvent 0x7FD1 0
    (le 1 f.key.origin.rank ++ le 1 f.key.tag ++ le 1 f.target ++ zeros 1 ++ le 2 f.opcode ++ zeros 2
      ++ le 4 s.time.epoch ++ le 4 s.time.tick)

/-- An uncorrectable error found in a valid word (R422). -/
def State.uncorrectable (s : State) (mem word syndrome reader : Nat) (owner : Option FlightKey) : State :=
  let record := fun (s : State) =>
    s.recordFault (0xA0 + mem) 0x0C (uncorrDetail mem syndrome word reader (s.memi.ram mem).count)
  if mem = 1 then
    let s1 := s.modMemi fun m => { m with queueUncorr := satAdd 65535 m.queueUncorr 1 }
    match owner.bind s.findFlight with
    | some f => (record s1).queueUncorr f
    | none => s1
  else (record s).trigger causeGeodeSafe

/-- Flipped bits that stand in a word. -/
def Ram.held (r : Ram) (word : Nat) : Nat := ((r.errors.filter fun e => e.1 == word).map (·.2)).sum

/-- A word now holds `n` flipped bits. -/
def Ram.mark (r : Ram) (word n : Nat) : Ram :=
  { r with errors := (r.errors.filter fun e => e.1 != word) ++ if 0 < n then [(word, n)] else [] }

/-- A whole word is written: it holds no error but those of an injection that waited for it (R416, R425). -/
def State.ramWrite (s : State) (mem word : Nat) : State :=
  let armed := s.memi.inject.filter fun x => x.1 == mem && x.2.2 == word
  s.modMemi fun m =>
    { m.modRam mem (fun r => r.mark word ((armed.map (·.2.1)).getD 0)) with inject := if armed.isSome then none else m.inject }

/-- A check of a valid word finds `n` flipped bits (R417, R420, R422). -/
def State.ramFound (s : State) (mem word n syndrome reader : Nat) (owner : Option FlightKey) : State :=
  if n = 0 then s
  else if n = 1 then s.modMemi fun m => m.modRam mem Ram.correct
  else s.uncorrectable mem word syndrome reader owner

/-- The check of a word that an access makes: a read leaves a single flip in the RAM (R417), a write of part merges the corrected word
(R416), and of a word of queue RAM that is beyond correction the valid bit is cleared (R422). -/
def State.ramCheck (s : State) (mem word flips syndrome reader : Nat) (owner : Option FlightKey) (stays : Bool) : State :=
  let n := flips + (s.memi.ram mem).held word
  (s.modMemi fun m => m.modRam mem fun r => r.mark word (if stays && n = 1 then 1 else 0)).ramFound mem word n syndrome reader owner

/-- An owner's access to a word of a memory. -/
def State.ramUse (s : State) (mem : Nat) : RamUse → State
  | .read w f y r o _ => s.ramCheck mem w f y r o true
  | .part w f y r o => s.ramCheck mem w f y r o false
  | .write w => s.ramWrite mem w

/-- An owner read of the word corrected it in the cycle of the scrubber's read: the two count once (Table 18-2). -/
def RamUse.countsWith (word : Nat) : RamUse → Bool
  | .read w _ _ _ _ t => t && w == word
  | _ => false

/-- The scrubber visits its next word and finds the flipped bits that stand there. The corrected value goes back, or where the owner has
written the word in between, the owner's value stands (R419). -/
def State.scrub (s : State) (mem flips syndrome : Nat) (owner : Option FlightKey) (rewritten counted : Bool) : State :=
  let word := (s.memi.ram mem).scrubAt
  let n := flips + (s.memi.ram mem).held word
  let s1 := s.modMemi fun m => m.modRam mem fun r => { r.mark word 0 with scrubAt := (r.scrubAt + 1) % ramWords mem }
  let s2 := if rewritten then s1.ramWrite mem word else s1
  if n = 1 && counted then s2 else s2.ramFound mem word n syndrome 1 owner

/-- The 320 ns slot of a memory: the owner's accesses go first, and from MEMI's READY on the scrubber visits its next word (R419).
Corrections on reads act from the reset end. -/
def execScrubVisit (mem : Nat) (uses : List RamUse) (found : Upset) (tagged : Option FlightKey) (rewritten : Bool) (s : State) :
    Host.Outcome State Fault Refusal :=
  if s.sys.clk == .running && !s.sys.held && mem < s.memi.rams.length then
    let s1 := uses.foldl (fun s u => if s.sys.held then s else s.ramUse mem u) s
    .next (if s.isReady .memi && !s1.sys.held then
        s1.scrub mem found.flips found.syndrome tagged rewritten (uses.any (RamUse.countsWith (s.memi.ram mem).scrubAt))
      else s1)
  else .next s

/-! ### The record and the commands (R424 to R426) -/

/-- A memory-integrity body: ceilings and leak intervals in range (R424). -/
def memiBodyOk (b : List Byte) : Bool :=
  (List.range 4).all fun k =>
    1 ≤ fieldAt b (4 * k) 2 && 1 ≤ fieldAt b (4 * k + 2) 2 && fieldAt b (4 * k + 2) 2 ≤ 10000

/-- A body in force; a count above its new ceiling becomes 0 with no overflow counted (Table 18-3). DESIGN CHOICE (log 120): the leak timer
goes on from its time modulo the new interval. -/
def Memi.config (m : Memi) (b : List Byte) : Memi :=
  { m with rams := (m.rams.zipIdx).map fun x =>
      { x.1 with
        ceiling := fieldAt b (4 * x.2) 2
        intervalMs := fieldAt b (4 * x.2 + 2) 2
        leakTicks := x.1.leakTicks % (fieldAt b (4 * x.2 + 2) 2 * 1000 * Config.ticksPerUs)
        count := if fieldAt b (4 * x.2) 2 < x.1.count then 0 else x.1.count } }

def opMemiConfig : OpSpec :=
  { code := 0x0E00, sched := .scheduled, bcast := true, block := some .memi, eupefen := true
    check := fun _ f => firstOf
      [needLength f 20, need (zeroAt f.payload 0 4 && memiBodyOk (f.payload.drop 4)) stBadParam]
    run := fun s f => okay (s.modMemi fun m => m.config (f.payload.drop 4)) }

/-- MEMI_STATUS, MEMI_DRIPk and MEMI_CORRk (Tables 18-4 to 18-6). -/
def State.memiStatus (s : State) : Nat :=
  s.memi.queueUncorr * 2 ^ 16 + (s.memi.rams.foldr (fun r a => bit r.overflowed + 2 * a) 0) * 2 ^ 8
    + bit (s.isReady .memi && s.sys.clk == .running) * 15

def Ram.dripReg (r : Ram) : Nat := r.ceiling * 2 ^ 16 + r.count

def Ram.corrReg (r : Ram) : Nat := r.overflows * 2 ^ 16 + r.corrected

def opMemiRead : OpSpec :=
  { code := 0x0E01, sched := .unscheduled, bcast := false, block := some .memi
    check := fun _ f => needLength f 0
    run := fun s _ => okayWith s
      (le 4 s.memiStatus ++ (s.memi.rams.map fun r => le 4 r.dripReg).flatten
        ++ (s.memi.rams.map fun r => le 4 r.corrReg).flatten) }

def opMemiInject : OpSpec :=
  { code := 0x0E02, sched := .unscheduled, bcast := true, block := some .memi
    check := fun s f => firstOf
      [ need (s.lc == .develop || s.lc == .ret) stLocked,
        needLength f 8,
        need (byteAt f.payload 0 < 4 && (byteAt f.payload 1 == 1 || byteAt f.payload 1 == 2) && zeroAt f.payload 2 2
          && fieldAt f.payload 4 4 < ramWords (byteAt f.payload 0)) stBadParam ]
    run := fun s f => okay (s.modMemi fun m =>
      { m with inject := some (byteAt f.payload 0, byteAt f.payload 1, fieldAt f.payload 4 4) }) }

def execMemiConfig (h : Hdr) (p : List Byte) (s : State) : Host.Outcome State Fault Refusal :=
  .next (receive opMemiConfig h p s)

def execMemiRead (h : Hdr) (p : List Byte) (s : State) : Host.Outcome State Fault Refusal :=
  .next (receive opMemiRead h p s)

def execMemiInject (h : Hdr) (p : List Byte) (s : State) : Host.Outcome State Fault Refusal :=
  .next (receive opMemiInject h p s)

/-- DRIP_OVERFLOW of the epoch that closes (R421). -/
def State.dripEvents (s : State) (closing : Nat) : State :=
  let s1 := (s.memi.rams.zipIdx).foldl (fun s x =>
    if x.1.epOverflows ≠ 0 then
      s.event 0x7FD0 (le 1 x.2 ++ le 1 (Nat.min 255 x.1.epOverflows) ++ zeros 2 ++ le 4 x.1.total ++ le 4 closing)
    else s) s
  s1.modMemi fun m => { m with rams := m.rams.map fun r => { r with epOverflows := 0 } }

end Sys2Proof.Machine
end

