-- ==== Sys2Proof/Machine/Fence.lean ====
section
/-!
DEFINITION. The limit certificate, the built-in limits and the fence's counts (05, R97 to R102), and the journal's view of
a record (R110).
-/
namespace Sys2Proof.Machine

/-! ### Journal records (R110, R112) -/

/-- The valid record of a type and instance with the highest sequence number. -/
def latestRec (l : List JRec) (type inst : Nat) : Option JRec :=
  (l.filter fun r => r.type == type && r.inst == inst && r.whole).foldl
    (fun m r => match m with
      | none => some r
      | some x => if x.seqNo < r.seqNo then some r else some x) none

/-- The pair of type and instance that a tombstone removes (R110). -/
def JRec.removes (r : JRec) (type inst : Nat) : Bool :=
  r.type == 0xF002 && r.whole && fieldAt r.body 0 2 == type && fieldAt r.body 2 2 == inst

/-- The record that boot would load: none where a later tombstone removes the pair (R110). -/
def bootRec (l : List JRec) (type inst : Nat) : Option JRec :=
  match latestRec l type inst with
  | some r => if l.any fun t => t.removes type inst && r.seqNo < t.seqNo then none else some r
  | none => none

/-- The body that boot would load. -/
def bootBody (l : List JRec) (type inst : Nat) : Option (List Byte) := (bootRec l type inst).map (·.body)

/-! ### Certificate fields (Table 05-8) -/

def certExtended (b : List Byte) : Bool := bitAt b 0x14 0
def certBoost (b : List Byte) : Bool := bitAt b 0x14 1
def certLinkMax (b : List Byte) : Nat := fieldAt b 0x18 4
def certLinkMin (b : List Byte) : Nat := fieldAt b 0x1C 4
def certVout (b : List Byte) (k : Nat) : Nat := fieldAt b (0x20 + 16 * k) 4
def certIcharge (b : List Byte) (k : Nat) : Nat := fieldAt b (0x24 + 16 * k) 4
def certIboost (b : List Byte) (k : Nat) : Nat := fieldAt b (0x28 + 16 * k) 4
/-- Lane fsw max [Hz]. -/
def certFsw (b : List Byte) (k : Nat) : Nat := 1000 * fieldAt b (0x2C + 16 * k) 2
def certChanImax (b : List Byte) (k : Nat) : Nat := fieldAt b (0x60 + 8 * k) 4
def certChanVmax (b : List Byte) (k : Nat) : Nat := fieldAt b (0x64 + 8 * k) 4
def certSource (b : List Byte) (k : Nat) : Nat := fieldAt b (0x90 + 4 * k) 4
def certPendant (b : List Byte) : Nat := fieldAt b 0xA0 4
def certSlew (b : List Byte) : Nat := byteAt b 0xA4
def certCv (b : List Byte) : Nat := fieldAt b 0xA6 2
def certWindow (b : List Byte) (chem : Nat) : Int × Int :=
  (sfieldAt b (0xA8 + 4 * chem) 2, sfieldAt b (0xAA + 4 * chem) 2)
def certCoeff (b : List Byte) (i : Nat) : Int × Int := (sfieldAt b (0xB8 + 8 * i) 4, sfieldAt b (0xBC + 8 * i) 4)

/-- The default charge windows of Table 10-1 [0.1 C]. -/
def chemWindow : Nat → Int × Int
  | 0 => (0, 450) | 1 => (0, 550) | 2 => (-300, 550) | _ => (-200, 450)

/-- A signed 16-bit field. -/
def le2s (v : Int) : List Byte := le 2 (unsigned 16 v)

/-- The built-in limits in the layout of a certificate (Table 05-7); the coefficient bounds, which are the journal's
values, stand apart. -/
def builtinCert : List Byte :=
  zeros 0x14 ++ le 4 2 ++ le 4 60000 ++ le 4 0
    ++ ((List.range 4).map fun _ => le 4 60000 ++ le 4 20000 ++ le 4 20000 ++ le 2 500 ++ zeros 2).flatten
    ++ ((List.range 6).map fun _ => le 4 20000 ++ le 4 60000).flatten
    ++ ((List.range 4).map fun _ => le 4 20000).flatten
    ++ le 4 60000 ++ zeros 2 ++ le 2 0
    ++ ((List.range 4).map fun k => le2s (chemWindow k).1 ++ le2s (chemWindow k).2).flatten
    ++ zeros 56 ++ zeros 144

/-- The limits in force: the integrator certificate, the built-in limits in DEVELOP and RETURN, or none (R100). -/
def State.limits (s : State) : Option (List Byte) :=
  match s.geode.cert with
  | some b => some b
  | none => if s.lc == .develop || s.lc == .ret then some builtinCert else none

/-- A host value is answered FENCED beyond the limits, and always where none exist (R12, R100). -/
def fenced (s : State) (ok : List Byte → Bool) : Option Answer :=
  match s.limits with
  | some b => need (ok b) stFenced
  | none => some [stFenced]

/-- A limit, or `v` itself where no limits exist (R100: writes by Eupefen pass unchanged). -/
def State.limitOr (s : State) (v : Nat) (f : List Byte → Nat) : Nat :=
  match s.limits with
  | some b => Nat.min v (f b)
  | none => v

/-- BOOST is permitted. -/
def State.boostPermitted (s : State) : Bool :=
  match s.limits with
  | some b => certBoost b
  | none => false

/-- The bounds of coefficient `i` of a set of a lane: the certificate's, or the built-in ones, which are the lane
profile's journal value (Table 05-7). -/
def State.coeffBounds (s : State) (lane set i : Nat) : Option (Int × Int) :=
  match s.geode.cert with
  | some b => some (certCoeff b i)
  | none =>
    if s.lc == .develop || s.lc == .ret then
      (bootBody s.flash.jRecs 0x0010 lane).map fun b =>
        (sfieldAt b (0x40 + 28 * set + 4 * i) 4, sfieldAt b (0x40 + 28 * set + 4 * i) 4)
    else none

/-- A coefficient set lies within its bounds. DESIGN CHOICE (log 103): where the built-in limits apply and the journal holds no record
of the lane, no bound exists and no set is within it. -/
def State.coeffsOk (s : State) (lane set : Nat) (l : List Int) : Bool :=
  (l.zipIdx).all fun x => match s.coeffBounds lane set x.2 with
    | some (lo, hi) => lo ≤ x.1 && x.1 ≤ hi
    | none => false

/-! ### Clamps (R97, R99) -/

/-- Counts `n` clamps of a class. The register offset of the first clamp of an epoch is open: the spec gives the actuator registers no
offsets (log 31). -/
def State.countClamps (s : State) (cls n : Nat) : State :=
  if n = 0 then s
  else
    let o := if s.geode.epClamps = 0 then (Config.openInt 4 [cls, s.time.epoch]).toNat else s.geode.epFirstOffset
    s.modGeode fun g =>
      { g with
        clampCount := satAdd 65535 g.clampCount n
        lastClass := cls
        epClamps := g.epClamps + n
        epFirstClass := if g.epClamps = 0 then cls else g.epFirstClass
        epFirstOffset := o % 65536 }

/-- A value written by Eupefen, brought into the range that the limits give (R97); values pass unchanged where no limits
exist (R100). -/
def State.clampTo (s : State) (cls : Nat) (v : Int) (range : List Byte → Int × Int) : Int × State :=
  match s.limits with
  | some b =>
    let w := clampInt (range b).1 (range b).2 v
    (w, if w = v then s else s.countClamps cls 1)
  | none => (v, s)

/-- A value with an upper limit only. -/
def State.clampMax (s : State) (cls v : Nat) (f : List Byte → Nat) : Nat × State :=
  let (w, s1) := s.clampTo cls v fun b => (0, f b)
  (w.toNat, s1)

/-- The classes of a coefficient (R98): each into its range. -/
def State.clampCoeff (s : State) (lane set i : Nat) (v : Int) : Int × State :=
  match s.coeffBounds lane set i with
  | some r =>
    let w := clampInt r.1 r.2 v
    (w, if w = v then s else s.countClamps 8 1)
  | none => (v, s)

/-- GEODE_FENCE (Table 05-6). -/
def Geode.fenceReg (g : Geode) : Nat := g.clampCount * 2 ^ 16 + g.lastClass * 2 ^ 8 + g.discards

/-- FENCE_CLAMP of the epoch that closes (R11, R99). -/
def State.fenceEvent (s : State) (closing : Nat) : State :=
  if s.geode.epClamps ≠ 0 || s.geode.epDiscard then
    (s.event 0x7F10 (le 4 closing ++ le 4 s.geode.epClamps ++ le 1 s.geode.epFirstClass ++ zeros 1
      ++ le 2 s.geode.epFirstOffset)).modGeode fun g => { g with epClamps := 0, epFirstClass := 0, epFirstOffset := 0, epDiscard := false }
  else s

end Sys2Proof.Machine
end

