-- ==== Sys2Proof/Machine/Gates.lean ====
section
/-!
DEFINITION. Shared operations of the lanes, the protection records and the Bezel channels: gate levels, lane modes,
fault classes, HICCUP, the over-voltage action, and the opening of a channel (08, 09, 11).
-/
namespace Sys2Proof.Machine

/-! ### Lanes and legs -/

/-- Mode codes of Table 08-6. -/
def LaneMode.code : LaneMode → Nat
  | .off => 0 | .softstart => 1 | .regulate => 2 | .burst => 3 | .brake => 4 | .crowbar => 5 | .hiccup => 6
  | .latched => 7 | .unconfigured => 15

/-- Function codes of Tables 08-14 and 08-16. -/
def LaneFn.code : LaneFn → Nat
  | .charge => 0 | .boost => 1 | .bus => 2

/-- The modes in which the gates run. -/
def LaneMode.running : LaneMode → Bool
  | .softstart | .regulate | .burst | .brake => true
  | _ => false

/-- The protection modes. -/
def LaneMode.protection : LaneMode → Bool
  | .crowbar | .hiccup | .latched => true
  | _ => false

def Conv.lane (c : Conv) (k : Nat) : Lane := getAt c.lanes k Lane.reset
def Conv.leg (c : Conv) (n : Nat) : Leg := getAt c.legs n Leg.reset
def Conv.decim (c : Conv) (n : Nat) : Decimator := getAt c.decims n Decimator.reset
def State.lane (s : State) (k : Nat) : Lane := s.conv.lane k

def State.modLane (s : State) (k : Nat) (f : Lane → Lane) : State :=
  s.modConv fun c => { c with lanes := modAt c.lanes k f }

/-- The lane is OFF. -/
def laneIsOff (l : Lane) : Bool := l.mode == .off || l.mode == .unconfigured

/-- Applies a function to the legs of a mask. -/
def State.modLegs (s : State) (m : BitVec 16) (f : Leg → Leg) : State :=
  s.modConv fun c => { c with legs := (c.legs.zipIdx).map fun x => if m.getLsbD x.2 then f x.1 else x.1 }

/-- A field of the lane's profile (Table 08-9). -/
def Lane.prof (l : Lane) (off len : Nat) : Nat :=
  match l.body with
  | some b => fieldAt b off len
  | none => 0

/-- The lane of which a leg is an active leg. -/
def Conv.laneOfLeg (c : Conv) (n : Nat) : Option Nat :=
  (List.range c.lanes.length).find? fun k => (c.lane k).legs.getLsbD n

/-- Active legs N. -/
def Lane.count (l : Lane) : Nat := l.legs.ones

/-- All gates of a lane low. -/
def State.gatesLow (s : State) (k : Nat) : State :=
  s.modLegs (s.lane k).legs fun g => { g with drive := .low, lowHeldOff := false }

/-- Legs of a mask complete the pulse that they have started and then stay low (R179, R209). -/
def State.endPulses (s : State) (m : BitVec 16) : State :=
  s.modLegs m fun g => { g with drive := if g.drive == .pulses then .ending else .low, due := false, lowHeldOff := false }

/-- A mode transition that LANE_MODE reports (R210). -/
def reportedMode (o n : LaneMode) : Bool :=
  let three := fun m => m == LaneMode.off || m == .softstart || m == .regulate
  o != n && (three o || three n) && !n.protection
    && !(o == .regulate && (n == .burst || n == .brake)) && !((o == .burst || o == .brake) && n == .regulate)

/-- Queues LANE_MODE for the closing boundary: the first transition of the epoch (R210). -/
def State.modeEvent (s : State) (k : Nat) (o n : Nat) : State :=
  s.dueFirst 0x7F30 k (le 1 k ++ le 1 o ++ le 1 n ++ zeros 1 ++ le 4 s.time.epoch ++ le 4 s.time.tick)

/-- The Pendant record's mode and lane mask (Table 12-1). -/
def Pendant.mode (p : Pendant) : Nat :=
  match p.body with
  | some b => byteAt b 0
  | none => 0

def Pendant.mask (p : Pendant) : Nat :=
  match p.body with
  | some b => byteAt b 1
  | none => 0

/-- A transition of the Pendant ends: DONE 1, SUPERSEDED 2 or ABANDONED 3, with a reason (R299 to R302, R307). -/
def State.pendantEnd (s : State) (how reason : Nat) : State :=
  let p := s.pendant
  if p.phase == .idle then s
  else (s.dueEvent 0x7F70 0
      (le 1 p.seqNo ++ le 1 how ++ le 1 reason ++ zeros 1 ++ le 4 p.target ++ le 4 s.time.epoch ++ le 4 s.time.tick)).modPendant
    fun p => { p with
      phase := .idle
      lastEnd := how
      alert := p.alert || how ≠ 2
      alertEnd := if how = 2 then p.alertEnd else how
      superseded := if how = 2 then satAdd 255 p.superseded 1 else p.superseded }

/-- A lane of the BUS mask runs (R297). -/
def State.busRuns (s : State) : Bool :=
  (List.range 4).any fun k => s.pendant.mask.testBit k && (s.lane k).mode.running

/-- The stored setpoint is aimed at directly: a transition with the reference at its target (R303). -/
def State.pendantAim (s : State) : State :=
  if s.pendant.stored then
    s.modPendant fun p => { p with phase := .settling, ref := some p.target, rate := p.slew, seqNo := p.lastSeq }
  else s

/-- BUS mode follows the lanes of its mask: the first that leaves OFF while none runs aims at the stored setpoint, the last that stops
abandons a transition (R302, R303). `ran` says that one ran before, `left` that the lane was OFF. -/
def State.pendantLanes (s : State) (ran left : Bool) : State :=
  if s.pendant.mode ≠ 2 then s
  else if ran && !s.busRuns then s.pendantEnd 3 3
  else if !ran && left && s.busRuns then s.pendantAim
  else s

/-- Phase locks that name a lane as their leader end (R181). -/
def Conv.unlock (c : Conv) (k : Nat) : Conv :=
  { c with lanes := c.lanes.map fun l => if l.phaseLock.any (fun p => p.1 == k) then { l with phaseLock := none } else l }

/-- A lane changes mode. A lane that goes to OFF loses its retry count (R217), its phase locks (R181) and the zero share
of Table 09-7. -/
def State.setMode (s : State) (k : Nat) (m : LaneMode) : State :=
  let o := (s.lane k).mode
  let s1 := if reportedMode o m then s.modeEvent k o.code m.code else s
  let s2 := s1.modLane k fun l =>
    { l with
      mode := m
      retries := if m == .off || m == .regulate then 0 else l.retries
      phaseLock := if m == .off then none else l.phaseLock
      stopAtRelease := if m == .off then false else l.stopAtRelease
      reversal := if m == .regulate || m == .softstart then l.reversal else none
      sleeping := if m == .burst then l.sleeping else false }
  let s3 := if m == .off then (s2.modConv fun c => c.unlock k).modProt fun p => { p with shareZero := p.shareZero.putBit k false }
    else s2
  s3.pendantLanes s.busRuns (o == .off)

/-- A lane stops: every leg completes the pulse it has started and stays low, and the lane goes to OFF. A protection mode stands, and the
stop applies at its release (R209). -/
def State.stopLane (s : State) (k : Nat) : State :=
  let l := s.lane k
  if l.mode == .unconfigured || l.mode == .off then s
  else if l.mode.protection then s.modLane k fun l => { l with stopAtRelease := true }
  else (s.endPulses l.legs).setMode k .off

/-- A stop that no boundary carries: it is recorded with its epoch and tick (R209). -/
def State.stopNow (s : State) (k : Nat) : State :=
  (if laneIsOff (s.lane k) then s else s.modLane k fun l => { l with stopped := some (s.time.epoch, s.time.tick) }).stopLane k

/-! ### Fault classes (R226, R228, R230) -/

/-- Adds an occurrence to a local report. -/
def Report.add (r : Report) (legs : BitVec 16) (lanes : BitVec 4) : Report :=
  { r with legs := r.legs ||| legs, lanes := r.lanes ||| lanes, count := satAdd 65535 r.count 1 }

/-- A fault frame, or the die's own first report, updates the live view (R230). -/
def Echo.see (e : Echo) (epoch : Nat) (bits : BitVec 64) : Echo :=
  if e.opened then { e with live := e.live ||| bits }
  else { e with opened := true, first := epoch, last := epoch, live := e.live ||| bits }

/-- A fault frame's bytes: class, epoch, reporter bitmap, CRC-16 (Table 13-2). -/
def faultFrame (cls epoch : Nat) (bits : BitVec 64) : List Byte :=
  withCrc16 (le 1 cls ++ le 4 epoch ++ le 8 bits.toNat)

/-- The first local occurrence of a class in an epoch: a worker starts a fault frame, unless it has sent or forwarded one
of this class for this epoch (R228); a manager or a standalone die updates its live echo view (R230). -/
def State.announce (s : State) (cls : Nat) : State :=
  let e := s.time.epoch
  if s.isWorker then
    if s.slolos.address = 0 || s.prot.sent.contains (cls, e) then s
    else (s.sendUp (.fault (faultFrame cls e (BitVec.ofNat 64 (2 ^ s.slolos.address))))).modProt fun p =>
      { p with sent := p.sent ++ [(cls, e)] }
  else s.modProt fun p => { p with echo := modAt p.echo (cls - 1) fun x => x.see e 1 }

/-- Records a protection happening under its class; the first of the epoch writes the last-fault record with the code
and the detail given (R226, R269) and is announced. -/
def State.recordClassAs (s : State) (cls code : Nat) (legs : BitVec 16) (lanes : BitVec 4) (block : Nat)
    (detail : List Byte) : State :=
  let s1 := s.modProt fun p => { p with flags := p.flags.putBit (cls - 1) true }
  let same := fun (r : Report) => r.cls == cls && r.epoch == s.time.epoch
  if s1.prot.reports.any same then
    s1.modProt fun p => { p with reports := p.reports.map fun r => if same r then r.add legs lanes else r }
  else
    ((s1.modProt fun p =>
        { p with reports := p.reports ++
            [{ cls := cls, legs := legs, lanes := lanes, count := 1, epoch := s.time.epoch, tick := s.time.tick }] }).recordFault
      code block detail).announce cls

/-- The record of a class whose last-fault code is the class code. -/
def State.recordClass (s : State) (cls : Nat) (legs : BitVec 16) (lanes : BitVec 4) (block : Nat) (detail : List Byte) :
    State :=
  s.recordClassAs cls cls legs lanes block detail

/-- A field of the protection record (Table 09-9). -/
def Prot.prof (p : Prot) (off len : Nat) : Nat :=
  match p.body with
  | some b => fieldAt b off len
  | none => 0

/-- The DFLT filter time [core cycles]: 20 without a record (R231). -/
def Prot.dfltFilter (p : Prot) : Nat :=
  match p.body with
  | some b => byteAt b 0
  | none => 20

def Prot.cmpRole (p : Prot) (n : Nat) : Nat := p.prof (4 + 12 * n) 1
def Prot.cmpLane (p : Prot) (n : Nat) : Nat := p.prof (5 + 12 * n) 1
def Prot.cmpUpAct (p : Prot) (n : Nat) : Nat := p.prof (6 + 12 * n) 1
def Prot.cmpLoAct (p : Prot) (n : Nat) : Nat := p.prof (7 + 12 * n) 1
def Prot.cmpUpCode (p : Prot) (n : Nat) : Nat := p.prof (8 + 12 * n) 2
def Prot.cmpLoCode (p : Prot) (n : Nat) : Nat := p.prof (10 + 12 * n) 2
def Prot.cmpCrowbar (p : Prot) (n : Nat) : Nat := p.prof (12 + 12 * n) 2
/-- Decimator over-voltage thresholds of a lane [mV]; 0 is off. -/
def Prot.ovString (p : Prot) (k : Nat) : Nat := p.prof (0xC4 + 8 * k) 4
def Prot.ovLink (p : Prot) (k : Nat) : Nat := p.prof (0xC8 + 8 * k) 4

/-- Bit `k` of a lane mask. -/
def laneBit (k : Nat) : BitVec 4 := BitVec.ofNat 4 (2 ^ k)

/-- Bit `n` of a leg, channel or port mask. -/
def legBit (n : Nat) : BitVec 16 := BitVec.ofNat 16 (2 ^ n)

/-- The detail bytes of a class of this chapter (R226); lane or comparator 0xFF where there is none. -/
def protDetail (s : State) (lane : Option Nat) (cmp : Option Nat) (legs : BitVec 16) : List Byte :=
  le 1 (lane.getD 0xFF) ++ le 1 ((lane.map fun k => (s.lane k).fn.code).getD 0) ++ le 1 (cmp.getD 0xFF) ++ zeros 1
    ++ le 2 legs.toNat ++ zeros 2
    ++ le 2 ((cmp.map fun n => s.prot.cmpUpCode n).getD 0) ++ le 2 ((cmp.map fun n => s.prot.cmpLoCode n).getD 0)

/-- Records a class of the lanes' own protection. -/
def State.recordProt (s : State) (cls : Nat) (lane cmp : Option Nat) (legs : BitVec 16) : State :=
  s.recordClass cls legs ((lane.map laneBit).getD 0) 0x05 (protDetail s lane cmp legs)

/-! ### The thermal cap and the Pendant reference (R291, R389) -/

/-- The level set of the junction, or of external channel `c` (Tables 16-1, 16-4). -/
def Therm.junctionSet (t : Therm) : List Byte :=
  match t.body with
  | some b => slice b 0 12
  | none => le 2 1400 ++ le 2 1500 ++ le 2 1600 ++ le 2 50 ++ le 2 150 ++ le 1 50 ++ le 1 0

def Therm.extSet (t : Therm) (c : Nat) : List Byte :=
  match t.body with
  | some b => slice b (0x44 + 80 * c) 12
  | none => zeros 12

/-- Channel `c` is in use, and its lane mask. -/
def Therm.extUsed (t : Therm) (c : Nat) : Bool :=
  match t.body with
  | some b => byteAt b (0x40 + 80 * c) ≠ 0xFF
  | none => false

def Therm.extMask (t : Therm) (c : Nat) : Nat :=
  match t.body with
  | some b => byteAt b (0x41 + 80 * c)
  | none => 0

/-- The fraction f of a lane [%] (R389). -/
def Therm.fraction (t : Therm) (k : Nat) : Nat :=
  let j := if 2 ≤ t.inForce.junction then byteAt t.junctionSet 10 else 100
  (List.range 8).foldl (fun m c =>
    if t.extUsed c && (t.extMask c).testBit k then
      let n := getAt t.inForce.ext c 0
      Nat.min m (if n ≥ 3 then 0 else if n = 2 then byteAt (t.extSet c) 10 else 100)
    else m) j

/-- The lane takes the Pendant reference (R291). -/
def State.pendantLane (s : State) (k : Nat) : Bool :=
  s.pendant.stored && s.pendant.ref.isSome &&
    ((s.pendant.mode = 2 && s.pendant.mask.testBit k) || (s.pendant.mode = 1 && (s.lane k).fn == .boost))

/-! ### HICCUP and LATCHED (R215, R217) -/

/-- All gates low and HICCUP. A trip or a short raises the retry count, or latches the lane at a count of 3; a BZ4
trip raises nothing (R268). A lane in another mode is not affected. -/
def State.hiccup (s : State) (k : Nat) (raises : Bool) : State :=
  let l := s.lane k
  if !l.mode.running then s
  else if raises && l.retries ≥ 3 then
    ((s.gatesLow k).setMode k .latched).recordProt 4 (some k) none 0
  else
    ((s.gatesLow k).setMode k .hiccup).modLane k fun l =>
      { l with retries := if raises then l.retries + 1 else l.retries, hiccupAt := s.time.sysTime, shortCount := 0 }

/-! ### Bezel channels -/

def Path.chan (p : Path) (k : Nat) : Chan := getAt p.chans k Chan.reset
def State.chan (s : State) (k : Nat) : Chan := s.path.chan k

def State.modChan (s : State) (k : Nat) (f : Chan → Chan) : State :=
  s.modPath fun p => { p with chans := modAt p.chans k f }

/-- A field of the channel record (Table 11-2). -/
def Chan.prof (c : Chan) (off len : Nat) : Nat :=
  match c.body with
  | some b => fieldAt b off len
  | none => 0

/-- The channel is enabled by its record. -/
def Chan.enabled (c : Chan) : Bool := (c.prof 0 1).testBit 0

/-- Codes of Table 11-3. -/
def ChanState.code : ChanState → Nat
  | .disabled => 0 | .opened => 1 | .closing => 2 | .closed => 3 | .opening => 4 | .tripped => 5 | .lockout => 6

/-- A channel changes state; CHANNEL_STATE carries the first transition of the epoch, with its class (R288). DRV is high
in CLOSING and CLOSED only (Table 11-3). -/
def State.setChan (s : State) (k : Nat) (n : ChanState) (cls : Nat) : State :=
  let o := (s.chan k).state
  let s1 := if o == n then s else
    s.dueFirst 0x7F60 k (le 1 k ++ le 1 o.code ++ le 1 n.code ++ le 1 cls ++ le 4 s.time.epoch ++ le 4 s.time.tick)
  s1.modChan k fun c =>
    { c with
      state := n
      drv := n == .closing || n == .closed
      openSeen := if n == .opening || n == .tripped then !c.fb else c.openSeen
      delayUs := if n == .tripped then 0 else c.delayUs
      delayOn := if n == .tripped then false else c.delayOn }

/-- The lanes of BZ4's lane mask. -/
def State.bz4Lanes (s : State) : List Nat := (List.range 4).filter fun k => ((s.chan 4).prof 0x38 1).testBit k

/-- The TRIP action of R268 on the running lanes of BZ4's mask, `k` apart. -/
def State.bz4LanesTrip (s : State) (k : Option Nat) : State :=
  s.bz4Lanes.foldl (fun s j => if k == some j then s else s.hiccup j false) s

/-- The over-voltage action drives BZ4_DRV low: TRIPPED with no class, no retry and no LOCKOUT (R268). -/
def State.ovOpenBz4 (s : State) (lane : Nat) : State :=
  let c := s.chan 4
  if c.state == .closing || c.state == .closed then (s.setChan 4 .tripped 0).bz4LanesTrip (some lane) else s

/-! ### The over-voltage action (R219, R220) -/

/-- The low sides of a lane's active legs, leaving out the legs that hold a fault or were withdrawn. -/
def State.lowSidesOn (s : State) (k : Nat) : State :=
  s.modLegs ((s.lane k).legs &&& ~~~s.prot.held) fun g => { g with drive := .lowOn, lowHeldOff := false }

/-- The class of the over-voltage action of a function (Table 09-3). -/
def LaneFn.ovClass : LaneFn → Nat
  | .bus => 5 | .charge => 6 | .boost => 7

/-- The action itself, from a running mode. -/
def State.crowbar (s : State) (k : Nat) (src : OvSource) : State :=
  let l := s.lane k
  let s1 := ((s.gatesLow k).setMode k .crowbar).modLane k fun l => { l with shortCount := 0 }
  let put := fun (s : State) (waits : Bool) => s.modProt fun p =>
    { p with crowbars :=
        setAt p.crowbars k (some { source := src, fn := l.fn, waiting := waits, blanked := true, legs := l.legs }) }
  match l.fn with
  | .boost => put s1 false
  | .bus => (put s1 false).lowSidesOn k
  | .charge =>
    let waits := (s.chan 4).fb
    let s2 := (put s1 waits).ovOpenBz4 k
    if waits then s2 else s2.lowSidesOn k

/-- An over-voltage source of a lane lies beyond its threshold: it acts only on the regulated side and from a running
mode; otherwise it is recorded only (R219). -/
def State.overVoltage (s : State) (k : Nat) (src : OvSource) (linkSide : Bool) (cmp : Option Nat) : State :=
  let l := s.lane k
  let s1 := s.recordProt l.fn.ovClass (some k) cmp 0
  if linkSide == (l.fn == .boost) && l.mode.running then s1.crowbar k src else s1

/-- A leg in CROWBAR is withdrawn: its low side goes off and is held (R221). -/
def State.divert (s : State) (k n : Nat) : State :=
  ((s.modProt fun p =>
      { p with held := p.held.putBit n true }).modLegs (legBit n) fun g => { g with drive := .low }).recordProt
    9 (some k) (some n) (legBit n)

/-! ### Driver faults (R224) -/

/-- A driver fault of a leg: both gates low, the leg held off, class DRIVER_FAULT. -/
def State.driverFault (s : State) (n : Nat) : State :=
  ((s.modProt fun p =>
      { p with held := p.held.putBit n true, dfltLow := p.dfltLow.putBit n true }).modLegs (legBit n) fun g =>
    { g with drive := .low, lowHeldOff := false }).recordProt 1 (s.conv.laneOfLeg n) none (legBit n)

/-- R31: once CONV and PROT are both ready, the DFLT inputs that are low are recorded. -/
def State.armDflt (s : State) : State :=
  if s.isReady .conv && s.isReady .prot then
    (s.prot.dfltRaw.members.filter fun n => !s.prot.held.getLsbD n).foldl (fun s n => s.driverFault n) s
  else s

end Sys2Proof.Machine
end

