-- ==== Sys2Proof/Machine/ClaspPort.lean ====
section
/-!
DEFINITION. Shared operations of a Clasp port: its state, its messages, its contract and its jumper supply (14). The
Bezel guard and the couplers' own rows use them.
-/
namespace Sys2Proof.Machine

def Clasp.port (c : Clasp) (i : Nat) : Port := getAt c.ports i Port.reset
def State.port (s : State) (i : Nat) : Port := s.clasp.port i

def State.modPort (s : State) (i : Nat) (f : Port → Port) : State :=
  s.modClasp fun c => { c with ports := modAt c.ports i f }

/-- The tie channel of a port (Table 11-1). -/
def tieOf (i : Nat) : Nat := 2 + i

/-- A field of the Clasp record (Table 14-2). -/
def Port.prof (p : Port) (off len : Nat) : Nat :=
  match p.body with
  | some b => fieldAt b off len
  | none => 0

def Port.flag (p : Port) (i : Nat) : Bool := (p.prof 0 1).testBit i

/-- The port is enabled by its record (R342). -/
def Port.enabled (p : Port) : Bool := p.flag 0

/-- Codes of Table 14-3. -/
def PortMode.code : PortMode → Nat
  | .unattached => 0 | .attachWait => 1 | .trySource => 2 | .tryWaitSink => 3 | .attachedSource => 4
  | .attachedSink => 5 | .transition => 6 | .hold => 7 | .recovery => 8

/-- An attached state, TRANSITION or HOLD (R345). -/
def PortMode.attached : PortMode → Bool
  | .attachedSource | .attachedSink | .transition | .hold => true
  | _ => false

/-- The port counts as ATTACHED_SOURCE, or as ATTACHED_SINK (R346). -/
def Port.countsSource (p : Port) : Bool := p.mode.attached && p.exporter
def Port.countsSink (p : Port) : Bool := p.mode.attached && !p.exporter

/-- An accepted contract stands (R346). -/
def Port.contract (p : Port) : Bool :=
  p.grant.isSome && !p.suspended && (p.mode == .attachedSink || p.mode == .transition || p.mode == .attachedSource)

/-- A port changes state; CLASP_STATE carries the first transition of the epoch (R361). -/
def State.setPort (s : State) (i : Nat) (m : PortMode) (cause : Nat) : State :=
  let o := (s.port i).mode
  let s1 := if o == m then s else
    s.dueFirst 0x7F90 i (le 1 i ++ le 1 o.code ++ le 1 m.code ++ le 1 cause ++ le 4 s.time.epoch ++ le 4 s.time.tick)
  s1.modPort i fun p => { p with mode := m }

/-- CLASP_CONTRACT (Table 14-12); `tie` is the tie voltage [mV]. -/
def State.contractEvent (s : State) (i outcome reason tie : Nat) : State :=
  s.dueEvent 0x7F91 i (le 1 i ++ le 1 outcome ++ le 1 reason ++ zeros 1 ++ le 4 ((s.port i).grant.getD 0) ++ le 4 tie
    ++ le 4 s.time.epoch)

/-- CLASP_JS (Table 14-12): 0 none, 1 this end, 2 partner. -/
def State.jsEvent (s : State) (i : Nat) : State :=
  let p := s.port i
  s.dueEvent 0x7F92 i (le 1 i ++ le 1 (if p.js then 1 else if p.jsPartner then 2 else 0) ++ zeros 2 ++ le 4 s.time.epoch)

/-- The supplier of the jumper changes (R354). -/
def State.setJs (s : State) (i : Nat) (mine partner : Bool) : State :=
  let p := s.port i
  if p.js == mine && p.jsPartner == partner then s
  else (s.modPort i fun p => { p with js := mine, jsPartner := partner }).jsEvent i

/-- The next sequence, 1 to 15. -/
def nextSeqNo (n : Nat) : Nat := n % 15 + 1

/-- A message goes to the line, or waits behind the one that is being sent (R348). -/
def Port.put (p : Port) (type : Nat) (payload : List Byte) : Port :=
  let n := nextSeqNo p.seqNo
  let m : ClaspMsg := { type := type, seqNo := n, answers := 0, payload := payload }
  if p.out.isNone then { p with out := some { msg := m, state := .waiting, resends := 0 }, seqNo := n }
  else { p with queue := p.queue ++ [m], seqNo := n }

def State.portSend (s : State) (i type : Nat) (payload : List Byte) : State := s.modPort i fun p => p.put type payload

/-- The message in progress is done with: the next one waiting takes its place. -/
def Port.advance (p : Port) : Port :=
  match p.queue with
  | [] => { p with out := none }
  | m :: r => { p with out := some { msg := m, state := .waiting, resends := 0 }, queue := r }

/-- Message codes of Table 14-6. -/
def msgCaps : Nat := 1
def msgRequest : Nat := 2
def msgAccept : Nat := 3
def msgReject : Nat := 4
def msgReady : Nat := 5
def msgSwapJs : Nat := 6
def msgHold : Nat := 7
def msgDetach : Nat := 8

/-- A source-side voltage of the newest snapshot [mV]: the average at the ball times the VS sensitivity (R362, R263). -/
def Snap.average (x : Snap) (a : Nat) : Option Nat :=
  match x.accs[a]? with
  | some (c, _) => if c.count = 0 then none else some (c.sum / c.count)
  | none => none

/-- The average of an accumulator in the newest snapshot (R374). -/
def State.average (s : State) (a : Nat) : Option Nat := s.meas.newest.bind fun x => x.average a

/-- The voltage of a channel's source side [mV]. -/
def State.chanVolts (s : State) (k : Nat) : Option Nat :=
  let c := s.chan k
  (s.average (c.prof 3 1)).map fun a => a * 1800 * c.prof 0x18 4 / (65536 * 1000)

/-- The tie voltage of an event [mV]; while no sample gives one, no rule states it (log 37). -/
def State.tieVolts (s : State) (i : Nat) : Nat := (s.chanVolts (tieOf i)).getD (Config.openInt 26 [(i : Int), s.time.epoch]).toNat

/-- The terminations of UNATTACHED (R344): open on a disabled port. -/
def Port.restTerm (p : Port) : Term :=
  if !p.enabled then .opened else if p.pref = 1 then .sink else .source

/-- A port enters HOLD: its contract is suspended (R346, R352). -/
def State.portHold (s : State) (i : Nat) (cause : Nat) : State :=
  let p := s.port i
  let s1 := (s.setPort i .hold cause).modPort i fun p =>
    { p with suspended := p.grant.isSome, capsSinceHold := false, wanted := false, readySent := false }
  if p.grant.isSome && !p.suspended then s1.contractEvent i 3 0 (s.tieVolts i) else s1

/-- A port leaves for HOLD and says so (R352); an exporter owes CAPS behind it (R349). -/
def State.sendHold (s : State) (i reason : Nat) : State :=
  let p := s.port i
  if p.mode.attached && p.mode != .hold then
    ((s.portHold i 0).portSend i msgHold (le 1 reason)).modPort i fun p => { p with capsDue := p.exporter }
  else s

/-- A port enters DETACHED_RECOVERY: no contract, no supply, no role (R356). -/
def State.portRecover (s : State) (i cause : Nat) : State :=
  let p := s.port i
  let s1 := s.setPort i .recovery cause
  let s2 := if p.grant.isSome then s1.contractEvent i 4 0 (s.tieVolts i) else s1
  (s2.setJs i false false).modPort i fun p =>
    { p with grant := none, suspended := false, request := none, swap := .none, wanted := false, readySent := false,
             capsSent := [], silent := false, released := false, entersOnSend := false, capsDue := false, swapReady := 0 }

/-- A tie channel that reads open releases the lines of a port in DETACHED_RECOVERY (R356). -/
def State.tieOpened (s : State) (k : Nat) : State :=
  if k = 2 || k = 3 then
    if (s.port (k - 2)).mode == .recovery then
      s.modPort (k - 2) fun p => { p with term := .opened, released := true }
    else s
  else s

/-- A tie channel enters LOCKOUT (R352). -/
def State.tieLocked (s : State) (k : Nat) : State := if k = 2 || k = 3 then s.sendHold (k - 2) 2 else s

/-- A tie channel is CLOSED: a port in TRANSITION sends READY (R350). -/
def State.tieClosed (s : State) (k : Nat) : State :=
  if (k = 2 || k = 3) && (s.port (k - 2)).mode == .transition && !(s.port (k - 2)).readySent then
    (s.portSend (k - 2) msgReady (le 1 ChanState.closed.code)).modPort (k - 2) fun p => { p with readySent := true }
  else s

/-- The block of the port starts, or is to start: UNATTACHED with the preference of its record, and its lines released until the block is
ready (Table 14-3, R359). An end conflict stands (R341). -/
def State.portStart (s : State) (i : Nat) : State :=
  let p := s.port i
  let s1 := if p.grant.isSome then s.contractEvent i 4 0 (s.tieVolts i) else s
  ((s1.setJs i false false).setPort i .unattached 0).modPort i fun p =>
    { Port.reset with body := p.body, pref := p.prof 1 1, bandA := p.bandA, bandB := p.bandB, endConflict := p.endConflict }

/-- Both ports as their block starts. -/
def State.claspStart (s : State) : State := (s.portStart 0).portStart 1

/-- The block is ready: the lines of UNATTACHED are driven, and the first half of a toggling port begins (R344). -/
def State.claspReady (s : State) : State :=
  s.modClasp fun c => { c with ports := c.ports.map fun p =>
    if p.mode == .unattached then { p with term := p.restTerm, halfAt := s.time.sysTime } else p }

end Sys2Proof.Machine
end

