-- ==== Sys2Proof/Machine/Bezel.lean ====
section
/-!
DEFINITION. The Bezel channels: feedback, comparators, trips, the slow level, and the closing and opening commands (11,
R262 to R271, R286).
-/
namespace Sys2Proof.Machine

/-- Channels that this die drives: BZ4 on every die, the others on a manager or a standalone die (Table 11-1). -/
def State.drives (s : State) (k : Nat) : Bool := k < 6 && (k == 4 || !s.isWorker)

/-- The state that a channel record gives a channel at rest. -/
def State.restState (s : State) (k : Nat) (b : Option (List Byte)) : ChanState :=
  match b with
  | some b => if bitAt b 0 0 && s.drives k then .opened else .disabled
  | none => .disabled

/-- Export (Table 11-1). -/
def State.exporting (s : State) (k : Nat) : Bool :=
  match k with
  | 2 => (s.port 0).countsSource
  | 3 => (s.port 1).countsSource
  | 4 => s.bz4Lanes.any fun j => (s.lane j).mode.running && (s.lane j).fn == .boost
  | _ => false

def Chan.retryMax (c : Chan) : Nat := c.prof 0x26 1
def ChanState.driven (m : ChanState) : Bool := m == .closing || m == .closed

/-- The class codes of Table 11-4. -/
def clsOcFast : Nat := 0x10
def clsOcSlow : Nat := 0x11
def clsOv : Nat := 0x12
def clsRev : Nat := 0x13
def clsFeedback : Nat := 0x14

/-- The code in force of a channel's comparator: 0 upper current, 1 lower current, 2 voltage; in export the lower one carries the
export code (R264). -/
def State.codeInForce (s : State) (k kind : Nat) : Nat :=
  let c := s.chan k
  match kind with
  | 0 => c.prof 6 2
  | 1 => if s.exporting k then c.prof 0x0A 2 else c.prof 8 2
  | _ => c.prof 4 2

/-- The record of a Bezel happening: class, flag and detail; `code` is that of the comparator that decided, 0 where none did (R226,
R269). -/
def State.recordBezel (s : State) (k cls code : Nat) (noSample : Bool) : State :=
  let c := s.chan k
  (s.modChan k fun c => { c with trips := c.trips.putBit (cls - 0x10) true }).recordClass cls (legBit k) 0 0x08
    (le 1 k ++ le 1 c.state.code ++ le 2 code ++ le 1 c.retries ++ le 1 (bit noSample))

/-- DRV goes low and the channel is TRIPPED, or LOCKOUT where the retry count stands at its maximum (R266, R270). BZ4
takes its lanes along (R268). -/
def State.openTrip (s : State) (k cls : Nat) : State :=
  let c := s.chan k
  let n : ChanState := if c.retryMax ≤ c.retries then .lockout else .tripped
  let s1 := s.setChan k n cls
  let s2 := if k = 4 && c.state.driven then s1.bz4LanesTrip none else s1
  if n == .lockout then s2.tieLocked k else s2

/-- A trip of a class (R266): recorded in every state but DISABLED; it acts where the channel is not open already. -/
def State.bezelTrip (s : State) (k cls code : Nat) (noSample : Bool) : State :=
  let c := s.chan k
  if c.state == .disabled then s
  else
    let s1 := s.recordBezel k cls code noSample
    if c.state.driven || (c.state == .opening && cls = clsOv) then s1.openTrip k cls else s1

/-- Comparators: 0 upper current, 1 lower current, 2 voltage; comparator `3 * channel + kind`. -/
def bezelKind (comparator : Nat) : Nat := comparator % 3

/-- The current comparators are armed in CLOSING and CLOSED (Table 11-3); a crossing whose filter another trip of the channel
has met is judged to its end, and recorded (Table 11-9, log 95). -/
def ChanState.judged (m : ChanState) : Bool := m.driven || m == .tripped || m == .lockout

/-- The class of a comparator, and whether it is armed in the channel's state (Table 11-3, R264). -/
def State.bezelArmed (s : State) (k kind : Nat) : Option Nat :=
  let c := s.chan k
  if c.state == .disabled || !s.isReady .bezel then none
  else match kind with
    | 0 => if c.state.judged then some clsOcFast else none
    | 1 => if c.state.judged then some (if s.exporting k then clsOcFast else clsRev) else none
    | _ => if c.prof 4 2 ≠ 0 then some clsOv else none

/-- A BZk comparator goes beyond its code, or comes back; whether that acts is judged when its filter ends (R264, R266). -/
def execBezelComparatorCrossing (comparator : Nat) (crossed : Bool) (s : State) : Host.Outcome State Fault Refusal :=
  .next (s.modChan (comparator / 3) fun c =>
    match bezelKind comparator with
    | 0 => { c with ocPending := crossed }
    | 1 => { c with revPending := crossed }
    | _ => { c with ovPending := crossed })

/-- The crossing outlasts its filter (R266). -/
def execBezelTrip (comparator : Nat) (s : State) : Host.Outcome State Fault Refusal :=
  let k := comparator / 3
  let c := s.chan k
  let kind := bezelKind comparator
  let crossed := match kind with
    | 0 => c.ocPending
    | 1 => c.revPending
    | _ => c.ovPending
  match s.bezelArmed k kind with
  | some cls => if crossed then .next (s.bezelTrip k cls (s.codeInForce k kind) false) else .next s
  | none => .next s

/-! ### The slow level (R267) -/

def Chan.pickup (c : Chan) : Nat := c.prof 0x1C 4
/-- I_p^2 x T_ref in mA^2 ticks. -/
def Chan.slowLevel (c : Chan) : Nat := c.pickup * c.pickup * (c.prof 0x20 2 * 1000 * Config.ticksPerUs)

/-- The current of a sample code at gain 1 [mA], signed: (v - zero level) x sensitivity / 1000. -/
def Chan.milliamps (c : Chan) (code : Nat) : Int :=
  ((code * 18000 : Int) - (c.prof 0x10 2 : Int) * 65536) * (c.prof 0x14 4 : Int) / (65536 * 10 * 1000)

/-- The integrator after a sample. -/
def Chan.integrate (c : Chan) (i : Int) (dt now : Nat) : Chan :=
  let sq : Int := i * i
  let p : Int := c.pickup * c.pickup
  { c with
    integ := ((c.integ : Int) + (sq - p) * dt).toNat
    aboveTicks := if (c.pickup : Int) < i then c.aboveTicks + dt else 0
    lastSample := now }

/-- E decays while the channel is open, with I = 0, and the close starts a new sample interval. -/
def Chan.decay (c : Chan) (dt now : Nat) : Chan := { c.integrate 0 dt now with aboveTicks := 0 }

/-- A sample accepted into the channel's current accumulator. -/
def State.slowSample (s : State) (k code : Nat) : State :=
  let c := s.chan k
  let dt := s.time.sysTime - c.lastSample
  if !c.state.driven then s.modChan k fun c => c.decay dt s.time.sysTime
  else
    let c1 := c.integrate (c.milliamps code) dt s.time.sysTime
    let s1 := s.modChan k fun _ => c1
    if c.pickup ≠ 0 && ((c.slowLevel ≤ c1.integ && 1000 * Config.ticksPerUs ≤ c1.aboveTicks)
        || 10000000 * Config.ticksPerUs ≤ c1.aboveTicks) then
      s1.bezelTrip k clsOcSlow 0 false
    else s1

/-- A sample code of accumulator `a` reaches the slow level of the channels that name it. -/
def State.slowSamples (s : State) (a code : Nat) : State :=
  [0, 1, 2, 3, 4, 5].foldl (fun s k =>
    if (s.chan k).enabled && (s.chan k).prof 2 1 == a && a ≠ 0xFF && s.drives k then s.slowSample k code else s) s

/-- No accepted sample for 1 ms while the channel is CLOSED (R267). -/
def execSlowOcNoSample (channel : Nat) (s : State) : Host.Outcome State Fault Refusal :=
  let c := s.chan channel
  if c.state == .closed && c.pickup ≠ 0 && c.prof 2 1 ≠ 0xFF then .next (s.bezelTrip channel clsOcSlow 0 true) else .next s

/-! ### Feedback (R265) -/

/-- BZk_FB changes level (Table 02-7); a channel's waiting crowbar is the row CROWBAR_CLOSE. -/
def execBzFbChange (channel : Nat) (closed : Bool) (s : State) : Host.Outcome State Fault Refusal :=
  if channel < 6 then .next (s.modChan channel fun c => { c with fb := closed }) else .next s

/-- FB confirms a state, or contradicts one, for the time that R265 gives. -/
def State.fbQualified (s : State) (k : Nat) : State :=
  let c := s.chan k
  match c.state, c.fb with
  | .closing, true => (s.setChan k .closed 0).tieClosed k
  | .closed, false => (s.recordBezel k clsFeedback 0 false).openTrip k clsFeedback
  | .opening, false => ((s.setChan k .opened 0).modChan k fun c => { c with openSeen := true }).tieOpened k
  | .tripped, false => (s.modChan k fun c => { c with openSeen := true }).tieOpened k
  | .opened, true =>
    (((s.recordBezel k clsFeedback 0 false).setChan k .lockout clsFeedback).modChan k fun c =>
      { c with welded := true }).tieLocked k
  | _, _ => s

def execBzFbQualified (channel : Nat) (s : State) : Host.Outcome State Fault Refusal :=
  if s.isReady .bezel && s.drives channel then .next (s.fbQualified channel) else .next s

/-- FB has not read closed by the close time max (R265). -/
def execBzCloseTimeout (channel : Nat) (s : State) : Host.Outcome State Fault Refusal :=
  if (s.chan channel).state == .closing && s.isReady .bezel then
    let s1 := (s.recordBezel channel clsFeedback 0 false).setChan channel .lockout clsFeedback
    .next ((if channel = 4 then s1.bz4LanesTrip none else s1).tieLocked channel)
  else .next s

/-- FB has not read open by the open time max after DRV fell (R265), whatever opened the channel. DEDUCED (log 107): the words of R268
that the opening by the over-voltage action cannot lead to LOCKOUT are about that opening; its feedback is judged as R265 gives. -/
def execBzOpenTimeout (channel : Nat) (s : State) : Host.Outcome State Fault Refusal :=
  let c := s.chan channel
  if (c.state == .opening || c.state == .tripped) && !c.openSeen && s.isReady .bezel then
    .next ((((s.recordBezel channel clsFeedback 0 false).setChan channel .lockout clsFeedback).modChan channel fun c =>
      { c with welded := true }).tieLocked channel)
  else .next s

/-- The channel has been CLOSED without a trip for the retry reset time (R270). -/
def execBzRetryReset (channel : Nat) (s : State) : Host.Outcome State Fault Refusal :=
  if (s.chan channel).state == .closed then .next (s.modChan channel fun c => { c with retries := 0 }) else .next s

/-! ### Commands of the boundary -/

/-- The retry of a TRIPPED channel is due (R270), apart from its being wanted. -/
def Chan.retryDue (c : Chan) : Bool :=
  c.state == .tripped && c.prof 0x28 2 * 1000 ≤ c.delayUs && (c.pickup == 0 || 2 * c.integ ≤ c.slowLevel)

/-- A channel is commanded closed: from OPEN, or from TRIPPED where its retry is due, which raises the retry count
(R270). -/
def State.closeChan (s : State) (k : Nat) : State :=
  let c := s.chan k
  if !s.drives k || !s.isReady .bezel then s
  else if c.state == .opened then
    (s.modChan k fun c => (c.decay (s.time.sysTime - c.lastSample) s.time.sysTime)).setChan k .closing 0
  else if c.retryDue then
    ((s.modChan k fun c => { c.decay (s.time.sysTime - c.lastSample) s.time.sysTime with
      retries := Nat.min 7 (c.retries + 1) }).setChan k .closing 0)
  else s

/-- A channel is commanded open. -/
def State.openChan (s : State) (k : Nat) : State :=
  if (s.chan k).state.driven then s.setChan k .opening 0 else s

/-- The epochs of a retry delay: the one in which the trip occurred is not counted (R270). -/
def Chan.epoch (c : Chan) (us : Nat) : Chan :=
  if c.state != .tripped then c
  else if c.delayOn then { c with delayUs := c.delayUs + us } else { c with delayOn := true }

/-- The retry delays at a boundary that ends an epoch of `us` microseconds. -/
def Path.epoch (p : Path) (us : Nat) : Path := { p with chans := p.chans.map fun c => c.epoch us }

/-- Class 0x14 and the others of this chapter keep the state that the trip gave; a CLASP_PULLED record leaves its tie
channel as a BZ_REV trip does (R269). -/
def State.tiePulled (s : State) (k : Nat) : State :=
  let c := s.chan k
  if c.state == .disabled || c.state == .lockout then s
  else if c.state.driven || c.state == .opening || c.state == .opened then s.openTrip k 0x19 else s

end Sys2Proof.Machine
end

