-- ==== Sys2Proof/Machine/Measurement.lean ====
section
/-!
DEFINITION. Measurement: the Filigree tables, accumulators, trackers, Cameo snapshots, and the commands of Table 15-16 (15).
-/
namespace Sys2Proof.Machine

/-! ### Table entries (Tables 15-2, 15-3) -/

/-- Entry `i` of a table body. -/
def tabEntry (b : List Byte) (i : Nat) : List Byte := slice b (8 + 8 * i) 8

def entChannel (e : List Byte) : Nat := byteAt e 0 % 64
def entGain (e : List Byte) : Nat := byteAt e 0 / 64
def entFilter (e : List Byte) : Nat := byteAt e 1 % 4
def entNoncritical (e : List Byte) : Bool := bitAt e 1 2
/-- Conversions of a sample, F. -/
def entF (e : List Byte) : Nat := 4 ^ entFilter e
def entRepeat (e : List Byte) : Nat := byteAt e 2 + 1
def entAcc (e : List Byte) : Nat := byteAt e 3
def entDelay (e : List Byte) : Nat := fieldAt e 4 2
def entTrk (e : List Byte) : Nat := byteAt e 6

def tabCount (b : List Byte) : Nat := byteAt b 0
def tabContinue (b : List Byte) : Bool := bitAt b 1 0

/-- The converter of a channel code (Table 15-1). -/
def converterOf (code : Nat) : Nat := if code < 48 then code / 12 else (code - 48) / 4

/-- A table body obeys R364 and R365 for converter `k`, gains apart. -/
def tabBodyOk (k : Nat) (b : List Byte) : Bool :=
  b.length == 520 && tabCount b ≤ 64 && byteAt b 1 ≤ 1 && zeroAt b 2 6 &&
  (List.range 64).all fun i =>
    let e := tabEntry b i
    if tabCount b ≤ i then e.all (· == 0)
    else
      converterOf (entChannel e) == k && byteAt e 1 < 8 && entFilter e ≠ 3
        && (entAcc e < 64 || entAcc e == 0xFF) && (entTrk e < 32 || entTrk e == 0xFF) && byteAt e 7 == 0

/-- The entries that a list of tables runs. -/
def tabEntries (l : List (List Byte)) : List (List Byte) :=
  (l.map fun b => (List.range (tabCount b)).map (tabEntry b)).flatten

/-- The gain codes of the entries that target an accumulator, or a tracker. -/
def accGains (l : List (List Byte)) (a : Nat) : List Nat := ((tabEntries l).filter (entAcc · == a)).map entGain
def trkGains (l : List (List Byte)) (t : Nat) : List Nat := ((tabEntries l).filter (entTrk · == t)).map entGain

/-- All members are one value. -/
def oneValue : List Nat → Bool
  | [] => true
  | x :: r => r.all (· == x)

/-- No accumulator and no tracker has two gains (R365). -/
def gainsOk (l : List (List Byte)) : Bool :=
  ((List.range 64).all fun a => oneValue (accGains l a)) && (List.range 32).all fun t => oneValue (trkGains l t)

/-- The tables in force. -/
def Meas.tables (m : Meas) : List (List Byte) := m.adcs.filterMap (·.body)

/-- The gain code of an accumulator, or of a tracker. -/
def Meas.accGain (m : Meas) (a : Nat) : Nat := (accGains m.tables a).headD 0
def Meas.trkGain (m : Meas) (t : Nat) : Nat := (trkGains m.tables t).headD 0

/-- The accumulators that a record names as the source of an epoch average (R372). -/
def recAccs (type : Nat) (b : List Byte) : List Nat :=
  (match type with
    | 0x0020 => [byteAt b 0x4C]
    | 0x0030 => [byteAt b 2, byteAt b 3]
    | 0x0031 => [byteAt b 1]
    | 0x0080 => (List.range 8).map fun c => byteAt b (0x40 + 80 * c)
    | _ => []).filter (· < 64)

/-- The accumulators that the records in force name. -/
def State.namedAccs (s : State) : List Nat :=
  ((s.charge.strands.filterMap (·.body)).map (recAccs 0x0020)).flatten
    ++ ((s.path.chans.filterMap (·.body)).map (recAccs 0x0030)).flatten
    ++ ((s.path.body.map (recAccs 0x0031)).getD []) ++ ((s.therm.body.map (recAccs 0x0080)).getD [])

/-- A measurement record leaves an accumulator in running mode. -/
def modeRunning (m : Option (List Byte)) (i : Nat) : Bool :=
  match m with
  | some b => bitAt b i 0
  | none => false

/-- The accumulators that a record names are in per-epoch mode (R372). -/
def State.accsFree (s : State) (type : Nat) (b : List Byte) : Bool :=
  (recAccs type b).all fun a => !modeRunning s.meas.modes a

/-! ### A converter in its epoch (R367 to R370) -/

/-- The CLK_ADC cycles of an epoch, and the cutoff C. -/
def adcCycles (us : Nat) : Nat := 50 * us
def adcCutoff (us : Nat) : Nat := 50 * us - 256

/-- The discards before an entry's first sample (R367). -/
def Adc.discardsOf (a : Adc) (e : List Byte) : Nat :=
  match a.last with
  | none => Nat.max 3 (entF e + 1)
  | some (c, g, f) =>
    Nat.max (if c ≠ entChannel e then 1 else 0)
      (Nat.max (if g ≠ entGain e then 3 else 0) (if f ≠ entFilter e then entF e + 1 else 0))

/-- The entry is passed over in this epoch (R370). -/
def passedOver (throttled : Bool) (epoch : Nat) (e : List Byte) : Bool :=
  throttled && entNoncritical e && epoch % 4 ≠ 0

/-- The first entry from `i` on that runs, with the passes that the search completes; none where every entry is passed
over. -/
def nextEntry (b : List Byte) (skip : List Byte → Bool) : Nat → Nat → Nat → Option (Nat × Nat)
  | 0, _, _ => none
  | n + 1, i, passes =>
    let j := if tabCount b ≤ i then 0 else i
    let p := if tabCount b ≤ i then passes + 1 else passes
    if skip (tabEntry b j) then nextEntry b skip n (j + 1) p else some (j, p)

/-- The first unreached entry of a RESTART table that stopped in its first pass, or 0xFF; an entry passed over is none. -/
def Adc.unreached (a : Adc) (b : List Byte) (skip : List Byte → Bool) : Nat :=
  if tabContinue b || a.now.passes ≠ 0 then 0xFF
  else
    let i := if a.begun && a.sample ≠ 0 then a.entry + 1 else a.entry
    ((List.range (tabCount b)).find? fun j => i ≤ j && !skip (tabEntry b j)).getD 0xFF

/-- The converter stops until the next boundary. -/
def Adc.stop (a : Adc) (b : List Byte) (skip : List Byte → Bool) (us : Nat) : Adc :=
  let start := a.cycle + a.delay
  let c := adcCutoff us
  { a with
    stopped := true
    delay := if c < start then start - Nat.max c a.cycle else 0
    now := { a.now with
      unreached := a.unreached b skip
      idle := adcCycles us - Nat.min start c } }

/-- The converter moves to the entry at or after `i`. -/
def Adc.goto (a : Adc) (b : List Byte) (skip : List Byte → Bool) (us i : Nat) : Adc :=
  match nextEntry b skip (tabCount b + 1) i 0 with
  | none => { a with entry := 0, begun := false, sample := 0, delay := 0 }.stop b skip us
  | some (j, p) =>
    { a with entry := j, begun := false, sample := 0, delay := 0
             now := { a.now with passes := satAdd 65535 a.now.passes p } }

/-- Where the entry has its samples, its delay runs to its end and the next entry comes, or C stops it (R369). -/
def Adc.passDelay (a : Adc) (b : List Byte) (skip : List Byte → Bool) (us : Nat) : Adc :=
  if a.sample < entRepeat (tabEntry b a.entry) then a
  else if adcCutoff us < a.cycle + a.delay then a.stop b skip us
  else { a with cycle := a.cycle + a.delay, delay := 0 }.goto b skip us (a.entry + 1)

/-- At the point where a sample would start: it starts, or the converter stops (R369). -/
def Adc.beginSample (a : Adc) (b : List Byte) (skip : List Byte → Bool) (us : Nat) : Adc :=
  if a.stopped then a
  else
    let e := tabEntry b a.entry
    let d := if a.begun then 0 else a.discardsOf e
    if a.cycle + (d + entF e) * 10 ≤ adcCutoff us then
      { a with discards := d, begun := true, convs := 0, part := 0 }
    else a.stop b skip us

/-- What follows a sample, or the start edge. -/
def Adc.plan (a : Adc) (b : List Byte) (skip : List Byte → Bool) (us : Nat) : Adc :=
  if a.stopped then a else (a.passDelay b skip us).beginSample b skip us

/-- The counts of the epoch that ends move to MEAS_TABLE_STATUS. -/
def Adc.closeCounts (a : Adc) : Adc := { a with ended := a.now, now := AdcCount.reset }

/-- A converter starts afresh `lead` cycles after its start edge (R369). -/
def Adc.start (a : Adc) (throttled : Bool) (epoch us lead : Nat) : Adc :=
  match a.body with
  | none => a
  | some b =>
    if tabCount b = 0 then a
    else
      let skip := passedOver throttled epoch
      let a1 := { a with started := true, stopped := false, cycle := lead, convs := 0, part := 0, discards := 0 }
      let a2 :=
        if tabContinue b then
          if skip (tabEntry b a1.entry) then a1.goto b skip us a1.entry else a1
        else a1.goto b skip us 0
      a2.plan b skip us

/-- Every converter starts afresh for an epoch, unless the boundary enters a low-power state; MEAS must be calibrated
(R363, R369). -/
def Meas.startTables (m : Meas) (epoch us lead : Nat) : Meas :=
  { m with adcs := m.adcs.map fun a => if m.calDone then a.closeCounts.start m.throttled epoch us lead else a.closeCounts }

/-- No converter runs from this boundary on (R369). -/
def Meas.stopTables (m : Meas) : Meas := { m with adcs := m.adcs.map fun a => { a.closeCounts with stopped := true } }

/-! ### Samples (R366, R371, R373) -/

/-- The largest count of an accumulator. -/
def accFull : Nat := 2 ^ 32 - 1

def Acc.add (c : Acc) (code : Nat) : Acc :=
  if c.saturated then c
  else
    let n := c.count + 1
    { c with sum := c.sum + code, count := n, saturated := n == accFull, satNew := c.satNew || n == accFull }

def Trk.add (t : Trk) (code : Nat) : Trk := { t with min := Nat.min t.min code, max := Nat.max t.max code }

def Meas.modAcc (m : Meas) (i : Nat) (f : Acc → Acc) : Meas := { m with accs := modAt m.accs i f }
def Meas.modTrk (m : Meas) (i : Nat) (f : Trk → Trk) : Meas := { m with trks := modAt m.trks i f }
def Meas.modAdc (m : Meas) (i : Nat) (f : Adc → Adc) : Meas := { m with adcs := modAt m.adcs i f }
def Meas.adc (m : Meas) (i : Nat) : Adc := getAt m.adcs i Adc.reset

/-- A conversion that is not discarded: it may complete a sample, and a sample its entry. The new converter state and
the sample. -/
def Adc.convert (a : Adc) (b : List Byte) (skip : List Byte → Bool) (us code : Nat) : Adc × Option Nat :=
  let e := tabEntry b a.entry
  let a1 := { a with convs := a.convs + 1, part := a.part + code }
  if a1.convs < entF e then (a1, none)
  else
    let v := a1.part / entF e
    let a2 := { a1 with convs := 0, part := 0, sample := a1.sample + 1 }
    let a3 := if a2.sample < entRepeat e then a2 else { a2 with delay := entDelay e }
    (a3.plan b skip us, some v)

/-- A conversion of a running converter ends with a code (R362, R366, R367). -/
def State.conversion (s : State) (k code : Nat) (b : List Byte) : State :=
  let a := s.meas.adc k
  let e := tabEntry b a.entry
  let a1 := { a with
    last := some (entChannel e, entGain e, entFilter e)
    cycle := a.cycle + 10
    now := { a.now with conversions := a.now.conversions + 1 } }
  if 0 < a1.discards then
    s.modMeas fun m =>
      (m.modAdc k fun _ =>
        { a1 with discards := a1.discards - 1, now := { a1.now with discards := a1.now.discards + 1 } }).modAcc (entAcc e)
        fun c => { c with discards := satAdd accFull c.discards 1 }
  else
    let (a2, v) := a1.convert b (passedOver s.meas.throttled s.time.epoch) s.time.length code
    match v with
    | none => s.modMeas fun m => m.modAdc k fun _ => a2
    | some v =>
      (s.modMeas fun m => ((m.modAdc k fun _ => a2).modAcc (entAcc e) (·.add v)).modTrk (entTrk e) (·.add v)).slowSamples
        (entAcc e) v

/-- A SAR conversion ends with a 16-bit code. -/
def execConversionDone (converter code : Nat) (s : State) : Host.Outcome State Fault Refusal :=
  let a := s.meas.adc converter
  match a.body with
  | some b =>
    if s.isReady .meas && a.started && !a.stopped && tabCount b ≠ 0 && converter < 4 then
      .next (s.conversion converter (code % 65536) b)
    else .next s
  | none => .next s

/-- The block stops: it calibrates again at its next start (R363). -/
def Meas.halt (m : Meas) : Meas := { m with calDone := false }

/-- Calibration ends: MEAS is ready (R363, R378). The first entry that a converter runs from here takes the start discards (R367), an entry
that it resumes too (log 119). -/
def execMeasCalibrationDone (s : State) : Host.Outcome State Fault Refusal :=
  if s.sys.clk == .running && !s.sys.held then
    .next ((s.modMeas fun m =>
      { m with calDone := true, adcs := m.adcs.map fun a => { a with last := none, begun := false } }).setReady .meas true)
  else .next s

/-! ### Snapshots (R375, R376) -/

/-- The snapshot of an epoch. -/
def Meas.snapshot (m : Meas) (epoch : Nat) : Snap :=
  { epoch := epoch
    accs := (m.accs.zipIdx).map fun x => (x.1, m.accGain x.2)
    trks := (m.trks.zipIdx).map fun x => (x.1, m.trkGain x.2) }

/-- An emptied accumulator, or tracker. -/
def Acc.empty (c : Acc) : Acc := { Acc.reset with running := c.running }
def Trk.empty (t : Trk) : Trk := { Trk.reset with running := t.running }

/-- The freeze: the snapshot enters the bank not in view, and per-epoch entries are emptied (R372, R375). -/
def Meas.freeze (m : Meas) (epoch : Nat) : Meas :=
  let x := m.snapshot epoch
  { m with
    newest := some x
    view := if m.hold then m.view else some x
    accs := m.accs.map fun c => if c.running then { c with satNew := false } else c.empty
    trks := m.trks.map fun t => if t.running then t else t.empty }

/-- MEAS_SATURATED of the epoch that closes (R381). -/
def State.saturatedEvents (s : State) (closing : Nat) : State :=
  (s.meas.accs.zipIdx).foldl (fun s x =>
    if x.1.satNew then s.event 0x7FA0 (le 1 x.2 ++ zeros 3 ++ le 4 closing) else s) s

/-- A HOLD write (R376). -/
def Meas.setHold (m : Meas) (h : Bool) : Meas :=
  { m with hold := h, view := if h then m.view else m.newest }

/-- Table 15-5. -/
def accEntry (x : Acc × Nat) : List Byte :=
  le 6 x.1.sum ++ le 2 (bit (x.1.count = 0) + 2 * bit x.1.saturated + 4 * bit x.1.running + 8 * x.2)
    ++ le 4 x.1.count ++ le 4 x.1.discards

def Trk.isEmpty (t : Trk) : Bool := t.max < t.min

def trkEntry (x : Trk × Nat) : List Byte :=
  le 2 x.1.min ++ le 2 x.1.max ++ le 2 (bit x.1.isEmpty + 2 * bit x.1.running + 4 * x.2) ++ zeros 2

/-! ### Commands of Table 15-16 -/

/-- The tables that will be in force after converter `k` takes a body. -/
def Meas.tablesWith (m : Meas) (k : Nat) (b : List Byte) : List (List Byte) :=
  (m.modAdc k fun a => { a with body := some b }).tables

def measTableCheck (s : State) (p : List Byte) : Option Answer :=
  firstOf
    [ need (byteAt p 0 < 4 && zeroAt p 1 3 && tabBodyOk (byteAt p 0) (p.drop 4)) stBadParam,
      need (gainsOk (s.meas.tablesWith (byteAt p 0) (p.drop 4))) 0xC0 ]

/-- A table takes effect at entry 0 with the table-start discards. -/
def Adc.load (b : List Byte) : Adc := { Adc.reset with body := some b }

/-- Another MEAS_TABLE for the converter stands at the same boundary, applied later (Table 15-6). -/
def State.laterTable (s : State) (f : Flight) : Bool :=
  s.cmd.flights.any fun g =>
    g.opcode == 0x0600 && g.phase == .waiting && g.epoch == f.epoch && !(g.key == f.key) && (g.target == 0 || g.bcast)
      && byteAt g.payload 0 == byteAt f.payload 0
      && (f.key.tag < g.key.tag || (f.key.tag == g.key.tag && f.key.origin.rank < g.key.origin.rank))
      && (measTableCheck s g.payload).isNone

def opMeasTable : OpSpec :=
  { code := 0x0600, sched := .scheduled, bcast := true, block := some .meas, eupefen := true
    check := fun s f => firstOf [needLength f 524, measTableCheck (s.ahead f) f.payload]
    run := fun s f =>
      if s.laterTable f then answer s stSuperseded
      else match measTableCheck s f.payload with
        | some a => (s, some a)
        | none => okay (s.modMeas fun m => m.modAdc (byteAt f.payload 0) fun a =>
            { Adc.load (f.payload.drop 4) with ended := a.ended, now := a.now }) }

/-- A measurement record body (R372). -/
def modesBodyOk (b : List Byte) : Bool := b.length == 96 && (List.range 96).all fun i => byteAt b i ≤ 1

def measAccCheck (s : State) (p : List Byte) : Option Answer :=
  firstOf
    [ need (zeroAt p 0 4 && modesBodyOk (p.drop 4)) stBadParam,
      need (s.namedAccs.all fun a => !modeRunning (some (p.drop 4)) a) 0xC1 ]

/-- A measurement record in force; an entry whose mode changes is emptied. -/
def Meas.setModes (m : Meas) (b : List Byte) : Meas :=
  { m with
    modes := some b
    accs := (m.accs.zipIdx).map fun x =>
      if x.1.running == bitAt b x.2 0 then x.1 else { Acc.reset with running := bitAt b x.2 0 }
    trks := (m.trks.zipIdx).map fun x =>
      if x.1.running == bitAt b (64 + x.2) 0 then x.1 else { Trk.reset with running := bitAt b (64 + x.2) 0 } }

def opMeasAccConfig : OpSpec :=
  { code := 0x0601, sched := .scheduled, bcast := true, block := some .meas, eupefen := true
    check := fun s f => firstOf [needLength f 100, measAccCheck (s.ahead f) f.payload]
    run := fun s f => match measAccCheck s f.payload with
      | some a => (s, some a)
      | none => okay (s.modMeas fun m => m.setModes (f.payload.drop 4)) }

/-- MEAS_CLEAR empties the named entries (R381). -/
def Meas.clear (m : Meas) (am tm : Nat) : Meas :=
  { m with
    accs := (m.accs.zipIdx).map fun x => if am.testBit x.2 then x.1.empty else x.1
    trks := (m.trks.zipIdx).map fun x => if tm.testBit x.2 then x.1.empty else x.1 }

def opMeasClear : OpSpec :=
  { code := 0x0602, sched := .scheduled, bcast := true, block := some .meas, eupefen := true
    check := fun _ f => firstOf [needLength f 16, need (zeroAt f.payload 12 4) stBadParam]
    run := fun s f => okay (s.modMeas fun m => m.clear (fieldAt f.payload 0 8) (fieldAt f.payload 8 4)) }

/-- MEAS_SNAPSHOT_READ (R377). -/
def opMeasSnapshotRead : OpSpec :=
  { code := 0x0603, sched := .unscheduled, bcast := false, block := some .meas
    check := fun _ f =>
      let a := byteAt f.payload 0
      let an := byteAt f.payload 1
      let t := byteAt f.payload 2
      let tn := byteAt f.payload 3
      firstOf
        [ needLength f 4, need (a + an ≤ 64 && t + tn ≤ 32) stBadParam,
          need (16 * an + 8 * tn ≤ 1008) stBadLength ]
    run := fun s f => match s.meas.newest with
      | none => answer s stNotReady
      | some x => okayWith s
          (le 4 x.epoch ++ (((x.accs.drop (byteAt f.payload 0)).take (byteAt f.payload 1)).map accEntry).flatten
            ++ (((x.trks.drop (byteAt f.payload 2)).take (byteAt f.payload 3)).map trkEntry).flatten) }

def opMeasTableStatus : OpSpec :=
  { code := 0x0604, sched := .unscheduled, bcast := false, block := some .meas
    check := fun _ f => firstOf [needLength f 4, need (byteAt f.payload 0 < 4 && zeroAt f.payload 1 3) stBadParam]
    run := fun s f =>
      let a := s.meas.adc (byteAt f.payload 0)
      okayWith s (le 2 a.ended.passes ++ le 1 a.ended.unreached ++ le 1 a.entry ++ le 4 a.ended.conversions
        ++ le 4 a.ended.discards ++ le 4 a.ended.idle) }

def execMeasTable (h : Hdr) (p : List Byte) (s : State) : Host.Outcome State Fault Refusal :=
  .next (receive opMeasTable h p s)

def execMeasAccConfig (h : Hdr) (p : List Byte) (s : State) : Host.Outcome State Fault Refusal :=
  .next (receive opMeasAccConfig h p s)

def execMeasClear (h : Hdr) (p : List Byte) (s : State) : Host.Outcome State Fault Refusal :=
  .next (receive opMeasClear h p s)

def execMeasSnapshotRead (h : Hdr) (p : List Byte) (s : State) : Host.Outcome State Fault Refusal :=
  .next (receive opMeasSnapshotRead h p s)

def execMeasTableStatus (h : Hdr) (p : List Byte) (s : State) : Host.Outcome State Fault Refusal :=
  .next (receive opMeasTableStatus h p s)

/-- The registers of Tables 15-7 to 15-9. -/
def Meas.statusReg (m : Meas) : Nat :=
  let f := fun (p : Adc → Bool) => (m.adcs.zipIdx).foldl (fun a x => if p x.1 then a + 2 ^ x.2 else a) 0
  f (fun a => a.body.any fun b => tabCount b ≠ 0) * 2 ^ 16 + f (·.stopped) * 2 ^ 12
    + f (fun a => a.ended.unreached ≠ 0xFF) * 2 ^ 8 + 2 * bit m.throttled + bit m.calDone

end Sys2Proof.Machine
end

