-- ==== Sys2Proof/Machine/Thermal.lean ====
section
/-!
DEFINITION. Thermal supervision: junction reads, external channels, battery levels, the thermal state of a boundary, and
the commands of Table 16-10 (16).
-/
namespace Sys2Proof.Machine

/-! ### Levels (R382, R383) -/

/-- A level set obeys R382. -/
def levelSetOk (b : List Byte) : Bool :=
  let w := sfieldAt b 0 2
  let t := sfieldAt b 2 2
  let d := sfieldAt b 4 2
  w < t && t < d && 10 ≤ sfieldAt b 6 2 && sfieldAt b 6 2 ≤ 200 && 10 ≤ sfieldAt b 8 2 && sfieldAt b 8 2 ≤ 200
    && 10 ≤ byteAt b 10 && byteAt b 10 ≤ 100 && byteAt b 11 == 0

/-- One flag: set at or above its set level, cleared below it less the hysteresis. -/
def flagNext (old : Bool) (v set hyst : Int) : Bool := set ≤ v || (old && set - hyst ≤ v)

/-- The flags after a reading. -/
def Levels.next (l : Levels) (b : List Byte) (v : Int) : Levels :=
  { warning := flagNext l.warning v (sfieldAt b 0 2) (sfieldAt b 6 2)
    throttle := flagNext l.throttle v (sfieldAt b 2 2) (sfieldAt b 6 2)
    shutdown := flagNext l.shutdown v (sfieldAt b 4 2) (sfieldAt b 8 2) }

/-- The level of the highest flag set. -/
def Levels.level (l : Levels) : Nat := if l.shutdown then 3 else if l.throttle then 2 else if l.warning then 1 else 0

/-- The junction level: 2 while the reading is unknown (R384). -/
def Therm.level (t : Therm) : Nat := if t.reading.isNone then 2 else t.levels.level

/-- A reading as a field: 0x8000 where it is unknown. -/
def readingField (r : Option Int) : Nat :=
  match r with
  | some v => unsigned 16 v
  | none => 0x8000

/-- THERM_LEVEL of a scheme. -/
def State.levelEvent (s : State) (scheme o n : Nat) (r : Option Int) : State :=
  if o = n then s
  else s.dueEvent 0x7FB0 scheme
    (le 1 scheme ++ le 1 o ++ le 1 n ++ zeros 1 ++ le 2 (readingField r) ++ zeros 2 ++ le 4 s.time.epoch)

/-! ### Junction reads (R384 to R386, R390) -/

/-- A reading lies within -60.0 to 200.0 C. -/
def inRange (v : Int) : Bool := -600 ≤ v && v ≤ 2000

/-- Twice the median of a list of readings. -/
def median2 (l : List Int) : Int :=
  let m := sortBy (fun a b => a ≤ b) l
  getAt m ((m.length - 1) / 2) 0 + getAt m (m.length / 2) 0

/-- A reading is valid in its read. -/
def validIn (l : List Int) (v : Int) : Bool :=
  inRange v && (2 * v - median2 (l.filter inRange)).natAbs ≤ 200

/-- A sensor with the highest valid reading, and the reading. -/
def hottestOf (l : List Int) : Option (Nat × Int) :=
  ((l.zipIdx).filter fun x => validIn l x.1).foldl (fun m x =>
    match m with
    | none => some (x.2, x.1)
    | some y => if y.2 < x.1 then some (x.2, x.1) else some y) none

/-- The valid sensors. -/
def validMask (l : List Int) : BitVec 8 :=
  BitVec.ofNat 8 ((l.zipIdx).foldl (fun a x => if validIn l x.1 then a + 2 ^ x.2 else a) 0)

/-- Fast reads are in force: the reading lies within 5.0 C of a set or release level, or is unknown (R385). -/
def Therm.fast (t : Therm) : Bool :=
  match t.reading with
  | none => true
  | some v =>
    let b := t.junctionSet
    [sfieldAt b 0 2, sfieldAt b 2 2, sfieldAt b 4 2, sfieldAt b 0 2 - sfieldAt b 6 2, sfieldAt b 2 2 - sfieldAt b 6 2,
      sfieldAt b 4 2 - sfieldAt b 8 2].any fun x => (v - x).natAbs ≤ 50

/-- THERM_SENSOR of each sensor whose validity changed (R384). -/
def State.sensorEvents (s : State) (old new : BitVec 8) (l : List Int) : State :=
  (List.range 8).foldl (fun s k =>
    if old.getLsbD k == new.getLsbD k then s
    else s.dueEvent 0x7FB1 k
      (le 1 k ++ le 1 (bit (!new.getLsbD k)) ++ le 2 (unsigned 16 (getAt l k 0)) ++ le 4 s.time.epoch)) s

/-- A read of all sensors enters the registers. -/
def Therm.read (t : Therm) (l : List Int) : Therm :=
  let h := hottestOf l
  { t with
    readings := l.take 8
    ok := validMask (l.take 8)
    hottest := match h with
      | some x => x.1
      | none => t.hottest
    reading := h.map (·.2)
    haveRead := true
    started := true
    reads := false
    levels := match h with
      | some x => t.levels.next t.junctionSet x.2
      | none => t.levels
    peak := match h, t.peak with
      | some x, some (some p) => some (some (if x.2 < p then p else x.2))
      | some x, _ => some (some x.2)
      | none, p => p }

/-- The flash operation of the detail bytes: 0 none, 1 program, 2 erase (Table 16-3). -/
def FlashOp.pulse : FlashOp → Nat
  | .none => 0
  | .updateErase _ | .lcWipe _ | .certErase | .bootWipe => 2
  | _ => 1

/-- The shutdown of Table 16-3: the class, the last-fault record, and the reset. -/
def State.thermalShutdown (s : State) : State :=
  ((s.recordClassAs 0x18 0xC2 1 0 0x07
      (le 1 s.therm.hottest ++ le 1 s.flash.op.pulse ++ zeros 2 ++ le 2 (readingField s.therm.reading))).modTherm fun t =>
    { t with shutdown := true, coolReads := 0 }).trigger causeThermal

/-- The sensors that gave the junction reading: several where their readings are equal. -/
def hottestTies (l : List Int) : List Nat :=
  match hottestOf l with
  | some x => (List.range 8).filter fun k => validIn l (getAt l k 0) && getAt l k 0 == x.2
  | none => []

/-- Which of several sensors with the highest reading HOTTEST names is a free value (log 53). -/
def State.nameHottest (s : State) (l : List Int) : State :=
  let ties := hottestTies l
  if ties.length ≤ 1 then s
  else
    let n := (Config.openInt 7 l).toNat
    s.modTherm fun t => { t with hottest := getAt ties (n % ties.length) t.hottest }

/-- All that a completed read does. -/
def State.thermalRead (s0 : State) (l : List Int) : State :=
  let t := s0.therm.read l
  let s := (s0.modTherm fun _ => t).nameHottest l
  let old := s0.therm.level
  let s1 := s.sensorEvents (if s0.therm.haveRead then s0.therm.ok else 0xFF) t.ok l
  let s2 := s1.levelEvent 0 old t.level t.reading
  if t.level = 3 then s2.thermalShutdown else s2

/-- Core ticks of the 50 us grid of reads (R385). -/
def gridTicks : Nat := 50 * Config.ticksPerUs

/-- A read is due (R385): the first one of the block at once; then a fast read at every grid point, while fast reads are in force, and the
slow read 50 us before the epoch ends. While the count steps from LFRC, the step that passed the instant counts. -/
def State.readDue (s : State) : Bool :=
  let step := if s.time.lfrcStep then 80 else 1
  !s.therm.started || (s.therm.fast && s.time.tick % gridTicks < step)
    || (s.epochTicks ≤ s.time.tick + gridTicks && s.time.tick + gridTicks < s.epochTicks + step)

/-- A read starts on its grid point (R385). -/
def execThermalReadStart (s : State) : Host.Outcome State Fault Refusal :=
  if s.sys.clk == .running && !s.sys.held && s.readDue then .next (s.modTherm fun t => { t with reads := true }) else .next s

/-- A read of all eight sensors completes. -/
def execThermalReadDone (readings : List Int) (s : State) : Host.Outcome State Fault Refusal :=
  if s.sys.clk == .running && !s.sys.held && s.therm.reads && readings.length == 8 then .next (s.thermalRead readings)
  else .next s

/-- A read from LFRC while the thermal shutdown holds (Table 16-3 steps 5 and 6). -/
def execThermalHeldRead (readings : List Int) (s : State) : Host.Outcome State Fault Refusal :=
  if s.sys.held && s.therm.shutdown && s.sys.lfrcRun && readings.length == 8 then
    let b := s.therm.junctionSet
    let cool : Bool := match hottestOf readings with
      | some x => decide (x.2 < sfieldAt b 4 2 - sfieldAt b 8 2)
      | none => false
    .next (s.modTherm fun t => { t with coolReads := if cool then t.coolReads + 1 else 0 })
  else .next s

/-! ### External channels and batteries (R392, R393) -/

/-- Point `i` of a channel's curve: code and temperature. -/
def curvePoint (b : List Byte) (c i : Nat) : Nat × Int :=
  (fieldAt b (0x40 + 80 * c + 16 + 4 * i) 2, sfieldAt b (0x40 + 80 * c + 18 + 4 * i) 2)

/-- The temperature of an average code. -/
def curveAt (b : List Byte) (c a : Nat) : Option Int :=
  ((List.range 15).find? fun i => (curvePoint b c i).1 ≤ a && a ≤ (curvePoint b c (i + 1)).1).map fun i =>
    let (c0, t0) := curvePoint b c i
    let (c1, t1) := curvePoint b c (i + 1)
    t0 + ((a : Int) - c0) * (t1 - t0) / ((c1 : Int) - c0)

/-- The reading of external channel `c` in the newest snapshot. -/
def State.extReading (s : State) (c : Nat) : Option Int :=
  match s.therm.body with
  | some b =>
    if s.therm.extUsed c then (s.average (byteAt b (0x40 + 80 * c))).bind (curveAt b c) else none
  | none => none

/-- One channel's evaluation; after 4 unknown boundaries it holds level 2. -/
def ExtCh.eval (x : ExtCh) (b : List Byte) (r : Option Int) : ExtCh :=
  match r with
  | some v => { reading := r, unknown := 0, levels := x.levels.next b v }
  | none => { x with reading := none, unknown := satAdd 255 x.unknown 1 }

def ExtCh.level (x : ExtCh) : Nat := if 4 ≤ x.unknown then 2 else x.levels.level

/-- The level set of a chemistry (R394). -/
def Therm.battSet (t : Therm) (chem : Nat) : List Byte :=
  match t.body with
  | some b => slice b (0x10 + 12 * chem) 12
  | none => le 2 500 ++ le 2 600 ++ le 2 700 ++ le 2 30 ++ le 2 50 ++ le 1 50 ++ le 1 0

/-- The chemistry of a strand. -/
def Strand.chem (x : Strand) : Nat :=
  match x.body with
  | some b => byteAt b 0
  | none => 0

/-- The external channels and the battery levels are evaluated in the epoch that opens, after its snapshot and with the records that step 2
of its boundary applied (R392, R393, Table 16-5). -/
def State.evalThermal (s : State) : State :=
  let ext := (s.therm.ext.zipIdx).map fun x =>
    if s.therm.extUsed x.2 then x.1.eval (s.therm.extSet x.2) (s.extReading x.2) else ExtCh.reset
  let batt := (s.therm.batt.zipIdx).map fun x =>
    let st := getAt s.charge.strands x.2 Strand.reset
    if st.body.isSome && !s.isWorker && st.bmsFresh then
      match st.bms with
      | some m => x.1.next (s.therm.battSet st.chem) m.tMax
      | none => x.1
    else x.1
  let s1 := ((s.therm.ext.zip ext).zipIdx).foldl (fun s x =>
    s.levelEvent (1 + x.2) x.1.1.level x.1.2.level x.1.2.reading) s
  let s2 := ((s.therm.batt.zip batt).zipIdx).foldl (fun s x =>
    s.levelEvent (16 + x.2) x.1.1.level x.1.2.level ((getAt s.charge.strands x.2 Strand.reset).bms.map (·.tMax))) s1
  s2.modTherm fun t => { t with ext := ext, batt := batt }

/-- R387: a boundary freezes the junction level and the levels computed in the epoch that it closes; the state comes into force
at the next boundary. -/
def Therm.freeze (t : Therm) : Therm :=
  { t with
    inForce := t.frozen
    frozen := { junction := t.level, ext := t.ext.map (·.level), strands := t.batt.map (·.level) } }

/-! ### The record and the commands (R394, R397) -/

/-- One external channel of a thermal record: a used channel has a rising curve. -/
def extBodyOk (b : List Byte) (c : Nat) : Bool :=
  let o := 0x40 + 80 * c
  byteAt b o == 0xFF ||
    (byteAt b o < 64 && byteAt b (o + 1) < 16 && zeroAt b (o + 2) 2 && levelSetOk (slice b (o + 4) 12)
      && ((List.range 15).all fun i => (curvePoint b c i).1 < (curvePoint b c (i + 1)).1)
      && (((List.range 15).all fun i => (curvePoint b c i).2 < (curvePoint b c (i + 1)).2)
        || (List.range 15).all fun i => (curvePoint b c (i + 1)).2 < (curvePoint b c i).2))

/-- A thermal record body (Table 16-4). That no NONCRITICAL entry feeds a named accumulator (R392) is the configuration's
duty and not checked (log 51). -/
def thermBodyOk (b : List Byte) : Bool :=
  b.length == 704 && zeroAt b 0xC 4 && levelSetOk (slice b 0 12) && sfieldAt b 4 2 ≤ 1600
    && ((List.range 4).all fun k => levelSetOk (slice b (0x10 + 12 * k) 12))
    && (List.range 8).all fun c => extBodyOk b c

def thermConfigCheck (j : State) (p : List Byte) : Option Answer :=
  firstOf
    [ need (zeroAt p 0 4 && thermBodyOk (p.drop 4)) stBadParam,
      need (j.accsFree 0x0080 (p.drop 4)) 0xC1 ]

def opThermConfig : OpSpec :=
  { code := 0x0700, sched := .scheduled, bcast := true, block := some .therm, eupefen := true
    check := fun s f => firstOf [needLength f 708, thermConfigCheck (s.ahead f) f.payload]
    run := fun s f => match thermConfigCheck s f.payload with
      | some a => (s, some a)
      | none => okay (s.modTherm fun t => { t with body := some (f.payload.drop 4) }) }

/-- The registers of Tables 16-6 to 16-9. -/
def Therm.statusReg (t : Therm) : Nat :=
  t.ok.toNat * 2 ^ 24 + t.hottest * 2 ^ 16 + 8 * bit (t.haveRead && t.fast) + 4 * bit (2 ≤ t.inForce.junction)
    + (if t.haveRead then t.level else 0)

def Therm.junctionReg (t : Therm) : Nat :=
  (match t.peak with
    | some p => readingField p
    | none => 0) * 2 ^ 16 + readingField t.reading

/-- The block starts: its first read comes before THERM is set in SYS_READY (R385). -/
def Therm.start (t : Therm) : Therm := { t with reads := false, started := false }

/-- The clock of the application core [MHz]: halved while the junction holds level 2 or higher (R388). -/
def Therm.coreMhz (t : Therm) : Nat := if 2 ≤ t.inForce.junction then 100 else 200

def Therm.extReg (t : Therm) : Nat :=
  ((t.ext.zipIdx).foldl (fun a x => if 4 ≤ x.1.unknown then a + 2 ^ x.2 else a) 0) * 2 ^ 16
    + (t.frozen.ext.zipIdx).foldl (fun a x => a + x.1 * 4 ^ x.2) 0

def Therm.sensorReg (t : Therm) (k : Nat) : Nat :=
  unsigned 16 (getAt t.readings (2 * k + 1) 0) * 2 ^ 16 + unsigned 16 (getAt t.readings (2 * k) 0)

def opThermStatus : OpSpec :=
  { code := 0x0701, sched := .unscheduled, bcast := false, block := some .therm
    check := fun _ f => needLength f 0
    run := fun s _ => okayWith s
      (le 4 s.therm.statusReg ++ le 4 s.therm.junctionReg ++ le 4 s.therm.extReg
        ++ ((List.range 4).map fun k => le 4 (s.therm.sensorReg k)).flatten
        ++ (s.therm.ext.map fun x => le 2 (readingField x.reading)).flatten) }

def opThermPeakClear : OpSpec :=
  { code := 0x0702, sched := .unscheduled, bcast := true, block := some .therm
    check := fun _ f => needLength f 0
    run := fun s _ => okay (s.modTherm fun t => { t with peak := if t.haveRead then some t.reading else none }) }

def execThermConfig (h : Hdr) (p : List Byte) (s : State) : Host.Outcome State Fault Refusal :=
  .next (receive opThermConfig h p s)

def execThermStatus (h : Hdr) (p : List Byte) (s : State) : Host.Outcome State Fault Refusal :=
  .next (receive opThermStatus h p s)

def execThermPeakClear (h : Hdr) (p : List Byte) (s : State) : Host.Outcome State Fault Refusal :=
  .next (receive opThermPeakClear h p s)

end Sys2Proof.Machine
end

