-- ==== Sys2Proof/Machine/Charging.lean ====
section
/-!
DEFINITION. Charging: the strand record, the charge machine and its per-epoch computation, plans, and the commands of
Table 10-7 (10).
-/
namespace Sys2Proof.Machine

def Charge.strand (c : Charge) (n : Nat) : Strand := getAt c.strands n Strand.reset
def State.strand (s : State) (n : Nat) : Strand := s.charge.strand n

def State.modStrand (s : State) (n : Nat) (f : Strand → Strand) : State :=
  s.modCharge fun c => { c with strands := modAt c.strands n f }

/-- A field of the strand record (Table 10-2). -/
def Strand.prof (x : Strand) (off len : Nat) : Nat :=
  match x.body with
  | some b => fieldAt b off len
  | none => 0

def Strand.sprof (x : Strand) (off : Nat) : Int := signed 16 (x.prof off 2)

def Strand.flag (x : Strand) (i : Nat) : Bool := (x.prof 1 1).testBit i

/-- A voltage per cell as a strand voltage [mV]. -/
def Strand.cellMv (x : Strand) (off : Nat) : Nat := x.prof off 2 * x.prof 2 2 / 10

def Strand.icc (x : Strand) : Nat := x.prof 8 4
def Strand.recoveryMa (x : Strand) : Nat := x.prof 4 4 * x.prof 0x14 2 / 1000

/-- Serving-lane entry `e`: address, lane, leg rating (R238). -/
def Strand.entry (x : Strand) (e : Nat) : Nat × Nat × Nat :=
  (x.prof (0x60 + 8 * e) 1, x.prof (0x61 + 8 * e) 1, x.prof (0x64 + 8 * e) 4)

/-- The used entries. -/
def Strand.entries (x : Strand) : List Nat :=
  if x.body.isNone then [] else (List.range 16).filter fun e => (x.entry e).1 ≠ 0xFF

/-- The addresses that serve a strand. -/
def Strand.dies (x : Strand) : List Nat := (x.entries.map fun e => (x.entry e).1).eraseDups

/-! ### Codes (Tables 10-3, 10-5) -/

def ChargePhase.code : ChargePhase → Nat
  | .check => 0 | .recover => 1 | .ramp => 2 | .cc => 3 | .cv => 4 | .finish => 5 | .rest => 6 | .maintain => 7
  | .equalise => 8 | .halt => 9

def HaltReason.code : HaltReason → Nat
  | .idle => 0 | .host => 1 | .complete => 2 | .temp => 3 | .tempUnknown => 4 | .bmsStop => 5 | .overvoltage => 6
  | .absent => 7 | .recoverTimeout => 8 | .timeout => 9 | .noLanes => 10 | .protection => 11 | .mismatch => 12
  | .keepAlive => 13

/-- The lane code of a phase (Tables 10-3, 10-4). -/
def ChargeMachine.laneCode (m : ChargeMachine) : Nat :=
  match m.phase with
  | .recover => 3
  | .ramp | .cc | .cv | .finish => 2
  | .maintain => if m.topUp then 4 else 1
  | .equalise => 5
  | _ => 1

/-! ### Telemetry of the epoch before (R245, R249) -/

/-- The lane record of a die of the domain. -/
def State.telRecord (s : State) (address lane : Nat) : List Byte :=
  if address = 0 then (s.lane lane).closed
  else match s.slolos.ctxs[address - 1]? with
    | some c => slice c.telemetry (24 * lane) 24
    | none => zeros 24

/-- The BZ4 state code that a die reports (Table 13-3); the home die's own is that of the latest boundary (R19). -/
def State.telBz4 (s : State) (address : Nat) : Nat :=
  if address = 0 then (getAt s.path.seen 4 ChanSeen.reset).state.code
  else match s.slolos.ctxs[address - 1]? with
    | some c => byteAt c.telemetry 108 % 8
    | none => 0

def recMode (r : List Byte) : Nat := byteAt r 0
def recLegs (r : List Byte) : Nat := (BitVec.ofNat 16 (fieldAt r 2 2)).ones
def recCurrent (r : List Byte) : Int := sfieldAt r 4 4
def recPower (r : List Byte) : Int := sfieldAt r 16 4
def recBound (r : List Byte) : Nat := byteAt r 22

def Strand.record (x : Strand) (s : State) (e : Nat) : List Byte := s.telRecord (x.entry e).1 (x.entry e).2.1

/-- The rating of an entry (R249). -/
def Strand.rating (x : Strand) (s : State) (e : Nat) : Nat := (x.entry e).2.2 * recLegs (x.record s e)

/-- A die takes part in allotment: this die, or an ACTIVE worker (R17). -/
def State.takesPart (s : State) (address : Nat) : Bool :=
  address = 0 || (match s.slolos.ctxs[address - 1]? with
    | some c => c.state == .active
    | none => false)

/-- BZ4 does not bar an entry's lane (R268): its die's channel is not TRIPPED or LOCKOUT, and outside CHECK and HALT it
is CLOSED. -/
def Strand.bzOk (x : Strand) (s : State) (e : Nat) : Bool :=
  let n := s.telBz4 (x.entry e).1
  if x.mach.phase == .check || x.mach.phase == .halt then n ≠ 5 && n ≠ 6 else n == 3

/-- Epoch `e` has opened by epoch `now` (R126). -/
def reached (now e : Nat) : Bool := (now + (2 ^ 32 - e)) % 2 ^ 32 < 2 ^ 31

/-- The die holds a plan by the next boundary (R253). -/
def Strand.holds (x : Strand) (s : State) (address : Nat) : Bool :=
  let soon := fun (e : Nat) => reached ((s.time.epoch + 1) % 2 ^ 32) e
  if address = 0 then x.plan.isSome || x.planNext.any fun p => soon p.1
  else x.holders.any fun h => h.1 == address && (h.2.map soon).getD true

/-- The counted entries (R255). -/
def Strand.countedMask (x : Strand) (s : State) : BitVec 16 :=
  x.entries.foldl (fun m e =>
    let r := x.record s e
    if s.takesPart (x.entry e).1 && x.holds s (x.entry e).1 && recMode r ≠ 6 && recLegs r ≠ 0
        && !x.startFail.getLsbD e && x.bzOk s e then m.putBit e true else m) 0

/-- The string switches of every serving die are reported closed (Table 10-3). -/
def Strand.switchesClosed (x : Strand) (s : State) : Bool := x.dies.all fun a => s.telBz4 a == 3

/-! ### Strand voltage, temperature and limits (R239, R240, R254) -/

/-- The accumulator's strand voltage [mV]. -/
def Strand.accVolts (x : Strand) (s : State) : Option Nat :=
  if x.body.isNone || x.prof 0x4C 1 == 0xFF then none
  else (s.average (x.prof 0x4C 1)).map fun a => a * x.prof 0x50 4 / 65535

/-- The fresh limits. -/
def Strand.fresh (x : Strand) : Option Bms := if x.bmsFresh then x.bms else none

/-- V_s (R239). -/
def Strand.volts (x : Strand) (s : State) : Option Nat :=
  match x.accVolts s with
  | some v => some v
  | none => x.fresh.map (·.vPack)

/-- The two sources disagree. -/
def Strand.mismatch (x : Strand) (s : State) : Bool :=
  match x.accVolts s, x.fresh with
  | some a, some b => x.prof 0x4D 1 * a < 1000 * ((a : Int) - b.vPack).natAbs
  | _, _ => false

/-- The window in force (R237). -/
def Strand.window (x : Strand) (s : State) : Int × Int :=
  let own := if x.sprof 0x3A == 0x7FFF && x.sprof 0x3C == 0x7FFF then chemWindow x.chem else (x.sprof 0x3A, x.sprof 0x3C)
  match s.limits with
  | some b => (max own.1 (certWindow b x.chem).1, min own.2 (certWindow b x.chem).2)
  | none => own

/-- The readings in force: minimum and maximum of each source (R240). -/
def Strand.temps (x : Strand) (s : State) : List (Int × Int) :=
  (match x.fresh with
    | some b => [(b.tMin, b.tMax)]
    | none => [])
  ++ (if x.prof 0x5B 1 == 0xFF then [] else match s.extReading (x.prof 0x5B 1) with
    | some v => [(v, v)]
    | none => [])

/-- Every reading lies in the window narrowed by `h` at both ends, and one is in force. -/
def Strand.tempOk (x : Strand) (s : State) (h : Int) : Bool :=
  let w := x.window s
  !(x.temps s).isEmpty && (x.temps s).all fun t => w.1 + h ≤ t.1 && t.2 ≤ w.2 - h

/-- bms_current (R254). -/
def Strand.bmsCurrent (x : Strand) : Nat :=
  match x.fresh with
  | some b => Nat.min b.iCharge x.icc
  | none => x.prof 0x40 4

/-- Fresh limits forbid charging. -/
def Strand.bmsStop (x : Strand) : Bool :=
  match x.fresh with
  | some b => !b.chargeOk
  | none => false

/-- V_bms (R253). -/
def Strand.vBms (x : Strand) : Nat :=
  match x.fresh with
  | some b => b.vCharge
  | none => x.cellMv 0x44

/-- The plan that the record and the limits give (R253). -/
def Strand.wantedPlan (x : Strand) : Plan :=
  { main := Nat.min (x.cellMv 0x0C) x.vBms
    recover := x.cellMv 0x12
    maintain := Nat.min (x.cellMv 0x2E) x.vBms
    equalise := Nat.min (x.cellMv 0x34) x.vBms
    lsb := x.prof 0x5C 4 }

/-! ### The machine (R243 to R248, R256) -/

/-- What a computation of a strand sees. -/
structure ChargeIn where
  epoch : Nat
  us : Nat
  prevUs : Nat
  vs : Option Nat
  current : Int
  /-- The strand limit of the telemetry's epoch. -/
  limit : Nat
  /-- No counted lane was in SOFTSTART or started (R244). -/
  steady : Bool
  /-- Every lane with current has a limiter fraction of at most 127, and one has current (R246). -/
  loose : Bool
  closed : Bool
deriving DecidableEq, Repr

/-- A phase is entered at the next boundary. -/
def ChargeMachine.enter (m : ChargeMachine) (x : ChargeIn) (p : ChargePhase) : ChargeMachine :=
  { m with phase := p, reason := .idle, entered := (x.epoch + 1) % 2 ^ 32, prior := m.phase, phaseTime := 0, twiceA := 0, twiceB := 0,
           topUp := false, resumeTime := 0 }

def ChargeMachine.haltFor (m : ChargeMachine) (x : ChargeIn) (r : HaltReason) : ChargeMachine := { m.enter x .halt with reason := r }

/-- A charge begins: RECOVER, or RAMP, or CC where the ramp time is 0 (R246). -/
def ChargeMachine.begin (m : ChargeMachine) (st : Strand) (x : ChargeIn) (p : ChargePhase) : ChargeMachine :=
  let q : ChargePhase := if p == .ramp && st.prof 0x18 2 = 0 then .cc else p
  { m.enter x q with iRamp := st.recoveryMa }

/-- A fresh charge: the total time and the accepted charge start again. -/
def ChargeMachine.fresh (m : ChargeMachine) : ChargeMachine := { m with totalTime := 0, accepted := 0 }

/-- A consecutive count after an evaluation. -/
def streak (n : Nat) (evaluated holds : Bool) : Nat := if evaluated then (if holds then n + 1 else 0) else n

/-- The telemetry's epoch counts for a criterion with a threshold in thousandths of `base` (R244). -/
def evaluated (m : ChargeMachine) (x : ChargeIn) (permille base : Nat) : Bool :=
  m.entered ≠ x.epoch && 2 * permille * base ≤ 1000 * x.limit && x.steady

/-- The telemetry is used for a criterion of the phase (R244): the CV criterion has no current threshold. -/
def evaluatedNow (st : Strand) (m : ChargeMachine) (x : ChargeIn) : Bool :=
  match m.phase with
  | .ramp | .cc => evaluated m x 0 0
  | .cv => evaluated m x (st.prof 0x1A 2) st.icc
  | .finish => evaluated m x (st.prof 0x1C 2) st.icc
  | .maintain => m.topUp && evaluated m x (st.prof 0x1C 2) st.icc
  | _ => false

/-- The phases that the total charge time limit covers (R245). -/
def ChargePhase.charges (p : ChargePhase) : Bool :=
  p == .recover || p == .ramp || p == .cc || p == .cv || p == .finish || p == .equalise

/-- The machine's timers after the completed epoch (R244). In the first computation of a phase that epoch is the last of the phase before;
the accepted charge counts every epoch of a phase that charges or that tops up (Table 10-8). -/
def ChargeMachine.clocks (m : ChargeMachine) (x : ChargeIn) : ChargeMachine :=
  let covers := m.entered ≠ x.epoch
  let phase := if covers then m.phase else m.prior
  let free := m.phase == .check || m.phase == .rest || m.phase == .equalise
  { m with
    phaseTime := if covers && (free || 0 < x.limit) then m.phaseTime + x.prevUs else m.phaseTime
    totalTime := if phase.charges && 0 < x.limit then m.totalTime + x.prevUs else m.totalTime
    accepted := if phase.charges || phase == .rest || phase == .maintain then m.accepted + x.current * x.prevUs else m.accepted }

/-- The total charge time limit is reached. -/
def ChargeMachine.timedOut (m : ChargeMachine) (st : Strand) : Bool := m.phase.charges && st.prof 0x26 2 * 60000000 ≤ m.totalTime

/-- EQUALISE is due (R255). -/
def ChargeMachine.due (m : ChargeMachine) (st : Strand) : Bool :=
  m.equaliseDue || (st.prof 0x38 2 ≠ 0 && st.prof 0x38 2 ≤ m.sinceEqualise)

/-- A completed charge goes to REST. -/
def ChargeMachine.complete (m : ChargeMachine) (x : ChargeIn) : ChargeMachine :=
  { m.enter x .rest with completed := satAdd 65535 m.completed 1, sinceEqualise := m.sinceEqualise + 1 }

def phaseCheck (st : Strand) (m : ChargeMachine) (x : ChargeIn) : ChargeMachine :=
  match x.vs with
  | some v =>
    if st.cellMv 0x0E < v then m.haltFor x .overvoltage
    else
      let n := if x.closed && st.cellMv 0x10 ≤ v then m.twiceA + 1 else 0
      if 2 ≤ n then m.fresh.begin st x (if v < st.cellMv 0x12 then .recover else .ramp)
      else if st.prof 0x4A 2 * 1000000 ≤ m.phaseTime then m.haltFor x .absent
      else { m with twiceA := n }
  | none =>
    if st.prof 0x4A 2 * 1000000 ≤ m.phaseTime then m.haltFor x .absent else { m with twiceA := 0 }

def phaseRecover (st : Strand) (m : ChargeMachine) (x : ChargeIn) : ChargeMachine :=
  let n := match x.vs with
    | some v => if st.cellMv 0x12 ≤ v then m.twiceA + 1 else 0
    | none => 0
  if 2 ≤ n then m.begin st x .ramp
  else if st.prof 0x16 2 * 1000000 ≤ m.phaseTime then m.haltFor x .recoverTimeout
  else { m with twiceA := n }

/-- The CV criterion (R246): its count of evaluated epochs. -/
def cvCount (m : ChargeMachine) (x : ChargeIn) : Nat := streak m.twiceA (evaluated m x 0 0) x.loose

/-- CV begins with empty sums (R248). -/
def enterCv (m : ChargeMachine) (x : ChargeIn) : ChargeMachine := { m.enter x .cv with qRef := 0, qRefCount := 0, qLast := [] }

def phaseRamp (st : Strand) (m : ChargeMachine) (x : ChargeIn) : ChargeMachine :=
  let n := cvCount m x
  let i := m.iRamp + st.icc * x.us / Nat.max 1 (st.prof 0x18 2 * 1000)
  if 2 ≤ n then enterCv m x
  else if Nat.min st.icc st.bmsCurrent ≤ m.iRamp then m.enter x .cc
  else { m with twiceA := n, iRamp := i }

def phaseCc (m : ChargeMachine) (x : ChargeIn) : ChargeMachine :=
  let n := cvCount m x
  if 2 ≤ n then enterCv m x else { m with twiceA := n }

def phaseCv (st : Strand) (m : ChargeMachine) (x : ChargeIn) : ChargeMachine :=
  let e := evaluated m x (st.prof 0x1A 2) st.icc
  let n := streak m.twiceA e (1000 * x.current < st.prof 0x1A 2 * st.icc)
  let adds := e && m.qRefCount < st.prof 0x20 2
  let m1 := { m with
    twiceA := n
    qRef := if adds then m.qRef + x.current * x.prevUs else m.qRef
    qRefCount := if adds then m.qRefCount + 1 else m.qRefCount }
  if 2 ≤ n || st.prof 0x22 2 * 1000000 ≤ m.phaseTime then m1.enter x .finish else m1

/-- The adaptive criterion (R248). -/
def adaptiveDone (st : Strand) (m : ChargeMachine) : Bool :=
  st.flag 5 && st.prof 0x20 2 ≤ m.qRefCount && st.prof 0x20 2 ≤ m.qLast.length
    && 1000 * m.qLast.foldl (· + ·) 0 < st.prof 0x1E 2 * m.qRef

def phaseFinish (st : Strand) (m : ChargeMachine) (x : ChargeIn) : ChargeMachine :=
  let e := evaluated m x (st.prof 0x1C 2) st.icc
  let n := streak m.twiceA e (1000 * x.current < st.prof 0x1C 2 * st.icc)
  let m1 := { m with
    twiceA := n
    qLast := if e then (x.current * x.prevUs :: m.qLast).take (st.prof 0x20 2) else m.qLast }
  if 2 ≤ n || adaptiveDone st m1 then m1.complete x
  else if st.prof 0x24 2 * 1000000 ≤ m.phaseTime then m1.enter x .rest
  else m1

def phaseRest (st : Strand) (m : ChargeMachine) (x : ChargeIn) : ChargeMachine :=
  if st.prof 0x28 2 * 1000000 ≤ m.phaseTime then
    if m.due st then { m.enter x .equalise with totalTime := 0, sinceEqualise := 0, equaliseDue := false }
    else if st.flag 3 then m.enter x .maintain
    else m.haltFor x .complete
  else m

/-- MAINTAIN and its top-ups (R247). -/
def phaseMaintain (st : Strand) (m : ChargeMachine) (x : ChargeIn) : ChargeMachine :=
  match x.vs with
  | none => { m with twiceA := 0, twiceB := 0, topUp := false }
  | some v =>
    let a := if v < st.cellMv 0x2C then m.twiceA + 1 else 0
    if 2 ≤ a then m.enter x .check
    else if m.topUp then
      let e := evaluated m x (st.prof 0x1C 2) st.icc
      let b := streak m.twiceB e (1000 * x.current < st.prof 0x1C 2 * st.icc)
      if 2 ≤ b then { m with twiceA := a, twiceB := 0, topUp := false } else { m with twiceA := a, twiceB := b }
    else
      let b := if v < st.cellMv 0x2A then m.twiceB + 1 else 0
      if 2 ≤ b then { m with twiceA := a, twiceB := 0, topUp := true } else { m with twiceA := a, twiceB := b }

def phaseEqualise (st : Strand) (m : ChargeMachine) (x : ChargeIn) : ChargeMachine :=
  if st.prof 0x36 2 * 60000000 ≤ m.phaseTime then m.enter x .rest else m

/-- Table 10-3. -/
def phaseRule (st : Strand) (m : ChargeMachine) (x : ChargeIn) : ChargeMachine :=
  match m.phase with
  | .check => phaseCheck st m x
  | .recover => phaseRecover st m x
  | .ramp => phaseRamp st m x
  | .cc => phaseCc m x
  | .cv => phaseCv st m x
  | .finish => phaseFinish st m x
  | .rest => phaseRest st m x
  | .maintain => phaseMaintain st m x
  | .equalise => phaseEqualise st m x
  | .halt => m

/-- HALT: the automatic resumption of R256; KEEP_ALIVE is released by the power path. -/
def resumeOrStay (s : State) (st : Strand) (m : ChargeMachine) (x : ChargeIn) : ChargeMachine :=
  let clear := match m.reason with
    | .temp | .tempUnknown => st.tempOk s (st.prof 0x3E 2)
    | .bmsStop => !st.bmsStop
    | _ => false
  let t := if !clear then 0 else if m.entered ≠ x.epoch then m.resumeTime + x.prevUs else m.resumeTime
  if clear && st.flag 2 && st.prof 0x48 2 * 1000000 ≤ t then m.enter x .check else { m with resumeTime := t }

/-- Auto-start: a strand in HALT IDLE enters CHECK at the first boundary after an epoch without RESUME (R256). -/
def State.autoStarts (s : State) (st : Strand) (m : ChargeMachine) : Bool :=
  !s.charge.autoStarted && !s.time.wordNow.getLsbD 6 && st.flag 1 && m.reason == .idle

/-- A lane counted now, or counted when it entered the mode (R257), is LATCHED or in CROWBAR (R243).  DEDUCED. -/
def State.protectionHalt (s : State) (st : Strand) (counted : BitVec 16) : Bool :=
  st.entries.any fun e => (counted ||| st.counted).getLsbD e
    && (recMode (st.record s e) == 7 || recMode (st.record s e) == 5)

/-- The machine's next state, in the order of R243. -/
def nextMachine (s : State) (st : Strand) (counted : BitVec 16) (x : ChargeIn) : ChargeMachine :=
  let m := st.mach.clocks x
  if s.protectionHalt st counted then
    if m.phase == .halt && m.reason == .protection then m else m.haltFor x .protection
  else if m.phase == .halt then
    if s.autoStarts st m then m.enter x .check else resumeOrStay s st m x
  else if st.mismatch s then m.haltFor x .mismatch
  else if (st.temps s).isEmpty then m.haltFor x .tempUnknown
  else if !st.tempOk s 0 then m.haltFor x .temp
  else if st.bmsStop then m.haltFor x .bmsStop
  else if counted = 0 then m.haltFor x .noLanes
  else if m.timedOut st then m.haltFor x .timeout
  else phaseRule st m x

/-- The phase current (Table 10-3). -/
def ChargeMachine.current (m : ChargeMachine) (st : Strand) : Nat :=
  match m.phase with
  | .recover => st.recoveryMa
  | .ramp => m.iRamp
  | .cc | .cv | .finish | .equalise => st.icc
  | .maintain => if m.topUp then st.prof 0x30 4 else 0
  | _ => 0

/-- The battery throttle of a strand (R393): its percentage. -/
def State.battPercent (s : State) (n : Nat) : Nat :=
  let l := getAt s.therm.frozen.strands n 0
  if l ≥ 3 then 0 else if l = 2 then byteAt (s.therm.battSet (s.strand n).chem) 10 else 100

/-- What the computation of a strand sees. -/
def chargeIn (s : State) (st : Strand) (counted : BitVec 16) : ChargeIn :=
  let es := st.entries.filter fun e => counted.getLsbD e
  let recs := es.map fun e => (e, st.record s e)
  let i := recs.foldl (fun a r => a + recCurrent r.2) 0
  { epoch := s.time.epoch
    us := s.time.length
    prevUs := s.time.prevLength
    vs := st.volts s
    current := i
    limit := getAt st.limits 1 0
    steady := recs.all fun r => recMode r.2 ≠ 1 && !((2 ≤ recMode r.2 && recMode r.2 ≤ 4) && !st.running.getLsbD r.1)
    loose := (recs.any fun r => recCurrent r.2 ≠ 0) && recs.all fun r => recCurrent r.2 = 0 || recBound r.2 ≤ 127
    closed := st.switchesClosed s }

/-- STRAND_LANE (Table 10-7). -/
def State.laneEvent (s : State) (n e reason : Nat) : State :=
  s.event 0x7F52 (le 1 n ++ le 1 e ++ le 1 reason ++ zeros 1 ++ le 4 s.time.epoch)

/-- The exclusions of a strand (R255): start failures, losses and rejoins, with their events. -/
def State.exclusions (s : State) (n : Nat) : State :=
  let st := s.strand n
  let was := getAt st.charged 1 0
  let before := getAt st.charged 2 0
  st.entries.foldl (fun s e =>
    let st := s.strand n
    let m := recMode (st.record s e)
    let s1 :=
      if was.getLsbD e && !before.getLsbD e && (m == 0 || m == 15) && !st.startFail.getLsbD e
          && s.takesPart (st.entry e).1 then
        (s.modStrand n fun x => { x with startFail := x.startFail.putBit e true }).laneEvent n e 1
      else s
    let gone := (st.entry e).1 ≠ 0 && (match s.slolos.ctxs[(st.entry e).1 - 1]? with
      | some c => c.state == .lost
      | none => true)
    if gone && !st.lostMask.getLsbD e then
      (s1.modStrand n fun x =>
        { x with lostMask := x.lostMask.putBit e true
                 holders := x.holders.filter fun h => h.1 ≠ (st.entry e).1 }).laneEvent n e 2
    else if !gone && st.lostMask.getLsbD e && s.takesPart (st.entry e).1 && st.holds s (st.entry e).1 then
      (s1.modStrand n fun x => { x with lostMask := x.lostMask.putBit e false }).laneEvent n e 3
    else s1) s

/-- The demand of a strand: R243 with the throttle of R393. -/
def Strand.demandOf (st : Strand) (s : State) (n : Nat) (m : ChargeMachine) (counted : BitVec 16) : Nat :=
  let total := (st.entries.filter fun e => counted.getLsbD e).foldl (fun a e => a + st.rating s e) 0
  Nat.min (m.current st) (Nat.min st.bmsCurrent total) * s.battPercent n / 100

/-- The first half of the computation for one strand (R243). -/
def State.computeStrand (s0 : State) (n : Nat) : State :=
  if (s0.strand n).body.isNone then s0
  else
    let s := s0.exclusions n
    let st := s.strand n
    let counted := st.countedMask s
    let x := chargeIn s st counted
    let m := nextMachine s st counted x
    s.modStrand n fun y =>
      { y with
        next := some m
        counted := counted
        vs := x.vs
        tempKnown := !(st.temps s).isEmpty
        current := if evaluatedNow st st.mach x then x.current else y.current
        currentNow := x.current
        running := st.entries.foldl (fun a e =>
          let r := recMode (st.record s e)
          a.putBit e (1 ≤ r && r ≤ 4)) 0
        demand := st.demandOf s n m counted }

/-! ### Plans (R253) -/

/-- A plan lowers some target. -/
def Plan.lowers (new old : Plan) : Bool :=
  new.main < old.main || new.recover < old.recover || new.maintain < old.maintain || new.equalise < old.equalise

/-- The STRAND_PLAN payload. -/
def Plan.payload (p : Plan) (n : Nat) : List Byte :=
  le 1 n ++ zeros 3 ++ le 4 p.main ++ le 4 p.recover ++ le 4 p.maintain ++ le 4 p.equalise ++ le 4 p.lsb

/-- The lowest tag that no internal command holds. -/
def Cmd.freeInternal (c : Cmd) : Nat :=
  ((List.range 128).find? fun t => t ≠ 0 && !(c.flights.any fun f => f.key.origin == .internal && f.key.tag == t)).getD 0

/-- The manager's Eupefen sends a plan to a worker, from the internal origin (R253, R329); a full queue or no tag leaves
it to the next epoch. -/
def State.sendPlan (s : State) (n k : Nat) (p : Plan) : State :=
  let t := s.cmd.freeInternal
  if t = 0 || Config.managerInternal ≤ (s.cmd.flights.filter (·.key.origin == .internal)).length
      || Config.queueEntries ≤ s.cmd.depth k then s
  else
    forward
      { key := { origin := .internal, chain := false, tag := t }, node := 0, opcode := 0x0420, flags := 0x40, target := k,
        bcast := false, sched := true, epoch := (s.time.epoch + 2) % 2 ^ 32, payload := p.payload n, phase := .forwarded,
        shortLead := false, shortMargin := false, accEpoch := s.time.epoch, awaited := [], answers := [],
        accepted := false, early := [], queues := [] } k s

/-- A plan of this strand to worker `k` is in flight and not accepted. -/
def Cmd.planInFlight (c : Cmd) (n k : Nat) : Bool :=
  c.flights.any fun f => f.key.origin == .internal && f.opcode == 0x0420 && f.target == k && byteAt f.payload 0 == n
    && !f.accepted

/-- The plan of a strand is decided and delivered. -/
def State.decidePlan (s : State) (n : Nat) : State :=
  let st := s.strand n
  if st.body.isNone then s
  else
    let p := st.wantedPlan
    let changed := st.planNew || st.planSent != some p
    let workers := st.dies.filter fun a => a ≠ 0 && s.enumerated a
    let owed :=
      if changed then workers
      else (st.planOwed.filter fun a => s.enumerated a)
        ++ workers.filter fun a => !(st.holders.any fun h => h.1 == a) && !st.planOwed.contains a
    let waits := st.planHold.filter fun a => workers.contains a
    let lowers := if changed then st.planSent.any p.lowers || !waits.isEmpty else st.planLowers
    let s1 := s.modStrand n fun x =>
      { x with planSent := some p, planOwed := owed, planLowers := lowers, planNew := false
               planHold := if changed && lowers then workers else waits
               planNext := if changed then x.planNext ++ [((s.time.epoch + 2) % 2 ^ 32, p)] else x.planNext }
    owed.foldl (fun s k => if s.cmd.planInFlight n k && !changed then s else s.sendPlan n k p) s1

/-- The worker has accepted the plan last decided; one that holds an earlier plan holds one until then. -/
def Strand.planAccepted (x : Strand) (k epoch : Nat) : Strand :=
  { x with planOwed := x.planOwed.filter (· ≠ k), planHold := x.planHold.filter (· ≠ k)
           holders := if x.holders.contains (k, none) then x.holders
             else (k, some epoch) :: x.holders.filter fun h => h.1 ≠ k }

/-- The worker has not taken the plan last decided: it is owed the plan again, and a plan that lowers a target holds the currents. -/
def Strand.planRefused (x : Strand) (k : Nat) : Strand :=
  { x with planOwed := if x.planOwed.contains k then x.planOwed else x.planOwed ++ [k]
           planHold := if x.planLowers && !x.planHold.contains k then x.planHold ++ [k] else x.planHold
           holders := x.holders.filter fun h => h.1 ≠ k || h.2.isNone }

/-- A worker has answered a STRAND_PLAN: ACCEPTED counts; after QUEUE_FULL, NO_TAG or TARGET_TIMEOUT, at receipt or in its completion, it
is sent again in the next epoch (R253). -/
def State.planAnswered (s : State) (f : Flight) (status : Byte) : State :=
  if f.opcode ≠ 0x0420 then s
  else s.modStrand (byteAt f.payload 0) fun x =>
    if !(x.planSent.any fun p => p.payload (byteAt f.payload 0) == f.payload) then x
    else if status == stAccepted then x.planAccepted f.target f.epoch
    else if status == stQueueFull || status == stNoTag || status == stTargetTimeout then x.planRefused f.target
    else x

/-! ### Lane codes (R249, R250) -/

/-- A lane field (Table 10-4). -/
def laneField (code current : Nat) : Nat := code * 4096 + Nat.min 4095 current

/-- The fields of a strand's entries for a code and a strand limit. -/
def Strand.fields (st : Strand) (s : State) (code limit : Nat) : List (Nat × Nat × Nat) :=
  let total := Nat.max 1 ((st.entries.filter fun e => st.counted.getLsbD e).foldl (fun a e => a + st.rating s e) 0)
  st.entries.map fun e =>
    let on := st.counted.getLsbD e && code ≠ 1
    let i := limit * st.rating s e / total
    ((st.entry e).1, (st.entry e).2.1,
      if on then laneField code (i / Nat.max 1 (st.prof 0x5C 4)) else laneField 1 0)

/-- The charging fields of a strand for the next epoch; a plan that lowers a target holds its currents at 0 (R253). -/
def State.chargeFields (s : State) (n : Nat) : List (Nat × Nat × Nat) :=
  let st := s.strand n
  match st.next with
  | some m => st.fields s m.laneCode
      (if !st.planHold.isEmpty || (st.planLowers && st.planNext.any (fun p => p.1 == (s.time.epoch + 2) % 2 ^ 32)) then 0
        else getAt st.limits 0 0)
  | none => st.fields s st.mach.laneCode (getAt st.limits 0 0)

/-- The strand limits and the charged entries of a computation (R243, R255). -/
def State.closeStrand (s : State) (n : Nat) : State :=
  let st := s.strand n
  if st.body.isNone then s
  else
    let lim := Nat.min st.demand st.share
    let code := (st.next.map (·.laneCode)).getD 1
    s.modStrand n fun x =>
      { x with
        limits := (lim :: x.limits).take 4
        charged := ((if code = 1 then 0 else x.counted) :: x.charged).take 4 }

/-! ### At a boundary (R242, R254, R256, R261) -/

/-- The limits received enter, and freshness is judged; a strand without a binding has none (R254). -/
def Strand.enterBms (x : Strand) (us : Nat) : Strand :=
  let k := ceilDiv ((if x.prof 0x46 2 = 0 then 500 else x.prof 0x46 2) * 1000) (Nat.max 1 us)
  match if x.flag 0 then x.bmsNew else none with
  | some b => { x with bms := some b, bmsNew := none, bmsAge := 0, bmsFresh := true }
  | none => { x with bmsAge := x.bmsAge + 1, bmsFresh := x.flag 0 && x.bms.isSome && x.bmsAge + 1 < k }

/-- Sampled limits enter at a boundary; a change between fresh and stale is reported. -/
def State.enterLimits (s : State) : State :=
  ((s.charge.strands.zipIdx).filter fun x => x.1.body.isSome).foldl (fun s x =>
    let y := x.1.enterBms s.time.length
    let s1 := s.modStrand x.2 fun _ => y
    if y.bmsFresh == x.1.bmsFresh then s1
    else s1.event 0x7F51 (le 1 x.2 ++ le 1 (bit (!y.bmsFresh)) ++ zeros 2 ++ le 4 s.time.epoch)) s

/-- The decided states take effect, unless a command has acted on the strand at this boundary (R259). -/
def State.applyMachines (s : State) : State :=
  s.modCharge fun c =>
    { c with strands := c.strands.map fun x =>
        match x.next with
        | some m => { x with mach := m, next := none }
        | none => x }

/-- Late decisions are dropped (R162). -/
def State.dropMachines (s : State) : State :=
  s.modCharge fun c => { c with strands := c.strands.map fun x => { x with next := none } }

/-- Plans that the home die holds for itself take effect, and those of the workers at their boundary. -/
def State.applyPlans (s : State) : State :=
  s.modCharge fun c =>
    { c with strands := c.strands.map fun (x : Strand) =>
        let y : Strand := { x with holders := x.holders.map fun h => (h.1, h.2.filter fun e => !reached s.time.epoch e) }
        match y.planNext.filter (fun p => reached s.time.epoch p.1) with
        | [] => y
        | p :: r => { y with plan := some ((r.getLastD p).2), planNext := y.planNext.filter fun p => !reached s.time.epoch p.1 } }

/-- The auto-start of R256 is over once decisions of an epoch without RESUME have been applied. -/
def State.autoStart (s : State) (late : Bool) : State :=
  if late || s.time.wordLast.getLsbD 6 then s else s.modCharge fun c => { c with autoStarted := true }

/-- CHARGE_PHASE of every strand whose phase changed at this boundary. -/
def State.phaseEvents (s : State) (old : List ChargePhase) : State :=
  ((s.charge.strands.zip old).zipIdx).foldl (fun s x =>
    let m := x.1.1.mach
    if m.phase == x.1.2 then s
    else s.event 0x7F50 (le 1 x.2 ++ le 1 x.1.2.code ++ le 1 m.phase.code
      ++ le 1 (if m.phase == .halt then m.reason.code else 0) ++ le 4 s.time.epoch ++ le 4 (unsigned 32 x.1.1.currentNow))) s

/-! ### The record (R236 to R238) -/

/-- Voltage ranges of Table 10-1 [0.1 mV per cell]. -/
def chemVolts : Nat → Nat × Nat
  | 0 => (39000, 42500) | 1 => (34000, 37000) | 2 => (25000, 28500) | _ => (13500, 16000)

/-- The serving-lane entries obey R238. -/
def servingOk (b : List Byte) : Bool :=
  let es := (List.range 16).filter fun e => byteAt b (0x60 + 8 * e) ≠ 0xFF
  let lanes := es.map fun e => (byteAt b (0x60 + 8 * e), byteAt b (0x61 + 8 * e))
  (es.all fun e => byteAt b (0x60 + 8 * e) < 64 && byteAt b (0x61 + 8 * e) < 4 && zeroAt b (0x62 + 8 * e) 2)
    && lanes.eraseDups.length == lanes.length && (lanes.map (·.1)).eraseDups.length ≤ 4

/-- A strand record body (Table 10-2, R237, R238). -/
def strandBodyOk (b : List Byte) : Bool :=
  let f := fun o n => fieldAt b o n
  let chem := byteAt b 0
  let w := chemVolts chem
  let lo := sfieldAt b 0x3A 2
  let hi := sfieldAt b 0x3C 2
  b.length == 224 && chem ≤ 3 && byteAt b 1 < 64 && 1 ≤ f 2 2 && f 2 2 ≤ 1200
    && 0 < f 4 4 && 1 ≤ f 8 4 && f 8 4 ≤ f 4 4
    && w.1 ≤ f 0xC 2 && f 0xC 2 ≤ w.2 && f 0xC 2 < f 0xE 2 && f 0x10 2 < f 0x12 2 && f 0x12 2 < f 0xC 2
    && 1 ≤ f 0x14 2 && f 0x14 2 ≤ 50 && 1 ≤ f 0x16 2 && f 0x18 2 ≤ 60000
    && 1 ≤ f 0x1A 2 && f 0x1A 2 ≤ 999 && f 0x1C 2 < f 0x1A 2 && 1 ≤ f 0x1E 2 && f 0x1E 2 ≤ 999
    && 1 ≤ f 0x20 2 && f 0x20 2 ≤ 4096 && 1 ≤ f 0x22 2 && 1 ≤ f 0x24 2 && 1 ≤ f 0x26 2
    && f 0x2A 2 < f 0x2E 2 && f 0x2C 2 < f 0x2A 2 && f 0x2E 2 ≤ f 0xC 2 && f 0x30 4 ≤ f 8 4
    && (if chem == 3 then 14500 ≤ f 0x34 2 && f 0x34 2 ≤ 16500 && f 0x36 2 ≤ 1440 && f 0x38 2 ≤ 1000
        else zeroAt b 0x34 6)
    && ((lo == 0x7FFF && hi == 0x7FFF) || lo < hi) && f 0x3E 2 ≤ 100 && f 0x40 4 ≤ f 8 4
    && w.1 ≤ f 0x44 2 && f 0x44 2 ≤ f 0xC 2 && (f 0x46 2 = 0 || (10 ≤ f 0x46 2 && f 0x46 2 ≤ 10000))
    && f 0x48 2 ≤ 3600 && 1 ≤ f 0x4A 2 && f 0x4A 2 ≤ 600
    && (byteAt b 0x4C < 64 || byteAt b 0x4C == 0xFF) && 1 ≤ byteAt b 0x4D && byteAt b 0x4D ≤ 100 && zeroAt b 0x4E 2
    && 0 < f 0x50 4 && f 0x54 4 ≤ 1000000 && f 0x58 2 ≤ 100 && byteAt b 0x5A ≤ 15
    && (byteAt b 0x5B < 8 || byteAt b 0x5B == 0xFF) && 1 ≤ f 0x5C 4 && f 0x5C 4 ≤ 65535
    && servingOk b
    && (bitAt b 1 0 || byteAt b 0x4C ≠ 0xFF) && (bitAt b 1 0 || byteAt b 0x5B ≠ 0xFF)

/-- A charge window that a record names lies within the certificate's for its chemistry (class 0x0A); the default of Table 10-1 is narrowed
to it instead (R237). -/
def windowFenceOk (b c : List Byte) : Bool :=
  let w := certWindow c (byteAt b 0)
  (fieldAt b 0x3A 2 = 0x7FFF && fieldAt b 0x3C 2 = 0x7FFF) || (w.1 ≤ sfieldAt b 0x3A 2 && sfieldAt b 0x3C 2 ≤ w.2)

/-- The values of a record against the certificate (R236): the compensation maximum, the charge window, and the voltages for the lanes of
this die; a worker's lanes are held to its own certificate by its own fence (log 112). -/
def State.strandFence (s : State) (b : List Byte) : Option Answer :=
  fenced s fun c => fieldAt b 0x58 2 ≤ certCv c && windowFenceOk b c && (List.range 16).all fun e =>
    byteAt b (0x60 + 8 * e) ≠ 0 ||
      (fieldAt b 0xC 2 * fieldAt b 2 2 / 10 ≤ certVout c (byteAt b (0x61 + 8 * e))
        && fieldAt b 0x34 2 * fieldAt b 2 2 / 10 ≤ certVout c (byteAt b (0x61 + 8 * e)))

/-! ### Commands of Table 10-7 -/

/-- The payload names a strand in byte 0. -/
def strandArg (p : List Byte) : Bool := byteAt p 0 < 16 && zeroAt p 1 3

def home (s : State) : Option Answer := need (!s.isWorker) 0x98

/-- The strand is configured. -/
def State.configured (s : State) (n : Nat) : Bool := (s.strand n).body.isSome

def strandConfigCheck (s j : State) (p : List Byte) : Option Answer :=
  firstOf
    [ need ((s.strand (byteAt p 0)).mach.phase == .halt) 0x9A,
      s.strandFence (p.drop 4),
      need (j.accsFree 0x0020 (p.drop 4)) 0xC1 ]

/-- The drop settings of a record (R252). -/
def dropOfRecord (b : List Byte) : Option (Nat × Nat) := if bitAt b 1 4 then some (fieldAt b 0x54 4, fieldAt b 0x58 2) else none

/-- A record takes effect: it clears the exclusions and the Q sums, and a new plan follows (R260). What waits for the acceptance of a plan
before it goes on waiting (R253). -/
def Strand.load (x : Strand) (b : List Byte) : Strand :=
  { x with
    body := some b, dropSet := dropOfRecord b, next := none, startFail := 0, lostMask := 0, reversed := 0, planNew := true
    bms := if bitAt b 1 0 then x.bms else none
    bmsNew := if bitAt b 1 0 then x.bmsNew else none
    bmsFresh := x.bmsFresh && bitAt b 1 0
    mach := { x.mach with qRef := 0, qRefCount := 0, qLast := [] } }

/-- A strand that had no record enters HALT IDLE with its first one. -/
def Strand.configure (x : Strand) (epoch : Nat) (b : List Byte) : Strand :=
  let y := x.load b
  if x.body.isSome then y else { y with mach := { y.mach with entered := epoch } }

def opStrandConfig : OpSpec :=
  { code := 0x0400, sched := .scheduled, bcast := true, eupefen := true
    check := fun s f => firstOf
      [ home s, needLength f 228,
        need (strandArg f.payload && strandBodyOk (f.payload.drop 4)) stBadParam, strandConfigCheck s (s.ahead f) f.payload ]
    run := fun s f => match strandConfigCheck s s f.payload with
      | some a => (s, some a)
      | none => okay (s.modStrand (byteAt f.payload 0) fun x => x.configure s.time.epoch (f.payload.drop 4)) }

/-- A serving lane is LATCHED or in CROWBAR (R257). -/
def Strand.latched (x : Strand) (s : State) : Bool :=
  x.entries.any fun e => recMode (x.record s e) == 7 || recMode (x.record s e) == 5

def chargeStartCheck (s : State) (p : List Byte) : Option Answer :=
  let x := s.strand (byteAt p 0)
  firstOf
    [ need (s.configured (byteAt p 0)) stBadParam,
      need (x.mach.phase == .halt && !x.latched s) 0x9A,
      need (x.tempOk s (x.prof 0x3E 2)) stTempForbidden ]

/-- CHECK from this boundary on; start failures end (R255, R256). -/
def Strand.start (x : Strand) (epoch : Nat) : Strand :=
  { x with
    next := none, startFail := 0
    mach := { x.mach with
      phase := .check, reason := .idle, entered := epoch, prior := x.mach.phase, phaseTime := 0, twiceA := 0, twiceB := 0, topUp := false,
      resumeTime := 0 } }

def opChargeStart : OpSpec :=
  { code := 0x0401, sched := .scheduled, bcast := true, eupefen := true
    check := fun s f => firstOf [home s, needLength f 4, need (strandArg f.payload) stBadParam, chargeStartCheck s f.payload]
    run := fun s f => match chargeStartCheck s f.payload with
      | some a => (s, some a)
      | none => okay (s.modStrand (byteAt f.payload 0) fun x => x.start s.time.epoch) }

def opChargeStop : OpSpec :=
  { code := 0x0402, sched := .scheduled, bcast := true, eupefen := true
    check := fun s f => firstOf
      [home s, needLength f 4, need (strandArg f.payload && s.configured (byteAt f.payload 0)) stBadParam]
    run := fun s f => okay (s.modStrand (byteAt f.payload 0) fun x =>
      { x with next := none
               mach := { x.mach with phase := .halt, reason := .host, entered := s.time.epoch, prior := x.mach.phase, phaseTime := 0, twiceA := 0,
                                     twiceB := 0, topUp := false, resumeTime := 0 } }) }

def opChargeEqualise : OpSpec :=
  { code := 0x0403, sched := .scheduled, bcast := true, eupefen := true
    check := fun s f => firstOf
      [ home s, needLength f 4, need (strandArg f.payload && s.configured (byteAt f.payload 0)) stBadParam,
        need ((s.strand (byteAt f.payload 0)).chem == 3) 0x99 ]
    run := fun s f =>
      if (s.strand (byteAt f.payload 0)).chem == 3 then
        okay (s.modStrand (byteAt f.payload 0) fun x =>
          { x with next := none, mach := { x.mach with equaliseDue := true } })
      else answer s 0x99 }

/-- Table 10-8. -/
def Strand.status (x : Strand) : List Byte :=
  let m := x.mach
  le 1 m.phase.code ++ le 1 (if m.phase == .halt then m.reason.code else 0)
    ++ le 1 (bit x.bmsFresh + 2 * bit x.tempKnown + 4 * bit (!x.planOwed.isEmpty || !x.planNext.isEmpty) + 8 * bit m.topUp
        + 16 * bit (m.due x))
    ++ zeros 1 ++ le 4 m.entered ++ le 4 (unsigned 32 x.current) ++ le 4 (x.vs.getD 0xFFFFFFFF) ++ le 4 x.demand
    ++ le 4 (getAt x.limits 0 0) ++ le 4 (unsigned 32 (m.accepted / 1000000000)) ++ le 2 x.counted.toNat ++ le 2 m.completed

/-- STRAND_STATUS as it stands at the boundary that has acted: with the strand voltage and the temperatures of its snapshot (R261). -/
def State.showStrands (s : State) : State :=
  s.modCharge fun c =>
    { c with strands := c.strands.map fun x =>
        { x with shown := { x with vs := x.volts s, tempKnown := !(x.temps s).isEmpty }.status } }

/-- The reply: the state as it stood at the latest boundary; before the first one, as it is (R261). -/
def Strand.reply (x : Strand) : List Byte := if x.shown.isEmpty then x.status else x.shown

def opStrandStatus : OpSpec :=
  { code := 0x0404, sched := .unscheduled, bcast := false, eupefen := true
    check := fun s f => firstOf
      [home s, needLength f 4, need (strandArg f.payload && s.configured (byteAt f.payload 0)) stBadParam]
    run := fun s f => okayWith s (s.strand (byteAt f.payload 0)).reply }

/-- The message of a BMS_LIMITS payload. -/
def Bms.ofBytes (p : List Byte) : Bms :=
  { chargeOk := bitAt p 1 0, dischargeOk := bitAt p 1 1, iCharge := fieldAt p 4 4, vCharge := fieldAt p 8 4,
    iDischarge := fieldAt p 12 4, vDischarge := fieldAt p 16 4, vPack := fieldAt p 20 4, tMin := sfieldAt p 24 2,
    tMax := sfieldAt p 26 2 }

def opBmsLimits : OpSpec :=
  { code := 0x0410, sched := .unscheduled, bcast := true, eupefen := true
    check := fun s f => firstOf
      [ home s, needLength f 32,
        need (byteAt f.payload 0 < 16 && byteAt f.payload 1 < 4 && zeroAt f.payload 2 2
          && s.configured (byteAt f.payload 0) && (s.strand (byteAt f.payload 0)).flag 0
          && sfieldAt f.payload 24 2 ≤ sfieldAt f.payload 26 2) stBadParam ]
    run := fun s f => okay (s.modStrand (byteAt f.payload 0) fun x => { x with bmsNew := some (Bms.ofBytes f.payload) }) }

def opStrandPlan : OpSpec :=
  { code := 0x0420, sched := .scheduled, bcast := true, eupefen := true
    check := fun _ f => firstOf
      [needLength f 24, need (f.key.origin == .internal && strandArg f.payload) stBadParam]
    run := fun s f => okay (s.modStrand (byteAt f.payload 0) fun x =>
      { x with plan := some { main := fieldAt f.payload 4 4, recover := fieldAt f.payload 8 4,
                              maintain := fieldAt f.payload 12 4, equalise := fieldAt f.payload 16 4,
                              lsb := fieldAt f.payload 20 4 } }) }

def execStrandConfig (h : Hdr) (p : List Byte) (s : State) : Host.Outcome State Fault Refusal :=
  .next (receive opStrandConfig h p s)

def execChargeStart (h : Hdr) (p : List Byte) (s : State) : Host.Outcome State Fault Refusal :=
  .next (receive opChargeStart h p s)

def execChargeStop (h : Hdr) (p : List Byte) (s : State) : Host.Outcome State Fault Refusal :=
  .next (receive opChargeStop h p s)

def execChargeEqualise (h : Hdr) (p : List Byte) (s : State) : Host.Outcome State Fault Refusal :=
  .next (receive opChargeEqualise h p s)

def execStrandStatus (h : Hdr) (p : List Byte) (s : State) : Host.Outcome State Fault Refusal :=
  .next (receive opStrandStatus h p s)

def execBmsLimits (h : Hdr) (p : List Byte) (s : State) : Host.Outcome State Fault Refusal :=
  .next (receive opBmsLimits h p s)

def execStrandPlan (h : Hdr) (p : List Byte) (s : State) : Host.Outcome State Fault Refusal :=
  .next (receive opStrandPlan h p s)

end Sys2Proof.Machine
end

