-- ==== Sys2Proof/Machine/Conversion.lean ====
section
/-!
DEFINITION. The conversion engine: decimators, frames, the loop filter, lane modes, tuning and telemetry (08).
-/
namespace Sys2Proof.Machine

/-! ### Rounding that the spec leaves open -/

/-- A quotient whose rounding the spec does not give: one of the two neighbours, by its place and its operands alone (R159, log 36). -/
def roundOpen (place : Nat) (num : Int) (den : Nat) : Int :=
  if num % (den : Int) = 0 then num / (den : Int) else num / (den : Int) + bit (Config.roundUp place num den)

/-! ### Inputs of a lane (Tables 08-1, 08-9) -/

def Lane.strand (l : Lane) : Nat := l.prof 2 1
def Lane.stringInput (l : Lane) : Nat := l.prof 0x14 1
def Lane.linkInput (l : Lane) : Nat := l.prof 0x15 1
def Lane.stringScale (l : Lane) : Nat := l.prof 0x18 4
def Lane.linkScale (l : Lane) : Nat := l.prof 0x1C 4
def Lane.legScale (l : Lane) : Nat := l.prof 0x20 4
def Lane.legRating (l : Lane) : Nat := l.prof 0x24 4
/-- The lane rating: leg rating times active legs (R194). -/
def Lane.rating (l : Lane) : Nat := l.legRating * l.count
def Lane.flag (l : Lane) (i : Nat) : Bool := (l.prof 3 1).testBit i
def Lane.dmin (l : Lane) : Int := l.prof 0x0C 2
def Lane.dmax (l : Lane) : Int := l.prof 0x0E 2

/-- The input that a function regulates (Table 08-5). -/
def Lane.regInput (l : Lane) : Nat := if l.fn == .boost then l.linkInput else l.stringInput
def Lane.regScale (l : Lane) : Nat := if l.fn == .boost then l.linkScale else l.stringScale

/-- The inputs that a configured lane uses (R167). -/
def Lane.uses (l : Lane) (n : Nat) : Bool :=
  l.body.isSome && l.prof 0 2 ≠ 0 &&
  (if n < 16 then (l.prof 0 2).testBit n || (l.newLegs.getD 0 ||| l.legs).getLsbD n else n == l.stringInput || n == l.linkInput)

/-- An input is used by some lane. -/
def Conv.used (c : Conv) (n : Nat) : Bool := c.lanes.any fun l => l.uses n

/-- MCLK0 and MCLK1 run while a configured lane uses an input of their group (R167, Table 08-1). -/
def Conv.mclk (c : Conv) (group : Nat) : Bool :=
  (List.range 20).any fun n =>
    c.used n && (if group = 0 then n < 8 || n == 16 || n == 17 else (8 ≤ n && n < 16) || n == 18 || n == 19)

/-- The lane whose settings an input follows: the leg's lane, or the lowest-numbered lane that uses a voltage input. -/
def Conv.inputLane (c : Conv) (n : Nat) : Option Nat :=
  (List.range c.lanes.length).find? fun k => (c.lane k).uses n

/-- OSR of an input (Table 08-9, offset 0x13). -/
def Conv.osr (c : Conv) (n : Nat) : Nat :=
  let f := match c.inputLane n with
    | some k => (c.lane k).prof 0x13 1
    | none => 0
  let code := if n < 16 then f % 4 else f / 4 % 4
  16 * 2 ^ code

/-- The output value for a sinc3 sum (R169). -/
def decimCode (osr sum : Nat) : Int := Nat.min 65535 (65536 * sum / osr ^ 3) - 32768

/-- An output arrives: the first three after the start are discarded (R169). -/
def Decimator.put (d : Decimator) (v : Int) : Decimator :=
  if d.seen < 3 then { d with seen := d.seen + 1 }
  else { d with seen := 4, newest := some v, sum := d.sum + v, num := d.num + 1 }

/-- Codes of a voltage in mV at a full scale, compared without rounding: `v > mv`. -/
def overMv (v : Int) (scale mv : Nat) : Bool := v * (scale : Int) > (mv : Int) * 32768

/-! ### Targets and limits (R185) -/

/-- The host's terms. -/
def State.hostTerms (s : State) (k : Nat) : Nat × Nat :=
  let l := s.lane k
  match l.host with
  | some t => t
  | none =>
    if l.strand == 0xFF then (0, 0)
    else match s.limits with
      | some b => (certVout b k, certIcharge b k)
      | none => (2 ^ 32 - 1, 2 ^ 32 - 1)

/-- The voltage target [mV]: the host's and, for a strand lane, the charge machine's; a strand lane in BOOST holds the
link (R281), and an auto-reversed lane its threshold (R191). -/
def State.targetMv (s : State) (k : Nat) : Nat :=
  let l := s.lane k
  if l.autoReversed then l.prof 0x88 4
  else if s.pendantLane k then
    if l.fn == .boost && l.strand ≠ 0xFF then
      match l.host with
      | some t => Nat.min t.1 (s.pendant.ref.getD 0)
      | none => s.pendant.ref.getD 0
    else Nat.min (s.hostTerms k).1 (s.pendant.ref.getD 0)
  else if l.fn == .boost && l.strand ≠ 0xFF then l.linkHold
  else match l.plan with
    | some p => Nat.min (s.hostTerms k).1 p.1
    | none => (s.hostTerms k).1

/-- The certificate's term of the current limit for the function that the lane runs. -/
def State.certCurrent (s : State) (k : Nat) : Nat :=
  match s.limits with
  | some b => if (s.lane k).fn == .boost then certIboost b k else certIcharge b k
  | none => 2 ^ 32 - 1

/-- The thermal cap [mA] (R389); it bounds the limit at level 2 and above only. -/
def State.thermalCap (s : State) (k limit : Nat) : Nat :=
  let f := s.therm.fraction k
  if f < 100 then Nat.min limit (f * (s.lane k).rating / 100) else limit

/-- The current limit i_lim [mA], apart from the thermal cap. -/
def State.policyLimit (s : State) (k : Nat) : Nat :=
  let l := s.lane k
  if l.autoReversed then s.certCurrent k
  else
    let host := Nat.min (s.hostTerms k).2 (s.certCurrent k)
    let share := if s.prot.shareZero.getLsbD k then 0 else match l.share with
      | some x => x
      | none => host
    let plan := match l.plan with
      | some p => if l.fn == .boost then host else p.2
      | none => host
    Nat.min host (Nat.min share plan)

/-- The current limit i_lim [mA] (R185, R389). -/
def State.limitMa (s : State) (k : Nat) : Nat := s.thermalCap k (s.policyLimit k)

/-! ### Starting and reversing a lane (R180, R190, R193) -/

/-- The newest valid voltage of an input. -/
def State.volts (s : State) (input : Nat) : Option Int := (s.conv.decim input).newest

/-- The start offset of a lane's first frame [steps] (R180). -/
def State.frameOffset (s : State) (k period : Nat) : Nat :=
  if period = 0 then 0 else crc32c (s.otp.dieId ++ le 1 k) % period

/-- The measurement of LANE_START: the regulated voltage, and in BOOST the larger of the two sides (R193). -/
def State.startVolts (s : State) (k : Nat) : Option Int :=
  let l := s.lane k
  match l.fn with
  | .boost =>
    match s.volts l.linkInput, s.volts l.stringInput with
    | some a, some b => some (max a (b * (l.stringScale : Int) / (Nat.max 1 l.linkScale : Int)))
    | _, _ => none
  | _ => s.volts l.stringInput

/-- Every decimator of the lane has a valid output (R193). -/
def State.inputsReady (s : State) (k : Nat) : Bool :=
  (s.startVolts k).isSome && (s.lane k).legs.members.all fun n => (s.volts n).isSome

/-- SOFTSTART begins from a measurement (R193). -/
def Lane.ramp (l : Lane) (v : Int) : Lane :=
  { l with awaitDecim := false, vStart := v, rt := if l.fn == .boost then v else 0, lowsHeld := l.fn != .boost && 0 < v }

/-- The decimator sums of a lane's leg inputs restart with the frame (Table 08-4, step 1). -/
def State.clearMeans (s : State) (m : BitVec 16) : State :=
  s.modConv fun c =>
    { c with
      decims := (c.decims.zipIdx).map fun x =>
        if x.2 < 16 && m.getLsbD x.2 then { x.1 with sum := 0, num := 0 } else x.1 }

/-- Edge steps of a core tick (R60, 08). -/
def stepsPerTick : Nat := 32

/-- The lane starts in a function through SOFTSTART; its filter, limiter, trims and duties start cleared (log 61). -/
def State.startLane (s : State) (k : Nat) (fn : LaneFn) : State :=
  let s1 := ((s.clearMeans (s.lane k).legs).modLegs (s.lane k).legs fun g =>
      { g with trim := 0, duty := 0, prev := 0, due := false, left := 0, drive := .low, lowHeldOff := false }).modLane k fun l =>
    let p := l.newPeriod.getD l.period
    { l with
      fn := fn, frames := 0, rt := 0, rc := 0, r := 0, u := 0, uCode := 0, uHist := [0, 0, 0], eHist := [0, 0, 0, 0],
      period := p, newPeriod := none, startOffset := s.frameOffset k p, rotCount := 0, rotFirst := 0, stepping := false,
      nextAt := stepsPerTick * s.time.sysTime + s.frameOffset k p, extra := 0, lowFrames := 0,
      shortCount := 0, limitAct := false, burstLeft := 0, sleeping := false, wake := false, wakeRegulate := false,
      brakeHold := 0, reversal := none, lowLink := 0, autoReversed := false, awaitDecim := true, lowsHeld := false }
  let s2 := match s1.inputsReady k, s1.startVolts k with
    | true, some v => s1.modLane k fun l => l.ramp v
    | _, _ => s1
  s2.setMode k .softstart

/-- A running lane begins a reversal (R190): after the frame in progress, which ends a BURST sleep (R195). -/
def State.reverse (s : State) (k : Nat) (fn : LaneFn) : State :=
  let l := s.lane k
  if !l.mode.running then s
  else if l.linkInput == 0xFF then s.modLane k fun l => { l with failedReversals := l.failedReversals + 1 }
  else s.modLane k fun l => { l with reversal := some { fn := fn, resting := false } }

/-- A reversal made at a boundary also sends LANE_MODE (R210). -/
def State.reverseAtBoundary (s : State) (k : Nat) (fn : LaneFn) : State :=
  let l := s.lane k
  if l.mode.running && l.linkInput != 0xFF then (s.modeEvent k l.mode.code LaneMode.regulate.code).reverse k fn
  else s.reverse k fn

/-- A running lane takes a change of targets, coefficients or legs: BURST sleep ends at the next frame start (R195). -/
def Lane.disturb (l : Lane) : Lane := if l.sleeping then { l with wake := true, wakeRegulate := true } else l

/-! ### The frame (Table 08-4) -/

/-- The mean of the decimator outputs of the frame that ends; the newest output where the frame had none (log 37). -/
def State.frameMean (s : State) (n : Nat) : Int :=
  let d := s.conv.decim n
  if d.num = 0 then d.newest.getD 0 else roundOpen 1 d.sum d.num

/-- Changes that wait for the frame start: the leg set (R179), the period (R178), and the rotation (R176). A frame with such a change takes
no step and is the first of the next K (R177, log 110). -/
def Lane.frameChanges (l : Lane) : Lane :=
  let changed := l.newLegs.isSome || l.newPeriod.isSome
  let l1 := { l with
    legs := l.newLegs.getD l.legs
    newLegs := none
    period := l.newPeriod.getD l.period
    newPeriod := none
    extra := 0
    ep := if l.newLegs.isSome then { l.ep with legsChanged := true } else l.ep }
  let k := l1.prof 0x12 1
  let n := l1.count
  let rotates := 2 ≤ k && 1 < n
  if changed then
    { l1 with rotCount := bit rotates, rotFirst := if l.newLegs.isSome then 0 else l1.rotFirst, stepping := false }
  else if rotates && k ≤ l1.rotCount + 1 then
    { l1 with rotCount := 0, rotFirst := (l1.rotFirst + n - 1) % n, stepping := true }
  else { l1 with rotCount := if rotates then l1.rotCount + 1 else 0, stepping := false }

/-! ### The slots of a frame (R175 to R179) -/

/-- The rank of a leg in the firing order. -/
def Lane.rank (l : Lane) (n : Nat) : Nat := (l.legs.members.filter (· < n)).length

/-- The slot of a leg: the leg of rank `rotFirst` has slot 0, in a step frame without a turn-on. -/
def Lane.slot (l : Lane) (n : Nat) : Nat := (l.rank n + (l.count - l.rotFirst)) % Nat.max 1 l.count

/-- The offset of a slot from the start of the frame [steps] (R175). -/
def Lane.slotOffset (l : Lane) (j : Nat) : Nat := j * l.period / Nat.max 1 l.count

/-- The leg fires in the frame in progress (R176). -/
def Lane.fires (l : Lane) (n : Nat) : Bool := l.legs.getLsbD n && !(l.stepping && l.slot n == 0)

/-- The length of the frame in progress: P, and in a lock's transition period P plus the shift (R181). -/
def Lane.frameLength (l : Lane) : Nat := l.period + l.extra

/-- Steps from the start of a frame to the first turn-on of a leg in it or, where the leg skips it, in the next. -/
def Lane.turnOnIn (l : Lane) (n : Nat) : Nat := if l.fires n then l.slotOffset (l.slot n) else l.frameLength

/-- The turn-off of the low side, DT_LH before a turn-on that lies `next` steps after the latest (R172). -/
def Lane.lowOffAt (l : Lane) (next : Nat) : Nat := next - l.prof 0x08 2

/-- The low sides that are on follow a change of the schedule: the next turn-on of a leg that fires no more in the frame in progress lies
in the next (R178, R179). -/
def State.replan (s : State) (k : Nat) : State :=
  let l := s.lane k
  let next := l.frameChanges
  s.modConv fun c =>
    { c with
      legs := (c.legs.zipIdx).map fun y =>
        if next.legs.getLsbD y.2 && y.1.drive == .pulses && !(y.1.due && l.newLegs.isNone) then
          { y.1 with lowOffAt := l.lowOffAt (y.1.left + next.turnOnIn y.2) }
        else y.1 }

/-- The steps that a phase lock adds to a follower's frame, which starts at `at_` (R181): the next frame start then follows the leader's by
m x P / 256. -/
def Lane.lockShift (leader : Lane) (at_ m : Nat) : Nat :=
  (((leader.nextAt : Int) + (m * leader.period / 256 : Nat) - (at_ : Int)) % (Nat.max 1 leader.period : Int)).toNat

/-- The first frame start of a follower after the boundary of its lock sets the offset (R181). The leader runs; until it does, the lock waits
(log 109). -/
def State.lockFrame (s : State) (k : Nat) : State :=
  let l := s.lane k
  match l.phaseLock with
  | some (j, m) =>
    if !l.lockSet && (s.lane j).mode.running then
      s.modLane k fun l => { l with extra := (s.lane j).lockShift l.nextAt m, lockSet := true }
    else s
  | none => s

/-- A frame opens: the changes that wait for it apply, a leaving leg completes its pulse, and the turn-ons of the frame are due. -/
def State.openFrame (s : State) (k : Nat) : State :=
  let old := s.lane k
  let s1 := ((s.endPulses (old.legs &&& ~~~(old.newLegs.getD old.legs))).modLane k Lane.frameChanges).lockFrame k
  let l := s1.lane k
  (s1.modConv fun c =>
    { c with
      legs := (c.legs.zipIdx).map fun y =>
        if l.legs.getLsbD y.2 then
          { y.1 with
            due := l.fires y.2
            lowOffAt := if y.1.drive == .pulses then l.lowOffAt (y.1.left + l.turnOnIn y.2) else y.1.lowOffAt
            left := y.1.left + l.frameLength }
        else y.1 }).modLane k fun l => { l with nextAt := l.nextAt + l.frameLength }

/-- One frame's worth of the soft-start slope, at least one code (R193). -/
def Lane.slope (l : Lane) (target : Int) : Int :=
  max 1 ((target * (l.period : Int)) / (6400000 * (Nat.max 1 (l.prof 0x30 2) : Int)))

/-- The ramped target: the ramp in SOFTSTART, the target otherwise. -/
def Lane.rampTo (l : Lane) (target : Int) : Int :=
  if l.mode == .softstart then
    if l.rt ≤ target then min target (l.rt + l.slope target) else max target (l.rt - l.slope target)
  else target

/-- The sum of the loop filter (R182) in units of 2^-24 of a duty code held with `filterBits` more bits. -/
def filterSum (b : List Int) (e u : List Int) : Int :=
  2 * (2 ^ Config.filterBits : Int) *
      (getAt b 0 0 * getAt e 0 0 + getAt b 1 0 * getAt e 1 0 + getAt b 2 0 * getAt e 2 0 + getAt b 3 0 * getAt e 3 0)
    + (getAt b 4 0 * getAt u 0 0 + getAt b 5 0 * getAt u 1 0 + getAt b 6 0 * getAt u 2 0)

/-- The coefficient set in use (R183). -/
def Lane.coeffs (l : Lane) : List Int := if l.fn == .boost then l.boost else l.buck

/-- The lane's tuning perturbs this frame (R199): the strand's phase is the caller's. -/
def Lane.perturbs (l : Lane) (strandInCc : Bool) : Bool :=
  l.flag 3 && l.tuning.mode ≠ 0 && l.mode == .regulate && l.fn == .charge && strandInCc
    && 9 * l.lastFrames ≤ 10 * l.lastBound && 0 < l.lastFrames

/-- One step of the 15-bit sequence x^15 + x^14 + 1 (R199). -/
def nextSeq (x : Nat) : Nat := (2 * x + (if (x / 16384 + x / 8192) % 2 = 1 then 1 else 0)) % 32768

/-- The short of R216: the frame that ends was limited while r_t was below half its target. -/
def Lane.shortFrames (l : Lane) (target : Int) : Nat :=
  if l.limitAct && 2 * l.rt < target then l.shortCount + 1 else 0

/-- A leg of the frame: the trim (R186), its duty, and the low side held off by reverse blocking (R187) or soft start. -/
def Leg.frame (g : Leg) (l : Lane) (trim duty : Int) (blocked : Bool) : Leg :=
  { g with
    trim := trim
    prev := g.duty
    duty := duty.toNat
    lowHeldOff := blocked || l.lowsHeld
    drive := if l.mode == .brake || l.awaitDecim then .low else g.drive }

/-- The trims of a lane's legs: t_k + Kt x (mean - i_k), clamped (R186). Held in units that `trimBits` refines. -/
def State.trims (s : State) (l : Lane) (mean : Int) (is : List (Nat × Int)) : List (Nat × Int) :=
  is.map fun x =>
    let unit : Int := 2 ^ Config.trimBits
    let d := roundOpen 9 ((l.prof 0x2C 2 : Int) * (mean - x.2) * 2 * unit) 65536
    let m : Int := (l.prof 0x2E 2 : Int) * unit
    (x.1, clampInt (-m) m ((s.conv.leg x.1).trim + d))

/-- The sampled part of a frame: all that its computation needs. -/
structure FrameIn where
  legs : List (Nat × Int)
  sum : Int
  mean : Int
  v : Int
  vLink : Option Int
  target : Int
  limit : Int
deriving DecidableEq, Repr

/-- Step 1 of Table 08-4: the samples, and the target and limit as codes. -/
def State.sample (s : State) (k : Nat) : FrameIn :=
  let l := s.lane k
  let ns := l.legs.members
  let is := ns.map s.frameMean
  let sum := is.foldl (· + ·) 0
  let n := Nat.max 1 ns.length
  { legs := ns.zip is, sum := sum, mean := roundOpen 2 sum n, v := (s.volts l.regInput).getD 0,
    vLink := if l.linkInput == 0xFF then none else s.volts l.linkInput,
    target := min (roundOpen 3 ((s.targetMv k : Int) * 32768) (Nat.max 1 l.regScale)) 32767,
    limit := roundOpen 4 ((s.limitMa k : Int) * 32768) (Nat.max 1 (l.legScale * n)) }

/-- The lane current of a frame [mA]. -/
def FrameIn.current (x : FrameIn) (l : Lane) : Int := x.sum * (l.legScale : Int) / 32768

/-- Steps 2 and 3: limiter, filter, trims, duties and the telemetry of the frame. -/
def State.compute (s : State) (k : Nat) (x : FrameIn) (strandInCc : Bool) : State :=
  let l := s.lane k
  let rt := l.rampTo x.target
  let lu : Int := 2 ^ Config.limiterBits
  let dir : Int := if l.fn == .boost then -1 else 1
  let dr := roundOpen 5 ((l.prof 0x28 4 : Int) * (x.limit - dir * x.mean) * lu) (2 ^ 24)
  let rc := max 0 (min (rt * lu) (l.rc + dr))
  let bound := rc < rt * lu
  let r := min rt (roundOpen 6 rc (2 ^ Config.limiterBits))
  let e := clampInt (-32768) 32767 (if l.fn == .boost then x.v - r else r - x.v)
  let eh := e :: l.eHist.take 3
  let fu : Int := 2 ^ Config.filterBits
  let raw := roundOpen 7 (filterSum l.coeffs eh l.uHist) (2 ^ 24)
  let u := if l.mode == .brake then l.dmin * fu else clampInt (l.dmin * fu) (l.dmax * fu) raw
  let uc := roundOpen 8 u (2 ^ Config.filterBits)
  let sign : Int := if Config.tuneSign l.tuning.seq then 1 else -1
  let pert := l.perturbs strandInCc && u == raw && l.dmin ≤ uc + 655 * sign && uc + 655 * sign ≤ l.dmax
  let ud := if pert then uc + 655 * sign else uc
  let ts := s.trims l x.mean x.legs
  let unit : Int := 2 ^ Config.trimBits
  let duties := ts.map fun t => (t.1, clampInt l.dmin l.dmax (ud + t.2 / unit))
  let blocked := fun (n : Nat) => l.fn == .charge &&
    (x.legs.any fun y => y.1 == n && y.2 * 100 < -65536)
  let l1 := { l with rt := rt, lowsHeld := l.lowsHeld && rt < l.vStart }
  let s6 := s.modConv fun c =>
    { c with
      legs := (c.legs.zipIdx).map fun y =>
        match ts.find? (fun z => z.1 == y.2), duties.find? (fun z => z.1 == y.2) with
        | some t, some d => y.1.frame l1 t.2 d.2 (blocked y.2)
        | _, _ => y.1 }
  let power := match x.vLink with
    | some v => v * ((x.legs.map fun y =>
        y.2 * (((duties.find? (fun z => z.1 == y.1)).map (·.2)).getD 0)).foldl (· + ·) 0)
    | none => 0
  let signs := (if pert then sign else 0) :: l.tuning.signs.take 31
  s6.modLane k fun l =>
    { l with
      frames := (l.frames + 1) % 2 ^ 32
      rt := rt, rc := rc, r := r, u := u, uCode := uc.toNat, uHist := u :: l.uHist.take 2, eHist := eh
      current := x.current l
      lowsHeld := l1.lowsHeld
      limitAct := false
      brakeHold := l.brakeHold - 1
      tuning := if l.perturbs strandInCc then
          { l.tuning with
            seq := nextSeq l.tuning.seq
            signs := signs
            done := if l.tuning.mode = 2 then l.tuning.done + 1 else l.tuning.done
            sums := if pert then (l.tuning.sums.zipIdx).map fun z =>
                z.1 + (getAt signs (z.2 % 32) 0) * (if z.2 < 32 then x.mean else x.v)
              else l.tuning.sums }
        else l.tuning
      sticky := l.sticky ||| BitVec.ofNat 8 (bit (uc == l.dmax) * 2 + bit bound)
      ep := { l.ep with
        frames := l.ep.frames + 1
        sumI := l.ep.sumI + x.sum
        peakI := if x.sum.natAbs > l.ep.peakI.natAbs then x.sum else l.ep.peakI
        sumD := l.ep.sumD + uc.toNat
        peakD := Nat.max l.ep.peakD uc.toNat
        sumP := l.ep.sumP + power
        bound := l.ep.bound + bit bound
        atDmax := l.ep.atDmax || uc == l.dmax
        blocked := l.ep.blocked || x.legs.any (fun y => blocked y.1)
        tuned := l.ep.tuned || pert } }

/-- Mode rules after the computation: SOFTSTART reaches its target (R193), BURST entry (R194; the frame of the entry is the first of the
burst), auto-reversal (R191). -/
def State.frameModes (s : State) (k : Nat) (x : FrameIn) (strandInCc : Bool) : State :=
  let l := s.lane k
  let low := l.current.natAbs * 100 < l.burstThreshold * l.rating
  let autoArmed := l.flag 2 && s.boostPermitted && l.fn == .charge && l.mode != .burst
  let s1 := if l.mode == .softstart && l.rt == x.target then s.setMode k .regulate else s
  if l.mode == .regulate && l.flag 1 && l.burstThreshold ≠ 0 && l.fn != .boost && !autoArmed
      && !l.perturbs strandInCc && low && l.lowFrames + 1 ≥ 16 then
    (s1.setMode k .burst).modLane k fun l =>
      { l with burstLeft := l.burstLength - 1, lowFrames := 0, sticky := l.sticky ||| 8
               ep := { l.ep with bursts := satAdd 255 l.ep.bursts 1 } }
  else
    let below := match x.vLink with
      | some v => !overMv v l.linkScale (l.prof 0x88 4) && v * (l.linkScale : Int) ≠ (l.prof 0x88 4 : Int) * 32768
      | none => false
    let s2 := s1.modLane k fun y =>
      { y with lowFrames := if l.mode == .regulate && low then l.lowFrames + 1 else 0
               lowLink := if autoArmed && below then l.lowLink + 1 else 0 }
    if autoArmed && below && l.lowLink + 1 ≥ 2 && l.reversal.isNone then
      ((s2.reverse k .boost).modLane k fun l => { l with autoReversed := true, lowLink := 0 }).event 0x7F32
        (le 1 k ++ le 1 1 ++ zeros 2 ++ le 4 s.time.epoch ++ le 4 s.time.tick)
    else s2

/-- The frame of rest of a reversal: all gates off. A lane in BURST or BRAKE is in REGULATE from here on (R190, R195). -/
def State.rest (s : State) (k : Nat) (rv : Reversal) : State :=
  let l := s.lane k
  let s1 := if l.mode == .burst || l.mode == .brake then s.setMode k .regulate else s
  (s1.gatesLow k).modLane k fun y =>
    { y with
      reversal := some { rv with resting := true }, sleeping := false, wake := false, wakeRegulate := false
      brakeHold := if l.mode == .brake then l.prof 0x3E 2 else y.brakeHold }

/-- A lane resumes after its frame of rest: the histories are preset to the ratio of the string-side to the link-side
voltage, and the error history, the trims and r_c are cleared (R190). A reversal to BOOST that the certificate in force does not permit
stops the lane instead, and is one clamp of class 0x0D (R189). -/
def State.resume (s : State) (k : Nat) (fn : LaneFn) : State :=
  if fn == .boost && !s.boostPermitted then (s.countClamps 0x0D 1).stopLane k
  else
    let l := s.lane k
    let vs := (s.volts l.stringInput).getD 0 * (l.stringScale : Int)
    let vl := (s.volts l.linkInput).getD 0 * (l.linkScale : Int)
    let fu : Int := 2 ^ Config.filterBits
    let u := if vl ≤ 0 then l.dmax * fu else roundOpen 10 (vs * 65536 * fu) vl.toNat
    let u1 := clampInt (l.dmin * fu) (l.dmax * fu) u
    ((s.modLegs l.legs fun g => { g with trim := 0 }).setMode k .regulate).modLane k fun l =>
      { l with
        fn := fn, reversal := none, uHist := [u1, u1, u1], eHist := [0, 0, 0, 0], rc := 0
        sticky := l.sticky ||| 0x80
        ep := { l.ep with reversed := true } }

/-- A frame that computes: the short of R216 first. -/
def State.runFrame (s : State) (k : Nat) (strandInCc : Bool) : State :=
  let x := s.sample k
  let n := (s.lane k).shortFrames x.target
  let s1 := s.clearMeans (s.lane k).legs
  if 65 ≤ n then (s1.recordProt 3 (some k) none 0).hiccup k true
  else ((s1.modLane k fun l => { l with shortCount := n }).compute k x strandInCc).frameModes k x strandInCc

/-- The end of a burst: REGULATE where the current of its last frame is at least 125% of the threshold, sleep otherwise (R195). -/
def State.burstEnd (s : State) (k : Nat) (strandInCc : Bool) : State :=
  let l := s.lane k
  if l.burstThreshold * l.rating * 125 ≤ ((s.sample k).current l).natAbs * 10000 then
    ((s.setMode k .regulate).modLane k fun l => { l with lowFrames := 0 }).runFrame k strandInCc
  else ((s.gatesLow k).clearMeans l.legs).modLane k fun l => { l with sleeping := true }

/-- A frame of a lane that neither waits, rests nor reverses. -/
def State.activeFrame (s : State) (k : Nat) (strandInCc : Bool) : State :=
  let l := s.lane k
  if l.sleeping then
    if l.wakeRegulate then
      ((s.setMode k .regulate).modLane k fun l =>
        { l with sleeping := false, wake := false, wakeRegulate := false, lowFrames := 0 }).runFrame k strandInCc
    else if l.wake then
      (s.modLane k fun l =>
        { l with sleeping := false, wake := false, burstLeft := l.burstLength - 1
                 ep := { l.ep with bursts := satAdd 255 l.ep.bursts 1 } }).runFrame k strandInCc
    else s.clearMeans l.legs
  else if l.mode == .burst then
    if l.burstLeft = 0 then s.burstEnd k strandInCc
    else (s.modLane k fun l => { l with burstLeft := l.burstLeft - 1 }).runFrame k strandInCc
  else s.runFrame k strandInCc

/-- A lane's frame starts. A lane whose last leg leaves goes to OFF (R179). -/
def State.frame (s : State) (k : Nat) (strandInCc : Bool) : State :=
  let l := s.lane k
  if !s.isReady .conv || !l.mode.running then s
  else if l.newLegs == some 0 then
    ((s.endPulses l.legs).modLane k fun l => { l with legs := 0, newLegs := none }).setMode k .off
  else
    let s1 := s.openFrame k
    let m := (s1.lane k).legs
    match l.awaitDecim, l.reversal with
    | true, _ =>
      match s1.inputsReady k, s1.startVolts k with
      | true, some v => (s1.modLane k fun l => l.ramp v).runFrame k strandInCc
      | _, _ => s1.clearMeans m
    | false, some rv =>
      if rv.resting then
        let s2 := s1.resume k rv.fn
        if (s2.lane k).mode.running then s2.runFrame k strandInCc else s2
      else (s1.rest k rv).clearMeans m
    | false, none => s1.activeFrame k strandInCc

/-! ### Turn-ons, decimator outputs, the brake -/

/-- Steps from a frame start to the first slot that latches the duty of that frame: 136.25 ns (Table 08-4, step 4). -/
def latchSteps : Nat := 872

/-- The code that a leg latches at its turn-on, `offset` steps after the frame start (R174). -/
def Leg.code (g : Leg) (offset : Nat) : Nat := if offset < latchSteps then g.prev else g.duty

/-- A leg of a running lane turns on: it latches its duty code (R174), and the pulse follows R172 and R173; `next` is the distance to its
next turn-on. A LIMIT that is still crossed blocks the turn-on (R213). -/
def Leg.turnOn (g : Leg) (l : Lane) (code left next : Nat) (blockedHigh blockedLow : Bool) : Leg :=
  let tOn := code * l.period / 65536
  let min := l.prof 0x10 2
  let omitted := tOn < min
  let on := if omitted then 0 else tOn
  let lowOn := on + l.prof 0x0A 2
  let lowOff := l.lowOffAt next
  { g with
    drive := .pulses
    due := false
    left := left
    latched := code
    tOn := on
    highOmitted := omitted || blockedHigh
    lowOnAt := lowOn
    lowOffAt := lowOff
    lowOmitted := blockedLow || lowOff < lowOn + min }

/-- The turn-ons of the slots up to a leg's have passed. -/
def State.passSlots (s : State) (k n : Nat) : State :=
  let l := s.lane k
  s.modConv fun c =>
    { c with
      legs := (c.legs.zipIdx).map fun y =>
        if l.legs.getLsbD y.2 && l.slot y.2 ≤ l.slot n then { y.1 with due := false } else y.1 }

/-- The instant of a leg's slot: a leg that is due in the frame in progress turns on, in slot order (R175, R176). After a change of the leg
set nothing more fires in the frame (R179). In BRAKE, and on a leg that is held, the instant passes. -/
def execLegTurnOn (leg : Nat) (s : State) : Host.Outcome State Fault Refusal :=
  match s.conv.laneOfLeg leg with
  | none => .next s
  | some k =>
    let l := s.lane k
    let g := s.conv.leg leg
    if s.isReady .conv && l.mode.running && !l.sleeping && !l.awaitDecim && !(l.reversal.any (·.resting)) && g.due
        && l.newLegs.isNone then
      let s1 := s.passSlots k leg
      if l.mode == .brake || s.prot.held.getLsbD leg then .next s1
      else
        let up := s.prot.cmpUp.getLsbD leg && s.prot.cmpRole leg == 1 && s.prot.cmpUpAct leg == 1
        let lo := s.prot.cmpLo.getLsbD leg && s.prot.cmpRole leg == 1 && s.prot.cmpLoAct leg == 1
        let offset := l.slotOffset (l.slot leg)
        let code := g.code offset
        let left := l.frameLength - offset
        let skip := code * l.period / 65536 < l.prof 0x10 2
        .next ((s1.modLegs (legBit leg) fun g => g.turnOn l code left (left + l.frameChanges.turnOnIn leg) up lo).modLane k fun l =>
          { l with
            limitAct := l.limitAct || up || lo
            sticky := if skip then l.sticky ||| 4 else l.sticky
            ep := if skip then { l.ep with skipped := satAdd 255 l.ep.skipped 1 } else l.ep })
    else .next s

/-- The brake check of a lane at an output of its regulated voltage (R197). -/
def State.brakeCheck (s : State) (k n : Nat) (v : Int) : State :=
  let l := s.lane k
  if l.extended && l.mode == .regulate && l.fn != .boost && l.regInput == n && l.brakeHold = 0
      && (v - l.r) * (l.regScale : Int) > (l.brakeThreshold : Int) * 32768 then
    ((s.gatesLow k).setMode k .brake).modLane k fun l =>
      { l with sticky := l.sticky ||| 0x10, ep := { l.ep with brakes := satAdd 255 l.ep.brakes 1 } }
  else s

/-- The decimator over-voltage check of a lane: its crossing acts or is recorded, and every output beyond the threshold
acts on a lane that has come to run meanwhile (R213, R214, R219). -/
def State.ovCheck (s : State) (k n : Nat) (v : Int) : State :=
  let l := s.lane k
  let str := s.prot.ovString k ≠ 0 && l.stringInput == n && overMv v l.stringScale (s.prot.ovString k)
  let lnk := s.prot.ovLink k ≠ 0 && l.linkInput == n && overMv v l.linkScale (s.prot.ovLink k)
  let newS := str && (!s.prot.overString.getLsbD k || (l.mode.running && l.fn != .boost))
  let newL := lnk && (!s.prot.overLink.getLsbD k || (l.mode.running && l.fn == .boost))
  let s1 := s.modProt fun p =>
    { p with overString := if l.stringInput == n then p.overString.putBit k str else p.overString
             overLink := if l.linkInput == n then p.overLink.putBit k lnk else p.overLink }
  if !s.isReady .prot then s1
  else
    let s2 := if newS then s1.overVoltage k .stringDecimator false none else s1
    if newL then s2.overVoltage k .linkDecimator true none else s2

/-- The wake of a sleeping lane: the error passes the burst band in either direction (R195). -/
def State.burstWake (s : State) (k n : Nat) (v : Int) : State :=
  let l := s.lane k
  if l.sleeping && l.regInput == n && (l.burstBand : Int) * 32768 < (l.r - v).natAbs * (l.regScale : Int) then
    s.modLane k fun l => { l with wake := true }
  else s

/-- All checks of one output on one lane. -/
def State.voltageChecks (s : State) (n : Nat) (v : Int) (k : Nat) : State :=
  ((s.brakeCheck k n v).ovCheck k n v).burstWake k n v

/-- A decimator of a configured lane completes an output for a sinc3 sum (R169). -/
def execDecimatorOutput (modulator sum : Nat) (s : State) : Host.Outcome State Fault Refusal :=
  if s.isReady .conv && s.conv.used modulator && modulator < 20 then
    let v := decimCode (s.conv.osr modulator) sum
    let s1 := s.modConv fun c => { c with decims := modAt c.decims modulator fun d => d.put v }
    if 16 ≤ modulator && (s.conv.decim modulator).seen ≥ 3 then
      .next ([0, 1, 2, 3].foldl (fun s k => s.voltageChecks modulator v k) s1)
    else .next s1
  else .next s

/-- The brake time ends: REGULATE again, and no brake for the hold-off (R197). -/
def execBrakeEnd (lane : Nat) (s : State) : Host.Outcome State Fault Refusal :=
  if (s.lane lane).mode == .brake then
    .next ((s.setMode lane .regulate).modLane lane fun l => { l with brakeHold := l.prof 0x3E 2 })
  else .next s

/-! ### Telemetry (R204, R205) -/

/-- floor(a x b / c) for a signed a. -/
def scaleDown (a : Int) (b c : Nat) : Int := a * (b : Int) / (Nat.max 1 c : Int)

/-- The lane record of Table 08-8 for the epoch that ends. -/
def Lane.record (l : Lane) : List Byte :=
  let e := l.ep
  if l.body.isNone || l.mode == .unconfigured then zeros 24
  else if e.frames = 0 then
    le 1 l.mode.code ++ zeros 1 ++ le 2 l.legs.toNat ++ zeros 20
  else
    let noLink := l.linkInput == 0xFF
    let flags := bit noLink + 2 * bit (0 < e.bound) + 4 * bit e.atDmax + 8 * bit e.blocked + 16 * bit e.tuned
      + 32 * bit e.legsChanged + 64 * bit e.reversed
    let power : Int := if noLink then 0 else
      e.sumP * ((l.linkScale * l.legScale : Nat) : Int) / ((2 ^ 46 * 1000000 * e.frames : Nat) : Int)
    le 1 l.mode.code ++ le 1 flags ++ le 2 l.legs.toNat
      ++ le 4 (unsigned 32 (scaleDown e.sumI l.legScale (32768 * e.frames)))
      ++ le 4 (unsigned 32 (scaleDown e.peakI l.legScale 32768))
      ++ le 2 (e.sumD / e.frames) ++ le 2 e.peakD
      ++ le 4 (unsigned 32 power)
      ++ le 1 e.bursts ++ le 1 e.brakes ++ le 1 ((510 * e.bound + e.frames) / (2 * e.frames)) ++ le 1 e.skipped

/-- A lane closes its record at a boundary, and its correlation sums are frozen (R200). -/
def Lane.close (l : Lane) : Lane :=
  { l with tuning := { l.tuning with frozen := l.tuning.sums }, closed := l.record, lastBound := l.ep.bound, lastFrames := l.ep.frames, ep := LaneEpoch.empty }

/-- A pulse that completes after a stop has done so by the next boundary: an epoch is longer than a frame (R150, R171). -/
def Leg.settle (g : Leg) : Leg := if g.drive == .ending then { g with drive := .low } else g

/-- The lane telemetry of the ended epoch closes (R18 step 1). -/
def State.closeLanes (s : State) : State :=
  s.modConv fun c => { c with lanes := c.lanes.map Lane.close, legs := c.legs.map Leg.settle }

end Sys2Proof.Machine
end

