-- ==== Sys2Proof/Machine/Protection.lean ====
section
/-!
DEFINITION. Fast protection: comparator crossings, the crowbar, driver faults, fixed consequences, the echo table and the
commands of Table 09-13 (09).
-/
namespace Sys2Proof.Machine

/-! ### Comparators (R211 to R215, R221) -/

/-- The lane that a comparator acts on: the leg's lane in the current role, the named lane otherwise. -/
def State.cmpTarget (s : State) (n : Nat) : Option Nat :=
  if s.prot.cmpRole n == 1 then s.conv.laneOfLeg n
  else if s.prot.cmpLane n < 4 then some (s.prot.cmpLane n) else none

/-- A LIMIT crossing turns off the switch that drives the current further; the frame counts as limited (R212). -/
def State.limitCross (s : State) (n : Nat) (upper : Bool) : State :=
  match s.conv.laneOfLeg n with
  | some k =>
    if (s.lane k).mode.running then
      (s.modLegs (legBit n) fun g =>
        if upper then { g with highOmitted := true } else { g with lowOmitted := true }).modLane k fun l =>
        { l with limitAct := true }
    else s
  | none => s

/-- A TRIP crossing (R215). -/
def State.tripCross (s : State) (n : Nat) : State :=
  let lane := s.cmpTarget n
  let s1 :=
    if s.prot.cmpRole n == 1 then s.recordProt 2 lane (some n) (legBit n) else s.recordProt 0x0A lane (some n) 0
  match lane with
  | some k => s1.hiccup k true
  | none => s1

/-- The crowbar code is the lower threshold of a leg's comparator in a CROWBAR lane (R221). -/
def State.crowbarOf (s : State) (n : Nat) : Option (Nat × Crowbar) :=
  if s.prot.cmpRole n == 1 then
    match s.conv.laneOfLeg n with
    | some k => match getAt s.prot.crowbars k none with
      | some c => if (s.lane k).mode == .crowbar then some (k, c) else none
      | none => none
    | none => none
  else none

/-- A crossing beyond a threshold acts according to the threshold's action (Table 09-1). -/
def State.cross (s : State) (n : Nat) (upper : Bool) : State :=
  match s.crowbarOf n, upper with
  | some (k, c), false => if c.blanked || s.prot.held.getLsbD n then s else s.divert k n
  | _, _ =>
    match (if upper then s.prot.cmpUpAct n else s.prot.cmpLoAct n) with
    | 1 => s.limitCross n upper
    | 2 => s.tripCross n
    | 3 => match s.cmpTarget n with
      | some k => s.overVoltage k (.comparator n) (s.prot.cmpRole n == 3) (some n)
      | none => s
    | _ => s

/-- A crossing that lies beyond its threshold acts on lane `k` as it runs: a TRIP, or an over-voltage of the side that the
lane regulates. -/
def State.standing (s : State) (k n : Nat) (upper : Bool) : Bool :=
  let act := if upper then s.prot.cmpUpAct n else s.prot.cmpLoAct n
  (if upper then s.prot.cmpUp.getLsbD n else s.prot.cmpLo.getLsbD n) && s.prot.cmpRole n ≠ 0 && s.cmpTarget n == some k
    && (s.lane k).mode.running && s.isReady .prot && s.isReady .conv
    && (act == 2 || (act == 3 && (s.prot.cmpRole n == 3) == ((s.lane k).fn == .boost)))

/-- A lane that starts, or that changes the side on which over-voltages act, meets the crossings that still lie beyond
their thresholds: a crossing acts as long as it does (R213). -/
def State.recheck (s : State) (k : Nat) : State :=
  (List.range 16).foldl (fun s n =>
    let s1 := if s.standing k n true then s.cross n true else s
    if s1.standing k n false then s1.cross n false else s1) s

/-- A lane starts, and meets what still lies beyond a threshold. -/
def State.launch (s : State) (k : Nat) (fn : LaneFn) : State := (s.startLane k fn).recheck k

/-- CMPn goes beyond one of its thresholds or comes back. A crossing that reverses within 5 ns acts in full or not at
all (R213). The paths act while PROT and CONV are both ready (R67), on a comparator whose role is on. -/
def execComparatorCrossing (cmp : Nat) (upper beyond brief : Bool) (s : State) : Host.Outcome State Fault Refusal :=
  if s.prot.cmpRole cmp == 0 || 16 ≤ cmp then .next s
  else
    let s1 := s.modProt fun p =>
      if upper then { p with cmpUp := p.cmpUp.putBit cmp (beyond && !brief) }
      else { p with cmpLo := p.cmpLo.putBit cmp (beyond && !brief) }
    if !beyond || !(s.isReady .prot && s.isReady .conv) then .next s1
    else if brief then
      let (acts, s2) := s1.takeBit
      .next (if acts then s2.cross cmp upper else s2)
    else .next (s1.cross cmp upper)

/-- 1 us after detection the lower crowbar threshold starts to act; a leg that lies beyond it then is withdrawn (R213,
R221). -/
def execCrowbarBlankEnd (lane : Nat) (s : State) : Host.Outcome State Fault Refusal :=
  match getAt s.prot.crowbars lane none with
  | some c =>
    if (s.lane lane).mode == .crowbar then
      let s1 := s.modProt fun p =>
        { p with crowbars := setAt p.crowbars lane (some { c with blanked := false }) }
      .next ((((s.lane lane).legs &&& s.prot.cmpLo &&& ~~~s.prot.held).members.filter fun n =>
          s.prot.cmpRole n == 1).foldl (fun s n => s.divert lane n) s1)
    else .next s
  | none => .next s

/-- The low sides of the CHARGE lane turn on: no longer waiting. -/
def State.closeCrowbar (s : State) (k : Nat) (c : Crowbar) : State :=
  (s.modProt fun p => { p with crowbars := setAt p.crowbars k (some { c with waiting := false }) }).lowSidesOn k

/-- BZ4_FB reads open (R220). -/
def execCrowbarClose (lane : Nat) (s : State) : Host.Outcome State Fault Refusal :=
  match getAt s.prot.crowbars lane none with
  | some c =>
    if c.waiting && (s.lane lane).mode == .crowbar then
      .next ((s.modChan 4 fun b => { b with fb := false, openSeen := true }).closeCrowbar lane c)
    else .next s
  | none => .next s

/-- No open feedback 20 us after detection (R220). -/
def execCrowbarTimeout (lane : Nat) (s : State) : Host.Outcome State Fault Refusal :=
  match getAt s.prot.crowbars lane none with
  | some c =>
    if c.waiting && (s.lane lane).mode == .crowbar then
      .next ((s.closeCrowbar lane c).recordProt 8 (some lane) none 0)
    else .next s
  | none => .next s

/-! ### Driver faults (R31, R224) -/

/-- A DFLTn input changes level; a high level ends the filtered low. -/
def execDfltInputChange (leg : Nat) (high : Bool) (s : State) : Host.Outcome State Fault Refusal :=
  .next (s.modProt fun p =>
    { p with dfltRaw := p.dfltRaw.putBit leg (!high)
             dfltLow := if high then p.dfltLow.putBit leg false else p.dfltLow })

/-- DFLTn has been low for longer than the filter time. -/
def execDriverFault (leg : Nat) (s : State) : Host.Outcome State Fault Refusal :=
  if s.isReady .conv && s.isReady .prot && leg < 16 && s.prot.dfltRaw.getLsbD leg then .next (s.driverFault leg)
  else .next s

/-! ### Boundary: fixed consequences, retries, reports (R217, R226, R227) -/

/-- The new leg set of a lane: at the next frame start on a lane whose gates run, at once on any other, where a leg that leaves is off from
then on (R179). -/
def State.newLegSet (s : State) (k : Nat) (m : BitVec 16) : State :=
  let l := s.lane k
  if l.mode.running then (s.modLane k fun l => { l with newLegs := some m }.disturb).replan k
  else (s.endPulses (l.legs &&& ~~~m)).modLane k fun l => { l with legs := m, newLegs := none }

/-- Legs of a mask leave their lanes at the next frame start; a lane that is OFF loses them at once (R179). -/
def State.removeLegs (s : State) (m : BitVec 16) : State :=
  [0, 1, 2, 3].foldl (fun s k =>
    let l := s.lane k
    let now := (l.newLegs.getD l.legs)
    if now &&& m = 0 then s
    else s.newLegSet k (now &&& ~~~m)) s

/-- A BZ5 trip abandons the precharge in progress, with the close that it had reached (R269, R272). -/
def Path.dropPrecharge (p : Path) : Path :=
  { p with
    precharge := none
    decided := match p.precharge with
      | some (k, _) => p.decided.map fun d => { d with close := d.close.putBit k false }
      | none => p.decided }

/-- The fixed consequence of a class of this chapter (Table 09-7). -/
def State.consequence (s : State) (r : Report) : State :=
  if r.cls == 1 || r.cls == 9 then s.removeLegs r.legs
  else if 4 ≤ r.cls && r.cls ≤ 8 then
    s.modProt fun p => { p with shareZero := (List.range 4).foldl (fun m k =>
      if r.lanes.getLsbD k && (s.lane k).mode != .off then m.putBit k true else m) p.shareZero }
  else if 0x10 ≤ r.cls && r.cls ≤ 0x14 && r.legs.getLsbD 5 && ((s.chan 5).state == .tripped || (s.chan 5).state == .lockout) then
    s.modPath Path.dropPrecharge
  else s

/-- PROT_FAULT of a report (Table 09-13). -/
def Report.event (r : Report) : List Byte :=
  le 1 r.cls ++ zeros 1 ++ le 1 r.lanes.toNat ++ zeros 1 ++ le 2 r.legs.toNat ++ le 2 r.count ++ le 4 r.epoch ++ le 4 r.tick

/-- Reports in class order. -/
def byClass (l : List Report) : List Report := sortBy (fun a b => a.cls ≤ b.cls) l

/-- The reports of the epoch that closes are frozen and sent (R226); the log keeps 16 epochs (R234), and so does the list of the classes
sent. -/
def State.freezeReports (s : State) : State :=
  ((byClass s.prot.reports).foldl (fun s r => s.event 0x7F40 r.event) s).modProt fun p =>
    { p with
      log := (p.reports :: p.log).take 16, reports := []
      sent := p.sent.filter fun x => (s.time.epoch + (2 ^ 32 - x.2)) % 2 ^ 32 ≤ 16 }

/-- The HICCUP retry of a lane at a boundary: SOFTSTART, or OFF where a stop waits (R217) or its last leg has left (R179). -/
def State.retry (s : State) (k : Nat) : State :=
  let l := s.lane k
  if l.mode == .hiccup && l.hiccupAt + 100000 * Config.ticksPerUs ≤ s.time.sysTime then
    if l.stopAtRelease || l.legs = 0 then s.setMode k .off else s.launch k l.fn
  else s

def State.retries (s : State) : State := [0, 1, 2, 3].foldl (fun s k => s.retry k) s

/-! ### The echo table (R230, R234) -/

/-- The close of one reporter's class in a record. -/
def Echo.take (e : Echo) (epoch address cls : Nat) (mask : BitVec 16) : Echo :=
  let old := getAt e.side address 0
  let isNew := !e.closed.getLsbD address
  let add := if address = 0 then 0
    else if cls == 1 || cls == 2 || cls == 9 then (mask &&& ~~~old).ones
    else bit isNew
  { e with
    first := if e.closed = 0 then epoch else e.first
    last := epoch
    opened := true
    closed := e.closed.putBit address true
    live := e.live.putBit address true
    side := setAt e.side address (old ||| mask)
    count := e.count + add
    changed := true }

/-- The mask of a report in its scope (Table 09-6). -/
def Report.mask (r : Report) : BitVec 16 := if r.cls < 0x10 && r.legs = 0 then r.lanes.setWidth 16 else r.legs

/-- The class mask and the two lowest entries of a fault summary (R229). -/
def faultSummary (l : List Report) : List Byte :=
  let c := byClass l
  let mask := c.foldl (fun m r => m ||| 2 ^ (r.cls - 1)) 0
  let entry := fun (r : Option Report) => match r with
    | some r => le 1 r.cls ++ zeros 1 ++ le 2 r.mask.toNat
    | none => zeros 4
  le 4 mask ++ entry (c.head?) ++ entry (c.tail.head?)

/-- The mask that a summary gives a class: its entry, or 0xFFFF beyond the two entries (R230). -/
def summaryMask (b : List Byte) (cls : Nat) : BitVec 16 :=
  if byteAt b 4 == cls then BitVec.ofNat 16 (fieldAt b 6 2)
  else if byteAt b 8 == cls then BitVec.ofNat 16 (fieldAt b 10 2)
  else 0xFFFF

/-- The classes and masks of a fault summary. -/
def summaryEntries (b : List Byte) : List (Nat × BitVec 16) :=
  ((List.range 32).filter fun i => (fieldAt b 0 4).testBit i).map fun i => (i + 1, summaryMask b (i + 1))

/-- One die's classes of an epoch enter the records. -/
def Prot.closeFrom (p : Prot) (epoch address : Nat) (entries : List (Nat × BitVec 16)) : Prot :=
  { p with echo := (p.echo.zipIdx).map fun x =>
      match entries.find? fun e => e.1 == x.2 + 1 with
      | some e => x.1.take epoch address e.1 e.2
      | none => x.1 }

/-- The epoch counts once in every record that some die reported into. -/
def Prot.countEpochs (p : Prot) (before : List Echo) : Prot :=
  { p with echo := (p.echo.zip before).map fun x =>
      if x.1.changed && !x.2.changed then { x.1 with epochs := satAdd (2 ^ 32 - 1) x.1.epochs 1 } else x.1 }

/-- The sum of an epoch closes in the records, in ascending address order (R230). -/
def Prot.closeEcho (p : Prot) : Prot :=
  match p.closing with
  | some (e, l) => { (l.foldl (fun q x => q.closeFrom e x.1 x.2) p).countEpochs p.echo with closing := none }
  | none => p

/-- The bytes of a record (Table 09-8). -/
def Echo.bytes (e : Echo) (cls : Nat) : List Byte :=
  le 1 cls ++ le 1 (bit e.opened + 2 * bit (e.live != e.closed)) ++ le 2 e.count ++ le 4 e.first ++ le 4 e.last
    ++ le 4 e.epochs ++ le 8 e.closed.toNat ++ le 8 e.live.toNat ++ (e.side.map fun m => le 2 m.toNat).flatten

/-- ECHO_CLOSED for every record whose closed content changed (R234); its epoch is the one last taken in, and of an emptied
record the one that opens (log 54). -/
def State.echoEvents (s : State) : State :=
  ((s.prot.echo.zipIdx).foldl (fun s x =>
    if x.1.changed then
      let e := if x.1.closed = 0 then s.time.epoch else x.1.last
      s.event 0x7F41 (le 1 (x.2 + 1) ++ zeros 1 ++ le 2 x.1.count ++ le 4 e ++ le 8 x.1.closed.toNat)
    else s) s).modProt fun p => { p with echo := p.echo.map fun e => { e with changed := false } }

/-! ### The protection record and the commands (R231 to R234) -/

/-- A comparator entry obeys R211. -/
def cmpEntryOk (b : List Byte) (n : Nat) : Bool :=
  let o := 4 + 12 * n
  let role := byteAt b o
  let lane := byteAt b (o + 1)
  let up := byteAt b (o + 2)
  let lo := byteAt b (o + 3)
  role ≤ 3 && up ≤ 3 && lo ≤ 3
    && (if role == 1 then lane == 0xFF else if role == 0 then true else lane < 4)
    && !((up == 1 || lo == 1) && role != 1)
    && !(up == 3 && !(role == 2 || role == 3)) && lo != 3
    && fieldAt b (o + 4) 2 < 1024 && fieldAt b (o + 6) 2 < 1024 && fieldAt b (o + 8) 2 < 1024 && zeroAt b (o + 10) 2
    && !(up != 0 && lo != 0 && fieldAt b (o + 6) 2 ≥ fieldAt b (o + 4) 2)

/-- A protection record body (R211, Table 09-9). -/
def protBodyOk (b : List Byte) : Bool :=
  b.length == 228 && zeroAt b 1 3 && (List.range 16).all fun n => cmpEntryOk b n

/-- A comparator entry and the over-voltage thresholds that a lane depends on, under a record. -/
def protPart (s : State) (b : Option (List Byte)) (k : Nat) : List (List Byte) :=
  match b with
  | none => []
  | some b =>
    (((List.range 16).filter fun n =>
        (byteAt b (4 + 12 * n) == 1 && (s.lane k).legs.getLsbD n) || (2 ≤ byteAt b (4 + 12 * n) && byteAt b (5 + 12 * n) == k)).map
      fun n => le 1 n ++ slice b (4 + 12 * n) 12) ++ [slice b (0xC4 + 8 * k) 8]

/-- Every lane whose comparators or thresholds a record changes is OFF or unconfigured (R233). -/
def protLanesOff (s : State) (b : List Byte) : Bool :=
  (List.range 4).all fun k =>
    let m := (s.lane k).mode
    m == .off || m == .unconfigured || protPart s s.prot.body k == protPart s (some b) k

/-- A record takes effect. The output of a comparator whose role is off is disabled (R211). -/
def Prot.load (p : Prot) (b : List Byte) : Prot :=
  let on : BitVec 16 := bitsOf 16 ((List.range 16).filter fun n => byteAt b (4 + 12 * n) ≠ 0)
  { p with body := some b, cmpUp := p.cmpUp &&& on, cmpLo := p.cmpLo &&& on }

def opProtConfig : OpSpec :=
  { code := 0x0300, sched := .scheduled, bcast := true, block := some .prot, eupefen := true
    check := fun _ f => firstOf
      [needLength f 232, need (zeroAt f.payload 0 4 && protBodyOk (f.payload.drop 4)) stBadParam]
    run := fun s f =>
      if protLanesOff s (f.payload.drop 4) then okay (s.modProt fun p => p.load (f.payload.drop 4))
      else answer s 0x88 }

/-- The source that triggered a crowbar still lies beyond its threshold (R222). -/
def State.ovPresent (s : State) (k : Nat) : Bool :=
  match getAt s.prot.crowbars k none with
  | some c => match c.source with
    | .comparator n => s.prot.cmpUp.getLsbD n
    | .stringDecimator => s.prot.overString.getLsbD k
    | .linkDecimator => s.prot.overLink.getLsbD k
  | none => false

/-- PROT_CLEAR's state checks, at its boundary (R222, R224, R234). -/
def protClearCheck (s : State) (p : List Byte) : Option Answer :=
  let k := byteAt p 0
  let m := BitVec.ofNat 16 (fieldAt p 2 2)
  if byteAt p 1 == 0 then
    firstOf
      [ need ((s.lane k).mode.protection) stBadParam,
        need (!((s.lane k).mode == .crowbar && s.ovPresent k)) 0x91 ]
  else need ((m &&& s.prot.dfltRaw) = 0) 0x91

def protClear (s : State) (p : List Byte) : State :=
  let k := byteAt p 0
  if byteAt p 1 == 0 then
    ((s.gatesLow k).setMode k .off).modProt fun q => { q with crowbars := setAt q.crowbars k none }
  else s.modProt fun q => { q with held := q.held.clearBits (BitVec.ofNat 16 (fieldAt p 2 2)) }

def opProtClear : OpSpec :=
  { code := 0x0301, sched := .scheduled, bcast := true, block := some .prot, eupefen := true
    check := fun _ f => firstOf
      [ needLength f 8,
        need (byteAt f.payload 0 < 4 && byteAt f.payload 1 ≤ 1 && zeroAt f.payload 4 4) stBadParam ]
    run := fun s f => match protClearCheck s f.payload with
      | some a => (s, some a)
      | none => okay (protClear s f.payload) }

/-- The reports of an epoch. An offset of 0 names the epoch in progress (log 111). -/
def Prot.reportsOf (p : Prot) (epoch : Nat) : List Report := (p.reports ++ p.log.flatten).filter fun r => r.epoch == epoch

/-- A report as PROT_LOG_READ returns it. -/
def Report.entry (r : Report) : List Byte := r.event

def opProtLogRead : OpSpec :=
  { code := 0x0302, sched := .unscheduled, bcast := false, block := some .prot
    check := fun _ f => firstOf [needLength f 4, need (fieldAt f.payload 0 4 < 16) stBadParam]
    run := fun s f =>
      okayWith s ((byClass (s.prot.reportsOf ((s.time.epoch + (2 ^ 32 - fieldAt f.payload 0 4)) % 2 ^ 32))).map Report.entry).flatten }

def opEchoRead : OpSpec :=
  { code := 0x0303, sched := .unscheduled, bcast := false, block := some .prot
    check := fun s f => firstOf
      [ needLength f 4,
        need (!s.isWorker) 0x92,
        need (1 ≤ byteAt f.payload 0 && byteAt f.payload 0 ≤ 32 && zeroAt f.payload 1 3) stBadParam ]
    run := fun s f =>
      okayWith s ((getAt s.prot.echo (byteAt f.payload 0 - 1) Echo.empty).bytes (byteAt f.payload 0)) }

/-- ECHO_CLEAR empties records; an open record that is emptied has changed, by this or another ECHO_CLEAR of the boundary (R234). -/
def Prot.clearEcho (p : Prot) (m : Nat) : Prot :=
  { p with echo := (p.echo.zipIdx).map fun x =>
      if m.testBit x.2 then { Echo.empty with changed := x.1.opened || x.1.changed } else x.1 }

def opEchoClear : OpSpec :=
  { code := 0x0304, sched := .scheduled, bcast := true, block := some .prot, eupefen := true
    check := fun s f => firstOf [needLength f 4, need (!s.isWorker) 0x92]
    run := fun s f => okay (s.modProt fun p => p.clearEcho (fieldAt f.payload 0 4)) }

def execProtConfig (h : Hdr) (p : List Byte) (s : State) : Host.Outcome State Fault Refusal :=
  .next (receive opProtConfig h p s)

def execProtClear (h : Hdr) (p : List Byte) (s : State) : Host.Outcome State Fault Refusal :=
  .next (receive opProtClear h p s)

def execProtLogRead (h : Hdr) (p : List Byte) (s : State) : Host.Outcome State Fault Refusal :=
  .next (receive opProtLogRead h p s)

def execEchoRead (h : Hdr) (p : List Byte) (s : State) : Host.Outcome State Fault Refusal :=
  .next (receive opEchoRead h p s)

def execEchoClear (h : Hdr) (p : List Byte) (s : State) : Host.Outcome State Fault Refusal :=
  .next (receive opEchoClear h p s)

end Sys2Proof.Machine
end

