-- ==== Sys2Proof/Machine/LaneCommands.lean ====
section
/-!
DEFINITION. The commands of the conversion engine (Table 08-16), the frame start, and adaptive tuning at the boundary (08).
-/
namespace Sys2Proof.Machine

/-! ### The profile (R166, R170, R171, R206) -/

/-- P of a switching frequency, halves rounded up (R171). -/
def periodSteps (hz : Nat) : Nat := (12800000000 + hz) / (2 * Nat.max 1 hz)

/-- OSR of a code. -/
def osrOf (code : Nat) : Nat := 16 * 2 ^ code

/-- A voltage input field. -/
def inputOk (v : Nat) : Bool := (16 ≤ v && v ≤ 19) || v == 0xFF

/-- A lane profile body obeys Table 08-9 and R170: one output per carrier period, taken from the frequency and not from the
rounded P. -/
def profileOk (b : List Byte) : Bool :=
  let f := fun o n => fieldAt b o n
  let osr := byteAt b 0x13
  b.length == 144 && (byteAt b 2 ≤ 15 || byteAt b 2 == 0xFF) && byteAt b 3 < 16
    && 20000 ≤ f 4 4 && f 4 4 ≤ 500000 && f 8 2 ≤ 16383 && f 0xA 2 ≤ 16383
    && f 0xC 2 < f 0xE 2 && f 0x10 2 ≤ 16383 && byteAt b 0x12 ≠ 1
    && osr < 16 && osr % 4 ≤ 2 && osr / 4 ≤ 2 && osrOf (osr / 4) * f 4 4 ≤ 20000000
    && inputOk (byteAt b 0x14) && inputOk (byteAt b 0x15) && byteAt b 0x16 ≤ 15
    && 1 ≤ byteAt b 0x17 && byteAt b 0x17 ≤ 64
    && 0 < f 0x18 4 && 0 < f 0x1C 4 && 0 < f 0x20 4 && f 0x24 4 ≤ f 0x20 4 && f 0x28 4 ≤ 0x01000000
    && f 0x2E 2 ≤ 1311 && 1 ≤ f 0x30 2 && f 0x30 2 ≤ 500 && byteAt b 0x32 ≤ 20 && zeroAt b 0x33 1
    && 0 < f 0x34 4 && 0 < f 0x38 4 && 20 ≤ f 0x3C 2 && f 0x3C 2 ≤ 5000 && 16 ≤ f 0x3E 2 && f 0x3E 2 ≤ 1024
    && 0 < f 0x78 4 && 0 < f 0x7C 4 && 0 < f 0x80 4 && 1 ≤ byteAt b 0x84 && byteAt b 0x84 ≤ 64
    && 5 ≤ byteAt b 0x85 && byteAt b 0x85 ≤ 20 && 30 ≤ byteAt b 0x86 && byteAt b 0x86 ≤ 75 && zeroAt b 0x87 1
    && zeroAt b 0x8C 4

/-- A coefficient set of a body: seven signed values (R183). -/
def coeffSet (b : List Byte) (off : Nat) : List Int := (List.range 7).map fun i => sfieldAt b (off + 4 * i) 4

/-- A leg of the mask belongs to another lane (R166). -/
def State.legConflict (s : State) (k : Nat) (m : BitVec 16) : Bool :=
  (List.range 4).any fun j => j ≠ k && (s.lane j).body.isSome
    && ((BitVec.ofNat 16 ((s.lane j).prof 0 2) ||| (s.lane j).newLegs.getD (s.lane j).legs ||| (s.lane j).legs) &&& m) ≠ 0

/-- The lanes of BZ4's mask carry one strand field (R263): a profile for lane `k` with strand field `strand`. -/
def State.bz4StrandOk (s : State) (k strand : Nat) : Bool :=
  !s.bz4Lanes.contains k || s.bz4Lanes.all fun j => j == k || (s.lane j).body.isNone || (s.lane j).strand == strand

/-- The profile's values against the certificate (R171, R191, R196, R206). -/
def State.profileFence (s : State) (k : Nat) (b : List Byte) : Option Answer :=
  fenced s fun c =>
    fieldAt b 4 4 ≤ certFsw c k && (!bitAt b 3 0 || certExtended c)
      && (!bitAt b 3 2 || (certLinkMin c ≤ fieldAt b 0x88 4 && fieldAt b 0x88 4 ≤ certLinkMax c))
      && s.coeffsOk k 0 (coeffSet b 0x40) && s.coeffsOk k 1 (coeffSet b 0x5C)

/-- Decimators that start because a configuration begins to use their inputs (R167, R169). -/
def Conv.startInputs (new old : Conv) : Conv :=
  { new with decims := (new.decims.zipIdx).map fun x =>
      if new.used x.2 && !old.used x.2 then Decimator.reset else x.1 }

/-- A profile takes effect on a lane that is OFF or unconfigured (R206, R208). -/
def Lane.configure (l : Lane) (b : List Byte) : Lane :=
  { l with
    body := some b
    legs := BitVec.ofNat 16 (fieldAt b 0 2)
    newLegs := none
    period := periodSteps (fieldAt b 4 4)
    newPeriod := none
    extended := bitAt b 3 0
    burstThreshold := byteAt b 0x32
    burstLength := byteAt b 0x17
    burstBand := fieldAt b 0x34 4
    brakeThreshold := fieldAt b 0x38 4
    brakeTime := fieldAt b 0x3C 2
    buck := coeffSet b 0x40
    boost := coeffSet b 0x5C
    plan := if l.strand == byteAt b 2 then l.plan else none
    share := if l.strand == byteAt b 2 then l.share else none
    fieldCode := if l.strand == byteAt b 2 then l.fieldCode else 0
    phaseLock := none
    tuning := { Tuning.reset with mode := l.tuning.mode, window := byteAt b 0x84 } }

/-- The mode of a lane whose profile takes effect: an empty mask leaves it unconfigured (R166). -/
def configuredMode (b : List Byte) : LaneMode := if fieldAt b 0 2 = 0 then .unconfigured else .off

/-- A profile replaces a lane's, and its inputs start. -/
def State.placeProfile (s : State) (k : Nat) (b : List Byte) : State :=
  (s.modLane k fun l => l.configure b).modConv fun c => (c.unlock k).startInputs s.conv

/-- The profile of a lane is replaced by a command. -/
def State.configureLane (s : State) (k : Nat) (b : List Byte) : State := (s.placeProfile k b).setMode k (configuredMode b)

/-- The profile of a lane is loaded at boot: the lane stays OFF (R206), so no transition is reported. -/
def State.loadLane (s : State) (k : Nat) (b : List Byte) : State :=
  (s.placeProfile k b).modLane k fun l => { l with mode := configuredMode b }

/-! ### Checks of the chapter (R207, R208, R232) -/

/-- The lane byte and its zeros (R207). -/
def laneArg (p : List Byte) : Bool := byteAt p 0 < 4 && zeroAt p 1 3

/-- The checks of LANE_CONFIG; `j` holds what its relations to other records are judged against (R112). -/
def laneConfigCheck (s j : State) (p : List Byte) : Option Answer :=
  let k := byteAt p 0
  let b := p.drop 4
  firstOf
    [ need (laneIsOff (s.lane k)) 0x88,
      need (!j.legConflict k (BitVec.ofNat 16 (fieldAt b 0 2))) 0x89,
      need (j.bz4StrandOk k (byteAt b 2)) stBadParam,
      s.profileFence k b ]

/-- The lane has an over-voltage source on the side that a function regulates (R232). -/
def State.ovSource (s : State) (k : Nat) (fn : LaneFn) : Bool :=
  let role := if fn == .boost then 3 else 2
  (if fn == .boost then s.prot.ovLink k ≠ 0 else s.prot.ovString k ≠ 0)
    || (List.range 16).any fun n => s.prot.cmpRole n == role && s.prot.cmpLane n == k && s.prot.cmpUpAct n == 3

/-- NO_PROTECTION (R232), for a leg set and a function. -/
def State.unprotected (s : State) (k : Nat) (legs : BitVec 16) (fn : LaneFn) : Bool :=
  (legs.members.any fun n => s.prot.cmpRole n ≠ 1) || !s.ovSource k fn || (fn == .charge && !s.bz4Lanes.contains k)

/-- The inputs that a function requires (Table 08-5). -/
def Lane.hasInputs (l : Lane) (fn : LaneFn) : Bool :=
  l.stringInput ≠ 0xFF && (fn != .boost || l.linkInput ≠ 0xFF)

/-- The Geode lets the lane run in a function: limits exist (R11), and BOOST is permitted (R189). -/
def State.fnPermitted (s : State) (fn : LaneFn) : Bool := s.limits.isSome && (fn != .boost || s.boostPermitted)

/-- The checks of R189 and R232 for a start. -/
def State.startCheck (s : State) (k : Nat) (fn : LaneFn) : Option Answer :=
  firstOf
    [ need ((s.lane k).hasInputs fn) 0x8A,
      need (s.fnPermitted fn) stFenced,
      need (!s.unprotected k (s.lane k).legs fn) 0x90 ]

/-- The function of a code. -/
def LaneFn.ofCode : Nat → LaneFn
  | 1 => .boost | 2 => .bus | _ => .charge

def laneStartCheck (s : State) (p : List Byte) : Option Answer :=
  let l := s.lane (byteAt p 0)
  firstOf
    [ need (l.mode != .unconfigured && l.legs ≠ 0) stBadParam,
      need (l.mode == .off) 0x88,
      need (l.strand == 0xFF) 0x8C,
      s.startCheck (byteAt p 0) (LaneFn.ofCode (byteAt p 4)) ]

/-- A worker may drive gates: it has an address and has received its first allotment (R16). -/
def State.mayDrive (s : State) : Bool := !s.isWorker || (s.slolos.address ≠ 0 && s.slolos.firstAllot)

/-- A lane is configured (body and legs in a profile). -/
def State.laneConfigured (s : State) (k : Nat) : Bool := (s.lane k).body.isSome && (s.lane k).mode != .unconfigured

/-! ### Commands of Table 08-16 -/

def opLaneConfig : OpSpec :=
  { code := 0x0200, sched := .scheduled, bcast := true, block := some .conv, eupefen := true
    check := fun s f => firstOf
      [ needLength f 148, need (laneArg f.payload && profileOk (f.payload.drop 4)) stBadParam,
        laneConfigCheck s (s.ahead f) f.payload ]
    run := fun s f => match laneConfigCheck s s f.payload with
      | some a => (s, some a)
      | none => okay (s.configureLane (byteAt f.payload 0) (f.payload.drop 4)) }

def opLaneStart : OpSpec :=
  { code := 0x0201, sched := .scheduled, bcast := true, block := some .conv, eupefen := true
    check := fun s f => firstOf
      [ needLength f 8,
        need (laneArg f.payload && byteAt f.payload 4 ≤ 2 && zeroAt f.payload 5 3) stBadParam,
        laneStartCheck s f.payload ]
    run := fun s f => match laneStartCheck s f.payload with
      | some a => (s, some a)
      | none =>
        okay (if s.mayDrive then s.launch (byteAt f.payload 0) (LaneFn.ofCode (byteAt f.payload 4)) else s) }

/-- LANE_STOP is refused for a strand lane (R208). -/
def laneStopCheck (s : State) (p : List Byte) : Option Answer :=
  need ((s.lane (byteAt p 0)).body.isNone || (s.lane (byteAt p 0)).strand == 0xFF) 0x8C

def opLaneStop : OpSpec :=
  { code := 0x0202, sched := .either, bcast := true, block := some .conv, eupefen := true
    check := fun s f => firstOf [needLength f 4, need (laneArg f.payload) stBadParam, laneStopCheck s f.payload]
    run := fun s f => match laneStopCheck s f.payload with
      | some a => (s, some a)
      | none =>
        let k := byteAt f.payload 0
        okay (if f.sched then s.stopLane k else s.stopNow k) }

/-- The limits of a target (R185): Iboost max while the lane is in BOOST, Icharge max otherwise. -/
def setTargetCheck (s : State) (p : List Byte) : Option Answer :=
  let k := byteAt p 0
  let l := s.lane k
  firstOf
    [ need (s.laneConfigured k) stBadParam,
      fenced s fun c =>
        fieldAt p 4 4 ≤ certVout c k
          && fieldAt p 8 4 ≤ (if l.fn == .boost && l.mode.running then certIboost c k else certIcharge c k) ]

def opSetLaneTarget : OpSpec :=
  { code := 0x0203, sched := .scheduled, bcast := true, block := some .conv, eupefen := true
    check := fun s f => firstOf [needLength f 12, need (laneArg f.payload) stBadParam, setTargetCheck s f.payload]
    run := fun s f => match setTargetCheck s f.payload with
      | some a => (s, some a)
      | none => okay (s.modLane (byteAt f.payload 0) fun l =>
          { l with host := some (fieldAt f.payload 4 4, fieldAt f.payload 8 4) }.disturb) }

def setCoeffsCheck (s : State) (p : List Byte) : Option Answer :=
  let k := byteAt p 0
  firstOf
    [ need (s.laneConfigured k) stBadParam,
      fenced s fun _ => s.coeffsOk k (byteAt p 4) (coeffSet p 8) ]

def opSetLaneCoeffs : OpSpec :=
  { code := 0x0204, sched := .scheduled, bcast := true, block := some .conv, eupefen := true
    check := fun s f => firstOf
      [ needLength f 36, need (laneArg f.payload && byteAt f.payload 4 ≤ 1 && zeroAt f.payload 5 3) stBadParam,
        setCoeffsCheck s f.payload ]
    run := fun s f => match setCoeffsCheck s f.payload with
      | some a => (s, some a)
      | none => okay (s.modLane (byteAt f.payload 0) fun l =>
          (if byteAt f.payload 4 = 0 then { l with buck := coeffSet f.payload 8 }
            else { l with boost := coeffSet f.payload 8 }).disturb) }

def setProfileCheck (s : State) (p : List Byte) : Option Answer :=
  firstOf
    [ need (s.laneConfigured (byteAt p 0)) stBadParam,
      if byteAt p 4 = 1 then fenced s certExtended else none ]

def opSetLaneProfile : OpSpec :=
  { code := 0x0205, sched := .scheduled, bcast := true, block := some .conv, eupefen := true
    check := fun s f => firstOf
      [ needLength f 12,
        need (laneArg f.payload && byteAt f.payload 4 ≤ 1 && zeroAt f.payload 5 1 && 20 ≤ fieldAt f.payload 6 2
          && fieldAt f.payload 6 2 ≤ 5000 && 0 < fieldAt f.payload 8 4) stBadParam,
        setProfileCheck s f.payload ]
    run := fun s f => match setProfileCheck s f.payload with
      | some a => (s, some a)
      | none => okay (s.modLane (byteAt f.payload 0) fun l =>
          { l with extended := byteAt f.payload 4 == 1, brakeTime := fieldAt f.payload 6 2,
                   brakeThreshold := fieldAt f.payload 8 4 }) }

def opSetBurst : OpSpec :=
  { code := 0x0206, sched := .scheduled, bcast := true, block := some .conv, eupefen := true
    check := fun s f => firstOf
      [ needLength f 12,
        need (laneArg f.payload && byteAt f.payload 4 ≤ 20 && 1 ≤ byteAt f.payload 5 && byteAt f.payload 5 ≤ 64
          && zeroAt f.payload 6 2 && 0 < fieldAt f.payload 8 4) stBadParam,
        need (s.laneConfigured (byteAt f.payload 0)) stBadParam ]
    run := fun s f =>
      if s.laneConfigured (byteAt f.payload 0) then
        okay (s.modLane (byteAt f.payload 0) fun l =>
          { l with burstThreshold := byteAt f.payload 4, burstLength := byteAt f.payload 5,
                   burstBand := fieldAt f.payload 8 4 })
      else answer s stBadParam }

def tuningCheck (s : State) (p : List Byte) : Option Answer :=
  firstOf
    [ need (s.laneConfigured (byteAt p 0)) stBadParam,
      need ((s.lane (byteAt p 0)).flag 3) stLocked ]

def opTuningControl : OpSpec :=
  { code := 0x0207, sched := .scheduled, bcast := true, block := some .conv, eupefen := true
    check := fun s f => firstOf
      [ needLength f 8,
        need (laneArg f.payload && byteAt f.payload 4 ≤ 2 && 1 ≤ byteAt f.payload 5 && byteAt f.payload 5 ≤ 64
          && zeroAt f.payload 6 2) stBadParam,
        tuningCheck s f.payload ]
    run := fun s f => match tuningCheck s f.payload with
      | some a => (s, some a)
      | none => okay (s.modLane (byteAt f.payload 0) fun l =>
          { l with tuning := { Tuning.reset with
              mode := byteAt f.payload 4, window := byteAt f.payload 5, seq := l.tuning.seq, signs := l.tuning.signs,
              target := s.targetMv (byteAt f.payload 0) } }) }

/-- Rotation is on (R176). -/
def Lane.rotates (l : Lane) : Bool := 2 ≤ l.prof 0x12 1 && 1 < (l.newLegs.getD l.legs).ones

/-- This die serves a strand alone; a worker holds no strand record, so there the answer is a free value (log 33). -/
def State.servesAlone (s : State) (n : Nat) : Bool :=
  if s.isWorker then Config.servesAlone n s.time.epoch
  else (s.strand n).body.isSome && (s.strand n).dies.all (· == 0)

/-- The conditions of a phase lock (R181). -/
def State.lockable (s : State) (k leader : Nat) : Bool :=
  let a := s.lane k
  let b := s.lane leader
  k ≠ leader && s.laneConfigured k && s.laneConfigured leader
    && (s.isStandalone || (a.strand == b.strand && a.strand ≠ 0xFF && s.servesAlone a.strand))
    && a.newPeriod.getD a.period == b.newPeriod.getD b.period && !a.rotates && !b.rotates

/-- A lock ends when a configuration has broken one of its conditions (R181). -/
def State.checkLocks (s : State) : State :=
  (List.range 4).foldl (fun s k =>
    match (s.lane k).phaseLock with
    | some (j, _) => if s.lockable k j then s else s.modLane k fun l => { l with phaseLock := none }
    | none => s) s

def lockCheck (s : State) (p : List Byte) : Option Answer := need (s.lockable (byteAt p 0) (byteAt p 4)) 0x8B

def opLanePhaseLock : OpSpec :=
  { code := 0x0208, sched := .scheduled, bcast := true, block := some .conv, eupefen := true
    check := fun s f => firstOf
      [ needLength f 8, need (laneArg f.payload && byteAt f.payload 4 < 4 && zeroAt f.payload 6 2) stBadParam,
        lockCheck s f.payload ]
    run := fun s f => match lockCheck s f.payload with
      | some a => (s, some a)
      | none => okay (s.modLane (byteAt f.payload 0) fun l =>
          { l with phaseLock := some (byteAt f.payload 4, byteAt f.payload 5), lockSet := false }) }

/-- LANE_LEGS (R208, R232): a leg with a latched fault joins only a lane that is OFF. -/
def laneLegsCheck (s j : State) (p : List Byte) : Option Answer :=
  let k := byteAt p 0
  let l := s.lane k
  let m := BitVec.ofNat 16 (fieldAt p 4 2)
  firstOf
    [ need (s.laneConfigured k) stBadParam,
      need (!j.legConflict k m) 0x89,
      need (l.mode == .off || (m &&& ~~~(l.newLegs.getD l.legs) &&& s.prot.held) = 0) stBadParam,
      need (!s.unprotected k m l.fn) 0x90 ]

/-- The new leg set: at once on a lane whose gates rest, at the next frame start otherwise (R179). A leg that joins
starts with trim 0 (R186), and an input that the lane did not use starts (R169). -/
def State.setLegs (s : State) (k : Nat) (m : BitVec 16) : State :=
  let l := s.lane k
  let s1 := s.modLegs (m &&& ~~~l.legs) fun g =>
    { g with trim := 0, duty := 0, prev := 0, due := false, left := 0, drive := .low, lowHeldOff := false }
  (s1.newLegSet k m).modConv fun c => c.startInputs s.conv

def opLaneLegs : OpSpec :=
  { code := 0x0209, sched := .scheduled, bcast := true, block := some .conv, eupefen := true
    check := fun s f => firstOf
      [needLength f 8, need (laneArg f.payload && zeroAt f.payload 6 2) stBadParam, laneLegsCheck s (s.ahead f) f.payload]
    run := fun s f => match laneLegsCheck s s f.payload with
      | some a => (s, some a)
      | none => okay (s.setLegs (byteAt f.payload 0) (BitVec.ofNat 16 (fieldAt f.payload 4 2))) }

/-! ### Registers (Tables 08-10 to 08-15) -/

/-- CONV_STATUS. -/
def Conv.statusReg (c : Conv) : Nat :=
  ((c.lanes.filter fun l => !(laneIsOff l)).foldl (fun m l => m ||| l.legs.toNat) 0) * 2 ^ 16
    + (c.lanes.zipIdx).foldl (fun m x => m + x.1.mode.code * 2 ^ (4 * x.2)) 0

/-- CONV_FLAGS. -/
def Conv.flagsReg (c : Conv) : Nat := (c.lanes.zipIdx).foldl (fun m x => m + x.1.sticky.toNat * 2 ^ (8 * x.2)) 0

/-- CONV_LANEk_DUTY. -/
def Lane.dutyReg (l : Lane) : Nat := (l.uCode % 65536) * 2 ^ 16 + unsigned 16 l.r

/-- CONV_LANEk_CURRENT. -/
def Lane.currentReg (l : Lane) : Nat := unsigned 32 l.current

/-- CONV_LANEk_PERIOD. -/
def Lane.periodReg (l : Lane) : Nat :=
  if l.mode == .unconfigured then 0 else l.fn.code * 2 ^ 24 + l.count * 2 ^ 19 + l.period % 2 ^ 19

/-- The trim code of a leg (R186). -/
def Leg.trimCode (g : Leg) : Int := g.trim / 2 ^ Config.trimBits

def opLaneStatus : OpSpec :=
  { code := 0x020A, sched := .unscheduled, bcast := false, block := some .conv
    check := fun _ f => firstOf [needLength f 4, need (laneArg f.payload) stBadParam]
    run := fun s f =>
      let l := s.lane (byteAt f.payload 0)
      okayWith s (le 4 l.dutyReg ++ le 4 l.currentReg ++ le 4 l.periodReg ++ le 4 l.frames
        ++ ((List.range 16).map fun n => le2s (s.conv.leg n).trimCode).flatten) }

def execLaneConfig (h : Hdr) (p : List Byte) (s : State) : Host.Outcome State Fault Refusal :=
  .next (receive opLaneConfig h p s)

def execLaneStart (h : Hdr) (p : List Byte) (s : State) : Host.Outcome State Fault Refusal :=
  .next (receive opLaneStart h p s)

def execLaneStop (h : Hdr) (p : List Byte) (s : State) : Host.Outcome State Fault Refusal :=
  .next (receive opLaneStop h p s)

def execSetLaneTarget (h : Hdr) (p : List Byte) (s : State) : Host.Outcome State Fault Refusal :=
  .next (receive opSetLaneTarget h p s)

def execSetLaneCoeffs (h : Hdr) (p : List Byte) (s : State) : Host.Outcome State Fault Refusal :=
  .next (receive opSetLaneCoeffs h p s)

def execSetLaneProfile (h : Hdr) (p : List Byte) (s : State) : Host.Outcome State Fault Refusal :=
  .next (receive opSetLaneProfile h p s)

def execSetBurst (h : Hdr) (p : List Byte) (s : State) : Host.Outcome State Fault Refusal :=
  .next (receive opSetBurst h p s)

def execTuningControl (h : Hdr) (p : List Byte) (s : State) : Host.Outcome State Fault Refusal :=
  .next (receive opTuningControl h p s)

def execLanePhaseLock (h : Hdr) (p : List Byte) (s : State) : Host.Outcome State Fault Refusal :=
  .next (receive opLanePhaseLock h p s)

def execLaneLegs (h : Hdr) (p : List Byte) (s : State) : Host.Outcome State Fault Refusal :=
  .next (receive opLaneLegs h p s)

def execLaneStatus (h : Hdr) (p : List Byte) (s : State) : Host.Outcome State Fault Refusal :=
  .next (receive opLaneStatus h p s)

/-! ### The frame start (R188) -/

/-- The charge machine holds the lane's strand in CC (R199). A worker holds no machine: its lane carries CHARGE_MAIN in
CC, and in other phases too; the spec gives the worker no further sign, so that is open (log 34). -/
def State.strandInCc (s : State) (k : Nat) : Bool :=
  let l := s.lane k
  if l.strand == 0xFF then false
  else if s.isWorker then l.fieldCode == 2 && Config.strandInCc l.strand s.time.epoch
  else (s.strand l.strand).mach.phase == .cc

/-- A frame of a lane starts: Table 08-4. A reversal that ends changes the acting side of over-voltages (R219). -/
def execFrameStart (lane : Nat) (s : State) : Host.Outcome State Fault Refusal :=
  if lane < 4 then
    let s1 := s.frame lane (s.strandInCc lane)
    .next (if (s1.lane lane).fn = (s.lane lane).fn then s1 else s1.recheck lane)
  else .next s

/-! ### Adaptive tuning at a boundary (R200 to R203) -/

/-- The seed of the boundary that opens epoch `e`. -/
def tuningSeed (e k : Nat) : Nat :=
  let x := (e ^^^ (0x5A5A * (k + 1))) % 32768
  if x = 0 then 1 else x

/-- A value lies within 0.25 to 4 times its nominal. -/
def quarterRange (v nominal : Nat) : Bool := nominal ≤ 4 * v && v ≤ 4 * nominal

/-- The four estimates of a fit, which the spec gives no formula: open functions of the frozen sums (log 35). -/
def Tuning.estimates (t : Tuning) : List Nat := (List.range 4).map fun i => (Config.openInt (10 + i) t.frozen).toNat % 2 ^ 32

/-- The fit explains at least 90% of the correlated variance: open like the fit (log 35). -/
def Tuning.fits (t : Tuning) : Bool := 0 ≤ Config.openInt 14 t.frozen

/-- The bits of a square root, from the highest down. -/
def sqrtBits (n : Nat) : Nat → Nat → Nat
  | 0, r => r
  | b + 1, r => sqrtBits n b (if (r + 2 ^ b) * (r + 2 ^ b) ≤ n then r + 2 ^ b else r)

/-- The unit of the design's fixed point, and pi in it. -/
def designUnit : Int := 2 ^ 64
def designPi : Int := 57952155664616982739

/-- A root of a first-order factor (1 + s/w) under the bilinear transform at the frame rate: (1 - wT/2) / (1 + wT/2), from wT/2 as a
quotient (R201). -/
def bilinear (num den : Int) : Int := (den - num) * designUnit / (den + num)

/-- The double zero at the LC resonance: wT/2 = 10 P sqrt(N) / (128 sqrt(L C)), with L in nH and C in nF. -/
def zeroLC (l c n period : Nat) : Int :=
  bilinear (sqrtBits (100 * period ^ 2 * n * 2 ^ 128) 120 0) (sqrtBits (16384 * (l * c) * 2 ^ 128) 120 0)

/-- The pole at the ESR zero: wT/2 = 10^7 P / (128 C ESR), with C in nF and ESR in uOhm. -/
def poleESR (c esr period : Nat) : Int := bilinear (10000000 * period) (128 * (c * esr))

/-- The pole at f/2: wT/2 = pi/2. -/
def poleHalf : Int := bilinear designPi (2 * designUnit)

/-- The nearest coefficient code of a value in the design's unit squared. -/
def nearestCode (v : Int) : Int :=
  clampInt (-(2 ^ 31)) (2 ^ 31 - 1) ((v * 2 ^ 25 + designUnit ^ 2) / (2 * designUnit ^ 2))

/-- The compensator of R201: an integrator, two zeros at the LC resonance, poles at the ESR zero and at f/2, by the bilinear transform, which
adds a zero at -1. The gain is an open function of what it depends on: the spec states a phase margin and a crossover and no plant to
meet them with (log 35). -/
def Lane.design (l : Lane) (est : List Nat) : List Int :=
  let ind := getAt est 0 0
  let c := getAt est 1 0
  let esr := getAt est 2 0
  let u := designUnit
  let z := zeroLC ind c l.count l.period
  let p := poleESR c esr l.period
  let q := poleHalf
  let pq := p * q / u
  let g := Config.openInt 20 ((est ++ [l.period, l.count, l.prof 0x85 1, l.prof 0x86 1]).map Int.ofNat)
  let zz := z * z / u
  [g * u, g * (u - 2 * z), g * (zz - 2 * z), g * zz, (u + p + q) * u, -(p + q + pq) * u, pq * u].map nearestCode

/-- The end of a window: the outcome that applies at the next boundary (R201, R202). -/
def State.fitWindow (s : State) (k : Nat) : State :=
  let l := s.lane k
  let est := l.tuning.estimates
  let noms := [l.prof 0x78 4, l.prof 0x7C 4, l.prof 0x80 4]
  let code :=
    if !((est.zip noms).all fun x => quarterRange x.1 x.2) then 2 else if !l.tuning.fits then 3 else if l.tuning.disturbed then 4 else 0
  s.modLane k fun l => { l with tuning := { l.tuning with outcome := some (code, est, if code = 0 then l.design est else []) } }

/-- Each designed coefficient passes the fence where it is written (R18 step 6, R97); one without bounds stays as it was (log 103). -/
def State.fenceDesign (s : State) (k : Nat) (c : List Int) : List Int × State :=
  (c.zipIdx).foldl (fun a x =>
    if (s.coeffBounds k 0 x.2).isSome then
      let (v, t) := a.2.clampCoeff k 0 x.2 x.1
      (a.1 ++ [v], t)
    else (a.1 ++ [getAt (s.lane k).buck x.2 0], a.2)) ([], s)

/-- A decided outcome applies, and the next window starts (R201, R202). -/
def State.applyTuning (s : State) (k : Nat) : State :=
  match (s.lane k).tuning.outcome with
  | none => s
  | some (code, est, design) =>
    let (c, s1) := s.fenceDesign k design
    let out := if code = 0 && c ≠ design then 1 else code
    (s1.modLane k fun l =>
      let l1 : Lane := if code = 0 then { l with buck := c, impedance := some (getAt est 3 0) }.disturb else l
      { l1 with
        sticky := l1.sticky ||| (if code = 0 then 0x40 else 0x20)
        tuning := { l1.tuning with
          done := 0, disturbed := false, outcome := none, sums := List.replicate 64 0, target := s.targetMv k } }).event
      0x7F31 (le 1 k ++ le 1 out ++ zeros 2 ++ (est.map (le 4)).flatten ++ le 4 s.time.epoch)

/-- What disturbed the window in the epoch that closes (R201): a protection event of the lane, a leg-set change, a target
change of more than 5%, a change of strand phase. -/
def State.windowDisturbed (s : State) (k : Nat) (phaseChanged : Bool) (reports : List Report) : Bool :=
  let l := s.lane k
  let t := s.targetMv k
  phaseChanged || bitAt l.closed 1 5 || 5 * l.tuning.target < 100 * ((t : Int) - l.tuning.target).natAbs
    || reports.any fun r => r.lanes.getLsbD k || (r.legs &&& l.legs) ≠ 0

/-- One lane at the boundary that opens the epoch in progress. A window counts from the first boundary after TUNING_CONTROL; an outcome
that is late waits (R162). -/
def State.tuneLane (s : State) (late : Bool) (k : Nat) (phaseChanged : Bool) (reports : List Report) : State :=
  let l := s.lane k
  if l.tuning.mode = 0 || l.body.isNone then s
  else
    let counts := l.tuning.begun && (bitAt l.closed 1 4 || l.tuning.done ≠ 0)
    let s1 := s.modLane k fun l =>
      { l with tuning := { l.tuning with
          seq := if l.tuning.mode = 1 then tuningSeed s.time.epoch k else l.tuning.seq
          disturbed := l.tuning.disturbed || (counts && s.windowDisturbed k phaseChanged reports)
          target := if counts then l.tuning.target else s.targetMv k
          done := if l.tuning.mode = 1 && counts then l.tuning.done + 1 else l.tuning.done
          begun := true } }
    if l.tuning.outcome.isSome then (if late then s1 else s1.applyTuning k)
    else
      let t := (s1.lane k).tuning
      if t.done ≠ 0 && (if t.mode = 1 then t.window else 1000 * t.window) ≤ t.done then s1.fitWindow k else s1

/-- Tuning at the boundary: `old` are the strand phases before it. -/
def State.tuneLanes (s : State) (late : Bool) (old : List ChargePhase) (reports : List Report) : State :=
  [0, 1, 2, 3].foldl (fun s k =>
    let n := (s.lane k).strand
    let changed := n < 16 && !s.isWorker && getAt old n .halt != (s.strand n).mach.phase
    s.tuneLane late k changed reports) s

/-- A lane of this die is in continuous mode (R203). -/
def State.continuousTuning (s : State) : Bool :=
  (List.range 4).any fun k => (s.lane k).tuning.mode == 2 && (s.lane k).body.isSome

end Sys2Proof.Machine
end

