-- ==== Sys2Proof/Machine/PowerPath.lean ====
section
/-!
DEFINITION. The power path: source qualification, the allotment computation, keep-alive, the peer, the lane fields at a
boundary, and the commands of Table 11-14 (11; R250 to R252).
-/
namespace Sys2Proof.Machine

/-! ### The record (Table 11-5) -/

/-- A field of the power-path record. -/
def Path.prof (p : Path) (off len : Nat) : Nat :=
  match p.body with
  | some b => fieldAt b off len
  | none => 0

def Path.reserve (p : Path) : Bool := (p.prof 0 1).testBit 0
def Path.keepAlive (p : Path) : Bool := (p.prof 0 1).testBit 1
def Path.eta (p : Path) : Nat := p.prof 4 2
def Path.hasPeer (p : Path) : Bool := p.prof 0x18 4 ≠ 0 && p.prof 0x1C 1 ≠ 0xFF

/-- The numbers of the source channels. -/
def sourceChans : List Nat := [0, 1, 2, 3]

/-- This die owns source channels: one of BZ0 to BZ3 is enabled (R285, 0xA1). -/
def State.ownsSources (s : State) : Bool := !s.isWorker && sourceChans.any fun k => (s.chan k).enabled

/-! ### What the snapshot gives -/

/-- The link voltage [mV] (R275); none where its accumulator is EMPTY (R374). -/
def State.linkVolts (s : State) : Option Nat := (s.average (s.path.prof 1 1)).map fun a => a * s.path.prof 0x20 4 / 65535

/-- The average current of a channel [mA]; 0 where its accumulator is EMPTY (R374). -/
def State.chanAmps (s : State) (k : Nat) : Int :=
  match s.average ((s.chan k).prof 2 1) with
  | some a => (s.chan k).milliamps a
  | none => 0

/-- The import: enabled source channels, each at least 0 (R276). -/
def State.importAmps (s : State) : Nat :=
  ((sourceChans.filter fun k => (s.chan k).enabled).map fun k => (s.chanAmps k).toNat).foldl (· + ·) 0

/-! ### What the latest boundary left (R19, R23) -/

def State.seen (s : State) (k : Nat) : ChanSeen := getAt s.path.seen k ChanSeen.reset
def State.tie (s : State) (i : Nat) : TieSeen := getAt s.path.ties i TieSeen.reset

def Chan.view (c : Chan) : ChanSeen := { state := c.state, welded := c.welded, retryDue := c.retryDue, retries := c.retries }

def Port.view (p : Port) : TieSeen :=
  { sink := p.countsSink && p.contract
    source := p.countsSource
    grant := p.grant
    slew := p.slew
    exports := p.exporter && (p.mode == .attachedSource || p.mode == .transition) && p.grant.isSome && !p.suspended }

/-- The channel states and the progress of the ties enter policy as they stand once the boundary has acted (R19, R23, R276, R279; log
108). -/
def State.freezePath (s : State) : State :=
  s.modPath fun p => { p with seen := p.chans.map Chan.view, ties := s.clasp.ports.map Port.view }

/-- The lane records of the domain, in ascending address and lane order (R276). -/
def State.domainRecords (s : State) : List (List Byte) :=
  ((List.range 64).map fun a =>
    if a = 0 || s.takesPart a then (List.range 4).map fun l => s.telRecord a l else []).flatten

/-- The sum over the lanes of p_in x 1,000,000 / v_link, each division rounded down; open where v_link is 0 or unknown (log 37). -/
def State.domainDraw (s : State) (vLink : Option Nat) : Int :=
  match vLink with
  | some (v + 1) => s.domainRecords.foldl (fun a r => a + recPower r * 1000000 / ((v : Int) + 1)) 0
  | _ => Config.openInt 1 (s.domainRecords.map recPower)

/-- |V_link - V_src| is at most the close window (R272, R273). -/
def State.withinClose (s : State) (vLink : Option Nat) (k : Nat) : Bool :=
  match vLink, s.chanVolts k with
  | some l, some v => 1000 * ((l : Int) - v).natAbs ≤ s.path.prof 6 2 * v
  | _, _ => false

/-! ### Sources (R273) -/

/-- One boundary of the qualify count: the source-side voltage lies in its window. -/
def State.qualifyTick (s : State) : State :=
  sourceChans.foldl (fun s k =>
    let c := s.chan k
    let inWin := match s.chanVolts k with
      | some v => c.prof 0x30 4 ≤ v && v ≤ c.prof 0x34 4
      | none => false
    s.modChan k fun c => { c with qualify := if c.enabled && inWin then Nat.min 255 (c.qualify + 1) else 0 }) s

/-- A source channel is qualified (R273). A channel that is still CLOSING stays in the sequence that closes it. -/
def State.qualified (s : State) (k : Nat) : Bool :=
  let c := s.chan k
  let y := s.seen k
  c.enabled && (y.state == .opened || y.state == .closed || y.state == .closing || y.retryDue)
    && c.prof 0x27 1 ≤ c.qualify && !y.welded && !s.path.inhibit.getLsbD k && (k < 2 || (s.tie (k - 2)).sink)

/-- The limit of a source: a tie's is bounded by its contract (R273). -/
def State.sourceLimit (s : State) (k : Nat) : Nat :=
  let r := (s.chan k).prof 0x2C 4
  if k < 2 then r else match (s.tie (k - 2)).grant with
    | some g => Nat.min r g
    | none => r

def State.priority (s : State) (k : Nat) : Nat := (s.chan k).prof 1 1
def State.parallel (s : State) (k : Nat) : Bool := ((s.chan k).prof 0 1).testBit 1

/-- Qualified sources in priority order. -/
def State.qualifiedSources (s : State) : List Nat :=
  sortBy (fun a b => s.priority a ≤ s.priority b) (sourceChans.filter s.qualified)

/-- Sources that are CLOSED and qualified: the capacity's (R276). -/
def State.closedSources (s : State) : List Nat :=
  sourceChans.filter fun k => (s.seen k).state == .closed && s.qualified k

/-- A tie channel that exports is wanted while its port is in ATTACHED_SOURCE or TRANSITION with a granted contract
(R350). -/
def State.exportWanted (s : State) (k : Nat) : Bool := 2 ≤ k && (s.tie (k - 2)).exports

/-- Driven sources that are no longer qualified, and ties in export that are no longer wanted, open at the next
boundary. -/
def State.lostSources (s : State) : List Nat :=
  sourceChans.filter fun k => (s.seen k).state.driven && !s.qualified k && !s.exportWanted k

/-- A channel that a close command would close. -/
def ChanSeen.idle (y : ChanSeen) : Bool := y.state == .opened || y.retryDue

/-- Ties in export that are wanted and open. -/
def State.exportCloses (s : State) : List Nat := sourceChans.filter fun k => s.exportWanted k && (s.seen k).idle

/-- The largest of a list. -/
def maxOf (l : List Nat) : Nat := l.foldl Nat.max 0

/-- The capacity (R276). -/
def State.capacity (s : State) (closed : List Nat) : Nat :=
  let l := closed.map s.sourceLimit
  let t := l.foldl (· + ·) 0
  if s.path.reserve && 2 ≤ l.length then t - maxOf l else t

/-! ### Claimants and shares (R276, R285) -/

/-- A claimant: a strand, or the peer. -/
inductive Claimant where
  | strand (n : Nat)
  | peer
deriving DecidableEq, Repr

/-- V_s of a strand, or its CHARGE_MAIN target where it is unknown. -/
def State.claimVolts (s : State) (n : Nat) : Nat :=
  match (s.strand n).vs with
  | some v => v
  | none => (s.strand n).wantedPlan.main

/-- The claimants in ascending priority; strands before the peer of their priority. -/
def State.claimants (s : State) (peer : Bool) : List Claimant :=
  let strands := (List.range 16).filter fun n => (s.strand n).body.isSome && (s.strand n).demand ≠ 0
  let keyed := (strands.map fun n => ((s.strand n).prof 0x5A 1 * 32 + n, Claimant.strand n))
    ++ (if peer then [(s.path.prof 0x1C 1 * 32 + 31, Claimant.peer)] else [])
  (sortBy (fun a b => a.1 ≤ b.1) keyed).map (·.2)

/-- The link-side need of a strand's demand, at a link voltage above 0. -/
def State.strandNeed (s : State) (n vLink : Nat) : Nat :=
  ceilDiv ((s.strand n).demand * s.claimVolts n * 1000) (vLink * s.path.eta)

/-- The peer's demand, capped at the grant ceiling. -/
def State.peerDemand (s : State) : Nat :=
  match s.path.peer with
  | some p => Nat.min p.demand (s.path.prof 0x18 4)
  | none => 0

/-- Serves the claimants in order: the shares of the strands, and the peer's grant. -/
def State.serve (s : State) (vLink : Nat) : Nat → List Claimant → List (Nat × Nat) × Nat
  | _, [] => ([], 0)
  | budget, c :: r =>
    match c with
    | .strand n =>
      let need := s.strandNeed n vLink
      if need ≤ budget then
        let (l, g) := s.serve vLink (budget - need) r
        ((n, (s.strand n).demand) :: l, g)
      else
        let (l, g) := s.serve vLink 0 r
        ((n, budget * vLink * s.path.eta / Nat.max 1 (s.claimVolts n * 1000)) :: l, g)
    | .peer =>
      let grant := Nat.min s.peerDemand budget
      let (l, _) := s.serve vLink (budget - grant) r
      (l, grant)

/-! ### Keep-alive (R280) -/

/-- A counted lane that can boost: a link-side input, on a certificate that permits boost. -/
def State.entryBoosts (s : State) (st : Strand) (e : Nat) : Bool :=
  let (a, l, _) := st.entry e
  s.boostPermitted && st.counted.getLsbD e
    && (if a = 0 then (s.lane l).linkInput ≠ 0xFF else !bitAt (st.record s e) 1 0)

/-- The machine that the computation has decided so far. -/
def Strand.coming (st : Strand) : ChargeMachine := st.next.getD st.mach

/-- The floor of the strand voltage [mV]. -/
def State.boostFloor (s : State) (st : Strand) : Nat :=
  Nat.max (s.path.prof 0x14 2 * st.wantedPlan.main / 1000) ((st.fresh.map (·.vDischarge)).getD 0)

def State.boostEligible (s : State) (n : Nat) : Bool :=
  let st := s.strand n
  let m := st.coming
  st.body.isSome && st.entries.any (fun e => s.entryBoosts st e)
    && (m.phase != .halt || m.reason == .idle || m.reason == .host || m.reason == .complete || m.reason == .keepAlive)
    && m.phase != .check && m.phase != .recover
    && (if st.flag 0 then (st.fresh.map (·.dischargeOk)).getD false else true)
    && (match st.vs with
      | some v => decide (s.boostFloor st ≤ v)
      | none => false)
    && getAt s.therm.frozen.strands n 0 < 3

/-- I_max of a strand [mA]. -/
def State.boostMax (s : State) (n : Nat) : Nat :=
  let st := s.strand n
  let sum := (st.entries.filter fun e => st.counted.getLsbD e).foldl (fun a e => a + st.rating s e) 0
  match st.fresh with
  | some b => Nat.min sum b.iDischarge
  | none => sum

/-- cap_s at the link target [mA], reduced by the battery scheme (R393); at a link target of 0 mV no rule states it (log 37). -/
def State.boostCap (s : State) (n vT : Nat) : Nat :=
  (if vT = 0 then (Config.openInt 21 [n, s.boostMax n, s.claimVolts n]).toNat
    else s.boostMax n * s.claimVolts n * s.path.eta / (vT * 1000)) * s.battPercent n / 100

/-- Strands in claimant order until the need and the minimum count are met. -/
def State.chooseBoost (s : State) (vT need least : Nat) : Nat → Nat → List Nat → List Nat
  | _, _, [] => []
  | cap, count, n :: r =>
    if need ≤ cap && least ≤ count then []
    else n :: s.chooseBoost vT need least (cap + s.boostCap n vT) (count + 1) r

/-- The eligible strands in claimant order. -/
def State.boostOrder (s : State) : List Nat :=
  sortBy (fun a b => (s.strand a).prof 0x5A 1 * 32 + a ≤ (s.strand b).prof 0x5A 1 * 32 + b)
    ((List.range 16).filter s.boostEligible)

/-- The string current of a chosen strand [mA]; for a strand at 0 mV no rule states it (log 37). -/
def State.boostCurrent (s : State) (n vT need total : Nat) : Nat :=
  let cap := s.boostCap n vT
  let link := if cap = 0 then 0 else Nat.min cap (ceilDiv (need * cap) total)
  if s.claimVolts n * s.path.eta = 0 then (Config.openInt 22 [n, vT, need]).toNat
  else ceilDiv (link * vT * 1000) (s.claimVolts n * s.path.eta)

/-- The link target of keep-alive before the fence (R280, R304). -/
def State.keepAliveTarget (s : State) : Nat := s.path.refAt.getD (s.path.prof 0x0C 4)

/-! ### The computation during epoch n (R272 to R285) -/

/-- What the source rules decide: channels to close and open, the sources that count, a precharge, and the source
whose voltage the link target takes (Table 11-8 step 1). -/
structure SourcePlan where
  close : List Nat
  open_ : List Nat
  closed : List Nat
  precharge : Option (Nat × Nat)
  failed : Option Nat
  follow : Option Nat
deriving DecidableEq, Repr

/-- Some source channel is CLOSED and does not export (R274). -/
def State.sourceClosed (s : State) : Bool := sourceChans.any fun k => (s.chan k).state == .closed && !s.exporting k

/-- The same, as the latest boundary left it. -/
def State.sourceSeen (s : State) : Bool :=
  sourceChans.any fun k => (s.seen k).state == .closed && !(2 ≤ k && (s.tie (k - 2)).source)

/-- The link has reached the precharge level of source `k` (R272). -/
def State.precharged (s : State) (vLink : Option Nat) (k : Nat) : Bool :=
  match vLink, s.chanVolts k with
  | some l, some v => s.path.prof 0x10 2 * v ≤ 1000 * l
  | _, _ => false

/-- No source counts: the precharge in progress, or its start, where no source channel is CLOSED, the holder is NONE and the selected
source stands in BZ5's mask (R272). The timeout counts from the command that closes BZ5 (log 55); it acts at the boundary after the
epoch in which it passes. A BZ5 trip abandons the precharge (R269). A source closes onto a link that boost fields have come to hold
within the close window only (R273). -/
def State.prechargePlan (s : State) (vLink : Option Nat) (opens : List Nat) : SourcePlan :=
  let base : SourcePlan :=
    { close := [], open_ := opens, closed := [], precharge := s.path.precharge, failed := none, follow := none }
  match s.path.precharge with
  | some (k, t) =>
    if !(s.seen 5).state.driven then { base with precharge := none }
    else if !s.qualified k then
      { base with open_ := 5 :: opens, precharge := none, failed := some k }
    else if (s.seen k).state == .closing then base
    else if s.precharged vLink k then
      { base with close := if s.path.holder == .none || s.withinClose vLink k then [k] else [] }
    else if s.path.prof 0x12 2 * 1000 < t + s.time.length then
      { base with open_ := 5 :: opens, precharge := none, failed := some k }
    else base
  | none =>
    let idle := { base with open_ := if (s.seen 5).state.driven then 5 :: opens else opens }
    match s.qualifiedSources.head? with
    | some k =>
      if !s.sourceSeen && s.path.holder == .none && ((s.chan 5).prof 1 1).testBit k && (s.seen 5).idle then
        { base with close := [5], precharge := some (k, 0) }
      else idle
    | none => idle

/-- Table 11-8, beside any precharge that was in progress: the link target follows the source that returns, and the source closes
once the link lies in its window. -/
def SourcePlan.returning (p : SourcePlan) (s : State) (vLink : Option Nat) : SourcePlan :=
  match s.qualifiedSources.head? with
  | some k =>
    if s.path.holder == .lanes then
      { p with
        close := if s.path.changing == some k && s.withinClose vLink k && !p.close.contains k then k :: p.close else p.close
        follow := some k }
    else p
  | none => p

/-- A source counts: closing alongside, and changing upwards (R273, R284). -/
def State.sourcePlan (s : State) (vLink : Option Nat) (boosts : Bool) : SourcePlan :=
  let opens := s.lostSources
  let closed := s.closedSources
  let bz5 := match s.path.precharge with
    | some (k, _) => if (s.seen k).state == .closed then [5] else []
    | none => if (s.seen 5).state.driven then [5] else []
  if closed.isEmpty then
    let p := s.prechargePlan vLink opens
    if boosts then p.returning s vLink else p
  else
    let base : SourcePlan :=
      { close := [], open_ := bz5 ++ opens, closed := closed, precharge := none, failed := none, follow := none }
    match s.qualifiedSources.head? with
    | some k =>
      if closed.contains k then
        { base with close := s.qualifiedSources.filter fun j =>
            j ≠ k && s.parallel k && s.parallel j && (s.seen j).idle && s.withinClose vLink j }
      else if !(s.seen k).idle then base
      else if s.parallel k && closed.all (fun j => s.parallel j) && s.withinClose vLink k then { base with close := [k] }
      else if boosts then { base with closed := [], open_ := closed ++ bz5 ++ opens }
      else base
    | none => base

/-- The three figures of PATH_STATUS, the shares and the peer's grant. -/
structure ShareResult where
  cap : Nat
  load : Nat
  budget : Nat
  shares : List (Nat × Nat)
  grant : Nat
  draw : Int
deriving DecidableEq, Repr

/-- The shares of a die that owns sources or has no peer, or of one that lives on a peer's grant (R276, R285). -/
def State.shareOut (s : State) (vLink : Option Nat) (closed : List Nat) : ShareResult :=
  let draw := s.domainDraw vLink
  let fresh := s.path.hasPeer && !s.path.peerStale
  if s.ownsSources || !s.path.hasPeer then
    let peerDraw : Int := if fresh then ((s.path.peer.map (·.draw)).getD 0 : Nat) else 0
    let load := ((s.importAmps : Int) - draw - peerDraw).toNat
    let cap := s.capacity closed
    let vmin := closed.foldl (fun m k => Nat.min m ((s.chan k).prof 0x30 4)) (2 ^ 32)
    let none_ : ShareResult := { cap := cap, load := load, budget := 0, shares := [], grant := 0, draw := draw }
    match vLink with
    | some v =>
      if closed.isEmpty || v < vmin || v = 0 then none_
      else
        let budget := cap - load - s.path.prof 8 4
        let (l, g) := s.serve v budget (s.claimants (fresh && s.peerDemand ≠ 0))
        { cap := cap, load := load, budget := budget, shares := l, grant := g, draw := draw }
    | none => none_
  else
    let budget := if fresh then (s.path.peer.map (·.grant)).getD 0 else 0
    let l := match vLink with
      | some v => if v = 0 then [] else (s.serve v budget (s.claimants false)).1
      | none => []
    { cap := 0, load := 0, budget := budget, shares := l, grant := 0, draw := draw }

/-- The load that the need of keep-alive rests on (R280); none of it with an EMPTY link accumulator (R374). -/
def State.aliveLoad (s : State) (vLink : Option Nat) (draw : Int) : Nat :=
  match vLink with
  | some _ => if s.path.boostTold then (-draw).toNat else s.path.lastLoad
  | none => 0

/-- A lane record shows a reversal in its epoch (Table 08-8). -/
def recReversed (r : List Byte) : Bool := bitAt r 1 6

/-- Boost telemetry exists since a source was last closed: a BOOST field has stood for the whole epoch of the snapshot, or a lane has
reversed by itself in it (R280, R282; log 113). -/
def State.tellBoost (s : State) (closed : Bool) : State :=
  let told := s.path.boostTold || 2 ≤ s.path.boostEpochs || s.domainRecords.any recReversed
  s.modPath fun y => { y with boostTold := !closed && told }

/-- The strands that keep-alive chooses, each with its string current, in the order of R280. -/
def State.keepAlivePlan (s : State) (vLink : Option Nat) (vT : Nat) (draw : Int) : List (Nat × Nat) :=
  let need := ceilDiv (s.aliveLoad vLink draw * (1000 + s.path.prof 0x16 2)) 1000
  let chosen := s.chooseBoost vT need (s.path.prof 2 1) 0 0 s.boostOrder
  let total := chosen.foldl (fun a n => a + s.boostCap n vT) 0
  chosen.map fun n => (n, s.boostCurrent n vT need total)

/-- A chosen strand halts for KEEP_ALIVE and loses its Q sums; one that is released passes through CHECK (R258). -/
def State.keepAliveMachines (s : State) (chosen : List Nat) : State :=
  (List.range 16).foldl (fun s n =>
    let st := s.strand n
    let m := st.coming
    let x := chargeIn s st st.counted
    if st.body.isNone then s
    else if chosen.contains n then
      if m.phase == .halt && m.reason == .keepAlive then s
      else s.modStrand n fun y => { y with
        next := some { m.haltFor x .keepAlive with qRef := 0, qRefCount := 0, qLast := [] }, demand := 0 }
    else if m.phase == .halt && m.reason == .keepAlive then
      s.modStrand n fun y => { y with next := some (m.fresh.enter x .check), demand := 0 }
    else s) s

/-! ### Fields, BZ4 and drop compensation (R249, R252, R278) -/

/-- A source is CLOSED for the charge codes of R282: one that counts; without the power-path record, one that is closed; on a die that
lives on a peer's grant, one of the fresh peer (log 114). -/
def State.sourceBack (s : State) (closed : List Nat) : Bool :=
  !closed.isEmpty || (s.path.body.isNone && s.sourceSeen)
    || (!s.ownsSources && s.path.hasPeer && !s.path.peerStale && ((s.path.peer.map (·.closedMask)).getD 0) ≠ 0)

/-- The entries whose reversal record is still to be answered: a source closed again, or BOOST fields, end it (R282). -/
def State.noteReversals (s : State) (back : Bool) (chosen : List Nat) : State :=
  (List.range 16).foldl (fun s n =>
    s.modStrand n fun x =>
      { x with reversed :=
          if back || chosen.contains n then 0
          else x.reversed ||| bitsOf 16 (x.entries.filter fun e => recReversed (x.record s e)) }) s

/-- The lanes whose reversal record is still to be answered get OFF in place of a charge code (R282). -/
def Strand.heldOff (st : Strand) (l : List (Nat × Nat × Nat)) : List (Nat × Nat × Nat) :=
  (st.entries.zip l).map fun x => if st.reversed.getLsbD x.1 then (x.2.1, x.2.2.1, laneField 1 0) else x.2

/-- The fields of the domain: charging fields, and BOOST fields of the chosen strands. -/
def State.allFields (s : State) (boost : List (Nat × Nat)) : List (Nat × Nat × Nat) :=
  ((List.range 16).map fun n =>
    if (s.strand n).body.isNone then []
    else match boost.find? (fun z => z.1 == n) with
      | some z => (s.strand n).fields s 8 z.2
      | none => (s.strand n).heldOff (s.chargeFields n)).flatten

/-- The 8-byte entry of a die (R250). -/
def entryOf (l : List (Nat × Nat × Nat)) (address : Nat) : List Byte :=
  ((List.range 4).map fun k =>
    match l.find? (fun z => z.1 == address && z.2.1 == k) with
    | some z => le 2 z.2.2
    | none => le 2 0).flatten

/-- A strand wants its switches closed (R278). -/
def Strand.wantsBz4 (st : Strand) : Bool :=
  let m := st.coming
  st.body.isSome && (m.phase != .halt || m.reason == .keepAlive)

/-- The BZ4 bit of a die: closed while a strand that it serves wants it, open once its lanes are OFF (R278). -/
def State.bz4Bit (s : State) (address : Nat) : Bool :=
  let serving := (List.range 16).filter fun n => (s.strand n).body.isSome && (s.strand n).dies.contains address
  serving.any (fun n => (s.strand n).wantsBz4) ||
    (s.path.bz4Map.getLsbD address &&
      serving.any fun n => (s.strand n).entries.any fun e =>
        ((s.strand n).entry e).1 == address &&
          !(recMode ((s.strand n).record s e) == 0 || recMode ((s.strand n).record s e) == 15))

/-- R x I of a lane [mV] (R252): from the lane's own telemetry of the epoch before the one in progress, with the settings of the strand
record that the die holds (log 41). -/
def State.dropOf (s : State) (l : Lane) : Nat :=
  match (s.strand l.strand).dropSet with
  | some (ceiling, _) =>
    if l.strand < 16 then Nat.min ((l.impedance).getD ceiling) ceiling * (recCurrent l.closed).toNat / 1000000 else 0
  | none => 0

/-- The drop compensation of every lane for the boundary in progress (R252). -/
def State.enterDrops (s : State) : State :=
  s.modConv fun c => { c with lanes := c.lanes.map fun l => { l with drop := s.dropOf l } }

/-- The link target that follows a returning source (Table 11-8 step 1): its voltage, and for a tie a step of at most
the contract slew from the target before (R351). -/
def State.followTarget (s : State) (k : Nat) : Option Nat :=
  (s.chanVolts k).map fun v =>
    if k < 2 then v
    else
      let d := (s.tie (k - 2)).slew * s.time.length
      if s.path.linkTarget ≤ v then Nat.min v (s.path.linkTarget + d) else Nat.max v (s.path.linkTarget - d)

/-! ### The computation (R242, R276) -/

/-- Loads without the power-path record: no source, no keep-alive, no share (R275). -/
def State.pathDecision (s : State) : SourcePlan × ShareResult × List (Nat × Nat) × Nat × State :=
  if s.path.body.isNone then
    ({ close := [], open_ := [], closed := [], precharge := none, failed := none, follow := none },
      { cap := 0, load := 0, budget := 0, shares := [], grant := 0, draw := 0 }, [], 0, s)
  else
    let vLink := s.linkVolts
    let s := s.tellBoost (!s.closedSources.isEmpty)
    let alive := s.path.keepAlive && (s.ownsSources || !s.path.hasPeer) && !s.boostOrder.isEmpty
    let p := s.sourcePlan vLink alive
    let r := s.shareOut vLink p.closed
    let follow := p.follow.bind fun k => s.followTarget k
    let (vT, s1) := s.clampTo 5 (follow.getD s.keepAliveTarget) fun b => (certLinkMin b, certLinkMax b)
    let boost := if p.closed.isEmpty && alive then s1.keepAlivePlan vLink vT.toNat r.draw else []
    ({ p with close := p.close ++ s.exportCloses }, r, boost, vT.toNat, s1)

/-- The whole computation of an allotment during epoch n. -/
def State.computeAllotment (s0 : State) : State :=
  let s1 := (List.range 16).foldl (fun s n => s.computeStrand n) s0
  let s2 := (List.range 16).foldl (fun s n => s.decidePlan n) s1
  let (p, r, boost, vT, s3) := s2.pathDecision
  let s4 := s3.keepAliveMachines (boost.map (·.1))
  let s5 := s4.modCharge fun c =>
    { c with strands := (c.strands.zipIdx).map fun x =>
        { x.1 with share := match r.shares.find? (fun z => z.1 == x.2) with
            | some z => z.2
            | none => 0 } }
  let s6 := ((List.range 16).foldl (fun s n => s.closeStrand n) s5).noteReversals (s3.sourceBack p.closed) (boost.map (·.1))
  let fields := s6.allFields boost
  let bz4 := bitsOf 64 ((List.range 64).filter s6.bz4Bit)
  let vLink := s2.linkVolts
  let need := match vLink with
    | some (v + 1) => (List.range 16).foldl (fun a n =>
        if (s6.strand n).body.isSome && (s6.strand n).demand ≠ 0 then a + s6.strandNeed n (v + 1) else a) 0
    | _ => (Config.openInt 2 (s6.charge.strands.map fun x => (x.demand : Int))).toNat
  s6.modPath fun y =>
    { y with
      cap := r.cap, load := r.load, budget := r.budget
      shares := (s6.charge.strands.map (·.share))
      grant := r.grant
      lastLoad := if p.closed.isEmpty || vLink.isNone then y.lastLoad else r.load
      precharge := p.precharge
      preFailed := p.failed
      changing := p.follow
      linkDemand := need
      draw := r.draw.toNat
      bz4Map := bz4
      decided := some
        { close := bitsOf 6 p.close, open_ := bitsOf 6 p.open_, entries := (List.range 64).map fun a => entryOf fields a,
          bz4 := bz4, linkTarget := vT, boosting := bitsOf 16 (boost.map (·.1)) } }

/-! ### A lane field at its boundary (R251, R281, R282) -/

/-- The lane follows its fields again after an auto-reversal (R282). -/
def Lane.followField (l : Lane) : Lane := { l with autoReversed := false, reversedAt := 0 }

/-- The lane goes OFF, or stays OFF; in a protection mode the code is stored (R251). -/
def State.fieldOff (s : State) (k : Nat) : State := (s.modLane k Lane.followField).stopLane k

/-- The plan's target of a code (R253). -/
def Plan.target (p : Plan) (code : Nat) : Nat :=
  if code = 2 then p.main else if code = 3 then p.recover else if code = 4 then p.maintain else p.equalise

/-- The function that the lane runs in or is reversing to. -/
def Lane.goal (l : Lane) : LaneFn :=
  match l.reversal with
  | some r => r.fn
  | none => l.fn

/-- A running lane takes a function and its values: at once, or by a reversal; an OFF lane starts with the checks of
R189 and R232. -/
def State.runIn (s : State) (k : Nat) (fn : LaneFn) : State :=
  let l := s.lane k
  if l.mode == .off then
    if s.mayDrive && l.legs ≠ 0 && (s.startCheck k fn).isNone then s.launch k fn else s
  else if l.mode.running then if l.goal == fn then s else s.reverseAtBoundary k fn
  else s.modLane k fun l => { l with stopAtRelease := false }

/-- A CHARGE code: the plan's target with the drop compensation within the record's maximum, and the current, each through the
fence (R251, R252). -/
def State.fieldCharge (s : State) (k code current : Nat) (p : Plan) : State :=
  let base := p.target code
  let most := match (s.strand (s.lane k).strand).dropSet with
    | some (_, m) => m * base / 10000
    | none => 0
  let (d, s1) := s.clampMax 9 (if code = 2 then Nat.min (s.lane k).drop most else 0) fun b => certCv b * base / 10000
  let (v, s2) := s1.clampMax 1 (base + d) fun b => certVout b k
  let (i, s3) := s2.clampMax 2 (current * p.lsb) fun b => certIcharge b k
  (s3.modLane k fun l =>
    (if l.plan == some (v, i) && l.share == some i then l else { l with plan := some (v, i), share := some i }.disturb).followField).runIn
    k .charge

/-- A BOOST code (R281). -/
def State.fieldBoost (s : State) (k current target : Nat) (p : Plan) : State :=
  if (s.lane k).linkInput == 0xFF then s.fieldOff k
  else if s.limits.isSome && !s.boostPermitted then (s.countClamps 0x0D 1).fieldOff k
  else
    let (i, s1) := s.clampMax 3 (current * p.lsb) fun b => certIboost b k
    let (v, s2) := s1.clampTo 5 target fun b => (certLinkMin b, certLinkMax b)
    (s2.modLane k fun l =>
      (if l.plan.isNone && l.share == some i && l.linkHold == v.toNat then l
        else { l with plan := none, share := some i, linkHold := v.toNat }.disturb).followField).runIn k .boost

/-- A lane field takes effect; `zeroed` says that the worker has missed two allotments in a row (R21). At the first
boundary after an auto-reversal the lane stays as that left it, whatever field applies (R282). -/
def State.applyField (s : State) (k field target : Nat) (zeroed : Bool) : State :=
  let l := s.lane k
  let code := field / 4096
  let s1 := s.modLane k fun l => { l with fieldCode := code }
  if l.autoReversed && l.reversedAt = 0 then s1.modLane k fun l => { l with reversedAt := 1 }
  else if l.body.isNone || l.strand == 0xFF || code = 0 then
    s1.modLane k fun l => { l with share := if l.strand == 0xFF then none else l.share }.followField
  else match (s.strand l.strand).plan with
    | none => s1.fieldOff k
    | some p =>
      if code = 8 then s1.fieldBoost k (field % 4096) target p
      else if 2 ≤ code && code ≤ 5 then s1.fieldCharge k code (if zeroed then 0 else field % 4096) p
      else s1.fieldOff k

/-- The fields of an 8-byte entry. -/
def State.applyEntry (s : State) (entry : List Byte) (target : Nat) (zeroed : Bool) : State :=
  [0, 1, 2, 3].foldl (fun s k => s.applyField k (fieldAt entry (2 * k) 2) target zeroed) s

/-- The commanded state of BZ4 (R278, R270). -/
def State.applyBz4 (s : State) (closed : Bool) : State :=
  let s1 := s.modChan 4 fun c => { c with wanted := closed }
  if closed then s1.closeChan 4 else s1.openChan 4

/-- A failed precharge at its boundary: BZ5 opens, the event, and a trip of the source (R272). -/
def State.failPrecharge (s : State) (k : Nat) : State :=
  let s1 := s.openChan 5
  let m := (s1.chan k).state
  (if m == .opened || m == .closing || m == .closed then s1.openTrip k 0 else s1).event 0x7F62 (le 1 k ++ zeros 3 ++ le 4 s.time.epoch)

/-- The decision of the computation takes effect on the manager or the standalone die; where there is none, the entry before stands
(R18, R162). -/
def State.applyDecided (s : State) : State :=
  match s.path.decided with
  | none => s.applyEntry s.path.entry s.path.linkTarget false
  | some d =>
    let s1 := (d.open_.members).foldl (fun s k => s.openChan k) s
    let s2 := match s1.path.preFailed with
      | some k => (s1.failPrecharge k).modPath fun p => { p with preFailed := none }
      | none => s1
    let s3 := (d.close.members).foldl (fun s k => s.closeChan k) s2
    let own := getAt d.entries 0 (zeros 8)
    let s4 := s3.modPath fun p =>
      { p with
        linkTarget := d.linkTarget
        boosting := d.boosting
        boostEpochs := if d.boosting = 0 then 0 else p.boostEpochs + 1
        precharge := p.precharge.map fun x => (x.1, if d.close.getLsbD 5 then 0 else x.2)
        entry := own
        decided := none }
    (s4.applyEntry own d.linkTarget false).applyBz4 (d.bz4.getLsbD 0)

/-! ### The holder, the peer and the precharge clock at a boundary (R272, R274, R285) -/

def Holder.code : Holder → Nat
  | .none => 0 | .source => 1 | .lanes => 2

/-- The link holder of a boundary (R274). -/
def State.decideHolder (s : State) : State :=
  let h : Holder :=
    if s.sourceClosed then .source
    else if s.path.boosting ≠ 0 then .lanes
    else .none
  if s.isWorker || h == s.path.holder then s
  else
    let s1 := (s.modPath fun p => { p with holder := h }).event 0x7F61
      (le 1 s.path.holder.code ++ le 1 h.code ++ zeros 2 ++ le 4 s.time.epoch)
    if s.pendant.mode ≠ 1 then s1
    else if s.path.holder == .lanes then s1.pendantEnd 3 2
    else if h == .lanes then s1.pendantAim
    else s1

/-- The Pendant setpoint as it stands at the boundary (R304). -/
def State.samplePendant (s : State) : State :=
  let p := s.pendant
  s.modPath fun y =>
    { y with refAt := if p.mode = 1 && p.stored then some (if s.path.holder == .lanes then p.ref.getD p.target else p.target) else none }

/-- Time since BZ5's close, in completed epochs of `us` (R272). -/
def Path.prechargeTick (p : Path) (us : Nat) : Path :=
  { p with precharge := p.precharge.map fun x => (x.1, x.2 + us) }

/-- The peer's message enters, and its freshness is judged (R285). -/
def State.enterPeer (s : State) : State :=
  let y := s.path
  let k := ceilDiv (y.prof 0x1E 2 * 1000) (Nat.max 1 s.time.length)
  let age := if y.peerNew.isSome then 0 else y.peerAge + 1
  let stale := !((y.peerNew.isSome || y.peer.isSome) && age < k)
  let s1 := s.modPath fun p =>
    { p with peer := if p.peerNew.isSome then p.peerNew else p.peer, peerNew := none, peerAge := age, peerStale := stale }
  if y.hasPeer && stale != y.peerStale then
    s1.event 0x7F63 (le 1 (bit stale) ++ zeros 3 ++ le 4 s.time.epoch)
  else s1

/-- The mask of closed channels. -/
def Path.closedMask (p : Path) : Nat :=
  (p.chans.zipIdx).foldl (fun m x => if x.1.state == .closed then m ||| 2 ^ x.2 else m) 0

/-- A manager sends PEER_POWER on the peer CAN controller at its boundary (R285). The tag and the destination node of
this request are free: no record names them (log 42). -/
def State.sendPeer (s : State) : State :=
  let p := s.path
  let i := 1 + p.prof 0x1D 1
  if s.isManager && p.hasPeer && s.ifaceReady i then
    let t := (Config.openInt 23 [(s.time.epoch : Int)]).toNat
    let node := (Config.openInt 24 []).toNat
    let k : Packet :=
      { flags := 0, target := 0, tag := BitVec.ofNat 8 (1 + t % 127), opcode := 0x0510, epoch := 0,
        payload := le 4 p.linkDemand ++ le 4 p.draw ++ le 4 p.grant ++ le 1 p.holder.code ++ le 1 p.closedMask ++ zeros 2 }
    s.modCmd fun c =>
      c.setOut i (c.out i ++ [{ pkt := k, node := node % 255, isEvent := false, frees := none }])
  else s

/-! ### The records (Tables 11-2, 11-5) -/

/-- A code's level above (or below) the zero level, in 0.1 mV x 1024. -/
def codeAbove (b : List Byte) (off : Nat) : Int := (fieldAt b off 2 : Int) * 18000 - (fieldAt b 0x10 2 : Int) * 1024

/-- The current that a code stands for, as a magnitude [mA]. -/
def codeAmps (b : List Byte) (off : Nat) : Nat := (codeAbove b off).natAbs * fieldAt b 0x14 4 / (10240 * 1000)

/-- The fields of a channel record in their ranges (Table 11-2). -/
def chanBodyOk (k : Nat) (b : List Byte) : Bool :=
  let f := fun o n => fieldAt b o n
  let src := k < 4
  let accOk := fun v => v < 64 || (v == 0xFF && !src)
  b.length == 64 && byteAt b 0 ≤ (if src then 3 else 1)
    && (if src then byteAt b 1 ≤ 3 else if k = 5 then 1 ≤ byteAt b 1 && byteAt b 1 ≤ 15 else byteAt b 1 == 0)
    && accOk (byteAt b 2) && accOk (byteAt b 3)
    && f 4 2 ≤ 1023 && f 6 2 ≤ 1023 && f 8 2 ≤ 1023 && f 0xA 2 ≤ 1023
    && 0 < codeAbove b 6 && codeAbove b 8 < 0
    && (if 2 ≤ k && k ≤ 4 then codeAbove b 0xA < 0 else f 0xA 2 == 0)
    && byteAt b 0xC ≤ 80 && byteAt b 0xD ≤ 180 && f 0xE 2 ≤ 380 && f 0x10 2 ≤ 18000 && zeroAt b 0x12 2
    && 0 < f 0x14 4 && 0 < f 0x18 4 && 10 ≤ f 0x20 2 && f 0x20 2 ≤ 10000 && 1 ≤ f 0x22 2 && f 0x22 2 ≤ 1000
    && 1 ≤ f 0x24 2 && (k ≠ 4 || f 0x24 2 ≤ 20) && byteAt b 0x26 ≤ 7 && 1 ≤ byteAt b 0x27
    && 10 ≤ f 0x28 2 && f 0x28 2 ≤ 60000 && 1 ≤ f 0x2A 2 && f 0x2A 2 ≤ 3600 && f 0x30 4 < f 0x34 4
    && byteAt b 0x38 ≤ 15 && zeroAt b 0x39 7

/-- The checks of R263 against the other records. -/
def State.chanRecordOk (s : State) (k : Nat) (b : List Byte) : Bool :=
  let prioOk := !(k < 4 && bitAt b 0 0) ||
    sourceChans.all fun j => j == k || !(s.chan j).enabled || (s.chan j).prof 1 1 ≠ byteAt b 1
  let lanes := (List.range 4).filter fun j => k = 4 && bitAt b 0x38 j && (s.lane j).body.isSome
  let strands := (lanes.map fun j => (s.lane j).strand).eraseDups
  let gains := (recAccs 0x0030 b).all fun a =>
    !(accGains s.meas.tables a).isEmpty && (accGains s.meas.tables a).all (· == 0)
  prioOk && strands.length ≤ 1 && gains

/-- Thresholds and limits against the certificate (R263). -/
def State.chanFence (s : State) (k : Nat) (b : List Byte) : Option Answer :=
  fenced s fun c =>
    codeAmps b 6 ≤ certChanImax c k && codeAmps b 8 ≤ certChanImax c k
      && (!(2 ≤ k && k ≤ 4) || codeAmps b 0xA ≤ certChanImax c k) && fieldAt b 0x1C 4 ≤ certChanImax c k
      && fieldAt b 4 2 * 1800 * fieldAt b 0x18 4 / (1024 * 1000) ≤ certChanVmax c k
      && (4 ≤ k || fieldAt b 0x2C 4 ≤ certSource c k)

/-- A power-path record in its ranges (Table 11-5). -/
def pathBodyOk (b : List Byte) : Bool :=
  let f := fun o n => fieldAt b o n
  b.length == 36 && byteAt b 0 ≤ 3 && byteAt b 1 < 64 && 1 ≤ byteAt b 2 && byteAt b 2 ≤ 16 && zeroAt b 3 1
    && 500 ≤ f 4 2 && f 4 2 ≤ 1000 && 1 ≤ f 6 2 && f 6 2 ≤ 100 && 500 ≤ f 0x10 2 && f 0x10 2 ≤ 990
    && 10 ≤ f 0x12 2 && f 0x12 2 ≤ 10000 && 500 ≤ f 0x14 2 && f 0x14 2 ≤ 1000 && f 0x16 2 ≤ 500
    && (byteAt b 0x1C ≤ 15 || byteAt b 0x1C == 0xFF) && byteAt b 0x1D ≤ 1 && 10 ≤ f 0x1E 2 && f 0x1E 2 ≤ 10000
    && 0 < f 0x20 4

/-- The keep-alive link voltage against the certificate. -/
def State.pathFence (s : State) (b : List Byte) : Option Answer :=
  fenced s fun c => certLinkMin c ≤ fieldAt b 0x0C 4 && fieldAt b 0x0C 4 ≤ certLinkMax c

/-! ### Commands of Table 11-14 -/

/-- The channel byte and its zeros. -/
def chanArg (p : List Byte) : Bool := byteAt p 0 < 6 && zeroAt p 1 3

def bezelConfigCheck (s j : State) (p : List Byte) : Option Answer :=
  let k := byteAt p 0
  let m := (s.chan k).state
  firstOf
    [ need (m == .disabled || m == .opened || m == .lockout) 0xA0,
      need (j.chanRecordOk k (p.drop 4)) stBadParam,
      need (j.accsFree 0x0030 (p.drop 4)) 0xC1,
      s.chanFence k (p.drop 4) ]

/-- A channel record in force; LOCKOUT stays (R271). -/
def State.loadChan (s : State) (k : Nat) (b : List Byte) : State :=
  let c := s.chan k
  let s1 := s.modChan k fun c => { c with body := some b, qualify := 0 }
  if c.state == .lockout then s1 else s1.setChan k (s1.restState k (some b)) 0

def opBezelConfig : OpSpec :=
  { code := 0x0500, sched := .scheduled, bcast := true, block := some .bezel, eupefen := true
    check := fun s f => firstOf
      [ needLength f 68, need (chanArg f.payload) stBadParam, need (s.drives (byteAt f.payload 0)) 0xA1,
        need (chanBodyOk (byteAt f.payload 0) (f.payload.drop 4)) stBadParam, bezelConfigCheck s (s.ahead f) f.payload ]
    run := fun s f => match bezelConfigCheck s s f.payload with
      | some a => (s, some a)
      | none => okay (s.loadChan (byteAt f.payload 0) (f.payload.drop 4)) }

def pathConfigCheck (s j : State) (p : List Byte) : Option Answer :=
  firstOf [need (j.accsFree 0x0031 p) 0xC1, s.pathFence p]

def opPathConfig : OpSpec :=
  { code := 0x0501, sched := .scheduled, bcast := true, eupefen := true
    check := fun s f => firstOf
      [needLength f 36, need (!s.isWorker) 0xA1, need (pathBodyOk f.payload) stBadParam, pathConfigCheck s (s.ahead f) f.payload]
    run := fun s f => match pathConfigCheck s s f.payload with
      | some a => (s, some a)
      | none => okay (s.modPath fun p => { p with body := some f.payload }) }

def opSourceInhibit : OpSpec :=
  { code := 0x0502, sched := .scheduled, bcast := true, eupefen := true
    check := fun s f => firstOf
      [needLength f 4, need s.ownsSources 0xA1, need (byteAt f.payload 0 < 16 && zeroAt f.payload 1 3) stBadParam]
    run := fun s f =>
      if s.ownsSources then okay (s.modPath fun p => { p with inhibit := BitVec.ofNat 4 (byteAt f.payload 0) })
      else answer s 0xA1 }

def bezelClearCheck (s : State) (p : List Byte) : Option Answer :=
  firstOf
    [ need ((s.chan (byteAt p 0)).state == .lockout) stBadParam,
      need (!(s.chan (byteAt p 0)).fb) 0x91 ]

def opBezelClear : OpSpec :=
  { code := 0x0503, sched := .scheduled, bcast := true, block := some .bezel, eupefen := true
    check := fun s f => firstOf
      [ needLength f 4, need (chanArg f.payload && s.drives (byteAt f.payload 0)) stBadParam,
        bezelClearCheck s f.payload ]
    run := fun s f => match bezelClearCheck s f.payload with
      | some a => (s, some a)
      | none =>
        let k := byteAt f.payload 0
        okay ((s.setChan k (s.restState k (s.chan k).body) 0).modChan k fun c => { c with welded := false }) }

/-- BEZEL_STATE, BEZEL_FLAGS, BEZEL_RETRY and BEZEL_LINK (Tables 11-10 to 11-13). -/
def Path.stateReg (p : Path) : Nat :=
  (p.chans.zipIdx).foldl (fun a x => a + bit x.1.fb * 2 ^ (24 + x.2) + x.1.state.code * 2 ^ (4 * x.2)) 0

def Path.flagsReg (p : Path) : Nat := (p.chans.zipIdx).foldl (fun a x => a + x.1.trips.toNat * 2 ^ (5 * x.2)) 0

def Path.retryReg (p : Path) : Nat :=
  (p.chans.zipIdx).foldl (fun a x => a + bit x.1.welded * 2 ^ (24 + x.2) + (x.1.retries % 16) * 2 ^ (4 * x.2)) 0

def State.linkReg (s : State) : Nat :=
  s.path.holder.code * 2 ^ 30 + (if s.isWorker then 0 else s.path.boosting.toNat)

def opPathStatus : OpSpec :=
  { code := 0x0504, sched := .unscheduled, bcast := false, block := some .bezel, eupefen := true
    check := fun _ f => needLength f 0
    run := fun s _ => okayWith s
      (le 4 s.path.stateReg ++ le 4 s.path.flagsReg ++ le 4 s.path.retryReg ++ le 4 s.linkReg
        ++ le 4 s.path.cap ++ le 4 s.path.load ++ le 4 s.path.budget ++ (s.path.shares.map (le 4)).flatten) }

/-- The message of a PEER_POWER payload. -/
def Peer.ofBytes (p : List Byte) : Peer :=
  { demand := fieldAt p 0 4, draw := fieldAt p 4 4, grant := fieldAt p 8 4, holder := byteAt p 12, closedMask := byteAt p 13 }

def opPeerPower : OpSpec :=
  { code := 0x0510, sched := .unscheduled, bcast := true, eupefen := true
    check := fun _ f => firstOf
      [ needLength f 16,
        need ((f.key.origin == .can0 || f.key.origin == .can1) && byteAt f.payload 12 ≤ 2 && zeroAt f.payload 14 2)
          stBadParam ]
    run := fun s f => okay (s.modPath fun p => { p with peerNew := some (Peer.ofBytes f.payload) }) }

def execBezelConfig (h : Hdr) (p : List Byte) (s : State) : Host.Outcome State Fault Refusal :=
  .next (receive opBezelConfig h p s)

def execPathConfig (h : Hdr) (p : List Byte) (s : State) : Host.Outcome State Fault Refusal :=
  .next (receive opPathConfig h p s)

def execSourceInhibit (h : Hdr) (p : List Byte) (s : State) : Host.Outcome State Fault Refusal :=
  .next (receive opSourceInhibit h p s)

def execBezelClear (h : Hdr) (p : List Byte) (s : State) : Host.Outcome State Fault Refusal :=
  .next (receive opBezelClear h p s)

def execPathStatus (h : Hdr) (p : List Byte) (s : State) : Host.Outcome State Fault Refusal :=
  .next (receive opPathStatus h p s)

def execPeerPower (h : Hdr) (p : List Byte) (s : State) : Host.Outcome State Fault Refusal :=
  .next (receive opPeerPower h p s)

end Sys2Proof.Machine
end

