-- ==== Sys2Proof/Machine/Slolos.lean ====
section
/-!
DEFINITION. The Slolos chain (13): links and hop delays, enumeration, markers, telemetry and its sum, allotment frames,
loss and cut-off, the chain record, and the commands of the 0x08 range.
-/
namespace Sys2Proof.Machine

/-! ### Transmitters (R311, R312) -/

/-- Characters of a frame, with its start and end characters (Table 13-2); a wake burst lasts 20 us, the toggling 100 us (Table 13-8). -/
def ChainFrame.chars : ChainFrame → Nat
  | .marker b => b.length + 1
  | .allotment b => b.length + 1
  | .control _ => 21
  | .packet b | .reply b _ => b.length + 2
  | .telemetry b => b.length + 1
  | .fault b => b.length + 1
  | .abort => 1
  | .wakeBurst => 320
  | .toggle => 1600
  | .relayed f => f.chars

/-- The class of a frame, lower first: upstream R312, where the control frames ENUM_ANSWER, ENUM_END and JOIN are bulk, downstream R311. -/
def ChainFrame.rank : ChainFrame → Nat
  | .marker _ | .fault _ | .abort | .wakeBurst | .toggle => 0
  | .control (.linkDown _ _) => 0
  | .allotment _ | .telemetry _ => 1
  | .control (.enumAnswer _ _ _ _) | .control (.enumEnd _ _) | .control .join => 3
  | .control _ => 2
  | .packet _ | .reply _ _ | .relayed _ => 3

/-- The place in the list of the frame that the transmitter sends: the oldest of the highest class. -/
def nextFrame (l : List ChainFrame) : Option Nat :=
  ((l.zipIdx).foldl (fun m x => match m with
    | none => some (x.1.rank, x.2)
    | some y => if x.1.rank < y.1 then some (x.1.rank, x.2) else some y) none).map (·.2)

/-- Sends for `spent` half core ticks: a character takes 62.5 ns, which is 25 of them. -/
def drain : Nat → List ChainFrame → Nat → List ChainFrame × Nat
  | 0, l, spent => (l, if l.isEmpty then 0 else spent)
  | fuel + 1, l, spent => match nextFrame l with
    | none => ([], 0)
    | some i =>
      let n := 25 * (getAt l i .abort).chars
      if n ≤ spent then drain fuel (l.eraseIdx i) (spent - n) else (l, spent)

/-- A fault frame of a class and an epoch. -/
def ChainFrame.isFault (cls epoch : Nat) : ChainFrame → Bool
  | .fault b => byteAt b 0 == cls && fieldAt b 1 4 == epoch
  | _ => false

/-- The transmitter holds a fault frame of a class and an epoch and has not begun to send it. -/
def faultWaits (l : List ChainFrame) (spent cls epoch : Nat) : Bool :=
  (l.zipIdx).any fun x => x.1.isFault cls epoch && !(spent ≠ 0 && nextFrame l == some x.2)

/-- The fault frames of a class and an epoch that have not begun leave the transmitter. -/
def dropFault (l : List ChainFrame) (spent cls epoch : Nat) : List ChainFrame :=
  ((l.zipIdx).filter fun x => !(x.1.isFault cls epoch && !(spent ≠ 0 && nextFrame l == some x.2))).map (·.1)

/-- `k` core ticks pass at the transmitters. -/
def Slolos.transmit (y : Slolos) (k : Nat) : Slolos :=
  let a := drain y.txA.length y.txA (y.spentA + 2 * k)
  let b := drain y.txB.length y.txB (y.spentB + 2 * k)
  { y with txA := a.1, spentA := a.2, txB := b.1, spentB := b.2 }

/-- The transmitters hold the final reply of a command. -/
def Slolos.holdsReply (y : Slolos) (key : FlightKey) : Bool :=
  (y.txA ++ y.txB).any fun f => match f with
    | .reply _ k => k == key
    | _ => false

/-- The commands carried by the chain whose final reply has left the die, or was lost with a transmitter, are over (R124). -/
def State.repliesGone (s : State) : State :=
  s.modCmd fun c => { c with flights := c.flights.filter fun f => !(f.key.chain && f.phase == .replied && !s.slolos.holdsReply f.key) }

/-- The toggling of a worker that is being woken ends after its time. -/
def burstOut (l : List ChainFrame) (spent k : Nat) : List ChainFrame × Nat :=
  if l.contains .toggle then
    if 25 * ChainFrame.toggle.chars ≤ spent + 2 * k then (l.erase .toggle, 0) else (l, spent + 2 * k)
  else (l, spent)

/-- `k` core ticks pass while nothing but the toggling is sent. -/
def Slolos.passBurst (y : Slolos) (k : Nat) : Slolos :=
  let a := burstOut y.txA y.spentA k
  let b := burstOut y.txB y.spentB k
  { y with txA := a.1, spentA := a.2, txB := b.1, spentB := b.2 }

/-- A frame of the relay buffer. -/
def ChainFrame.isRelayed : ChainFrame → Bool
  | .relayed _ => true
  | _ => false

/-- The characters that the relay buffer holds. -/
def Slolos.bulkWaiting (y : Slolos) : Nat :=
  (((if y.facing == 2 then y.txB else y.txA).filter (·.isRelayed)).map (·.chars)).foldl (· + ·) 0

/-- A relayed frame goes behind those relayed before it and behind an own frame that has begun; the die's own bulk frames wait until the
buffer is empty, which holds fewer than 64 characters then (R312, log 116). -/
def relayInto (l : List ChainFrame) (spent : Nat) (f : ChainFrame) : List ChainFrame :=
  let begun := if spent = 0 then none else nextFrame l
  let k := (l.zipIdx).foldl (fun m x => if x.1.isRelayed || begun == some x.2 then x.2 + 1 else m) 0
  l.take k ++ .relayed f :: l.drop k

/-- Relays a bulk frame upstream: through the buffer of 2,048 characters, or ABORT in its place (R312). -/
def State.relayBulk (s : State) (f : ChainFrame) : State :=
  if 2048 < s.slolos.bulkWaiting + f.chars then
    (s.sendUp .abort).modSlolos fun y => { y with errDropped := satAdd 255 y.errDropped 1 }
  else s.modSlolos fun y =>
    if y.facing == 2 then { y with txB := relayInto y.txB y.spentB f } else { y with txA := relayInto y.txA y.spentA f }

/-! ### Errors, ports and contexts -/

/-- The block's clock stops in a restart: its ports are off, and what its transmitters were handed is lost (R70, R71). -/
def Slolos.halt (y : Slolos) : Slolos :=
  { y with portA := .off, portB := .off, enumActive := false, txA := [], txB := [], spentA := 0, spentB := 0 }

/-- The code and disparity violations that a frame has met. -/
def violationsOf : Harm → Nat
  | .code n => n
  | _ => 0

/-- A frame that a check of R314 fails: it is counted, as are its violations (Table 13-10). -/
def State.badFrame (s : State) (h : Harm) : State :=
  s.modSlolos fun y => { y with errCrc := satAdd 255 y.errCrc 1, errCode := satAdd 255 y.errCode (violationsOf h) }

/-- The die's receiver has checked a frame that it also passes on. -/
def State.hearFrame (s : State) (h : Harm) : State := if h == .none then s else s.badFrame h

/-- The ports run: their block exists on the die and the clocks run; the retained paths of a worker run through a reset
that leaves the PLL locked (R333). -/
def State.portsRun (s : State) : Bool := !s.isStandalone && s.sys.clk == .running

/-- The die itself acts on what it receives: no reset is held. -/
def State.chainActs (s : State) : Bool := s.portsRun && !s.sys.held

/-- Codes of Table 13-9. -/
def PortState.code : PortState → Nat
  | .off => 0 | .training => 1 | .measuring => 2 | .up => 3 | .down => 4

/-- Codes of Table 13-6. -/
def CtxState.code : CtxState → Nat
  | .absent => 0 | .enumerated => 1 | .active => 2 | .lost => 3 | .refused => 4

def Slolos.port (y : Slolos) (p : Nat) : PortState := if p = 0 then y.portA else y.portB
def Slolos.setPort (y : Slolos) (p : Nat) (x : PortState) : Slolos :=
  if p = 0 then { y with portA := x } else { y with portB := x }

/-- The context of an address. -/
def Slolos.ctx (y : Slolos) (k : Nat) : Ctx := if k = 0 then Ctx.absent else getAt y.ctxs (k - 1) Ctx.absent
def Slolos.modCtx (y : Slolos) (k : Nat) (f : Ctx → Ctx) : Slolos :=
  if k = 0 then y else { y with ctxs := modAt y.ctxs (k - 1) f }

/-- The context holds an assigned address. -/
def Ctx.assigned (c : Ctx) : Bool := c.state == .enumerated || c.state == .active || c.state == .lost

/-- The highest address assigned: the enumerated count w. -/
def Slolos.highest (y : Slolos) : Nat :=
  (List.range 64).foldl (fun m k => if (y.ctx k).assigned then k else m) 0

def Slolos.actives (y : Slolos) : List Nat := (List.range 64).filter fun k => (y.ctx k).state == .active

/-- Sets the bit CHAIN of the promise word of the epoch in progress (Table 07-3). -/
def State.chainBit (s : State) : State := s.modTime fun y => { y with wordNow := y.wordNow ||| 0x04 }

/-- Queues a CHAIN_EVENT: one per cause and address, at the boundary that closes the epoch (R338). -/
def State.chainEvent (s : State) (cause address port count : Nat) (die : List Byte) : State :=
  s.dueFirst 0x7F80 (cause * 256 + address)
    (le 1 cause ++ le 1 address ++ le 1 port ++ le 1 count ++ le 4 s.time.epoch ++ (die ++ zeros 4).take 4)

/-- SLOLOS_STATUS (Table 13-9). -/
def Slolos.statusReg (y : Slolos) : Nat :=
  y.workers * 2 ^ 20 + y.address * 2 ^ 14 + y.topology.toNat * 2 ^ 12 + y.facing.toNat * 2 ^ 10 + bit y.enumActive * 2 ^ 9
    + bit y.cutOff * 2 ^ 8 + y.portB.code * 16 + y.portA.code

/-- SLOLOS_ERRORS (Table 13-10), and its clearing read. -/
def Slolos.errorsReg (y : Slolos) : Nat := y.errCode * 2 ^ 24 + y.errCrc * 2 ^ 16 + y.errLink * 2 ^ 8 + y.errDropped
def Slolos.clearErrors (y : Slolos) : Slolos := { y with errCode := 0, errCrc := 0, errLink := 0, errDropped := 0 }

/-- SLOLOS_DELAY (Table 13-11). -/
def Slolos.delayReg (y : Slolos) : Nat := y.dRev * 2 ^ 16 + y.d

/-- The strands whose serving-lane entries name an address. -/
def State.strandsOf (s : State) (k : Nat) : Nat :=
  (List.range 16).foldl (fun m n => if (s.strand n).body.isSome && (s.strand n).dies.contains k then m + 2 ^ n else m) 0

/-- SLOLOS_CTXk (Table 13-12). -/
def State.ctxReg (s : State) (k : Nat) : Nat :=
  let c := s.slolos.ctx k
  c.state.code * 2 ^ 29 + bit c.viaA * 2 ^ 28 + (Nat.min 8 (s.cmd.depth k)) * 2 ^ 24 + c.missed * 2 ^ 16 + s.strandsOf k

/-- The context of Table 13-6. -/
def State.ctxBytes (s : State) (k : Nat) : List Byte :=
  let c := s.slolos.ctx k
  le 1 k ++ le 1 c.state.code ++ le 1 (bit c.viaA + 2 * bit c.wq) ++ zeros 1 ++ (c.dieId ++ zeros 8).take 8
    ++ le 2 (s.strandsOf k) ++ le 1 (Nat.min 8 (s.cmd.depth k)) ++ le 1 c.missed ++ le 2 c.d ++ le 2 c.dRev ++ le 4 c.lastEpoch
    ++ (c.allot ++ zeros 8).take 8

/-! ### Lengths (R150, R151) -/

/-- The minimum length for `w` workers [us]. -/
def minLength (w : Nat) : Nat := Nat.max 250 (50 * ceilDiv (14 * w) 50)

/-- The EPOCH_SET_LENGTH commands that wait. -/
def State.pendingLengths (s : State) : List Nat :=
  (s.cmd.flights.filter fun f => f.phase == .waiting && f.opcode == 0x0100 + 1 && f.target == 0).map fun f =>
    fieldAt f.payload 0 2

/-- The length of the epoch that follows the one in progress. -/
def State.nextLength (s : State) : Nat :=
  let l := (s.cmd.scheduledFor ((s.time.epoch + 1) % 2 ^ 32)).filter fun f => f.opcode == 0x0101
  match l.getLast? with
  | some f => fieldAt f.payload 0 2
  | none => s.time.length

/-- The most workers that the manager enumerates (R151). -/
def State.enumCap (s : State) : Nat :=
  Nat.min 63 ((s.pendingLengths.foldl Nat.min s.time.length) / 14)

/-! ### Links (R316, R317, R334) -/

/-- A port starts and trains. -/
def execSlolosPortStart (port : Nat) (s : State) : Host.Outcome State Fault Refusal :=
  if s.chainActs && s.slolos.port port == .off then
    .next (s.chainBit.modSlolos fun y => y.setPort port .training)
  else .next s

/-- 256 valid characters: the link is up, and its delay is measured next. -/
def execLinkUp (port : Nat) (s : State) : Host.Outcome State Fault Refusal :=
  if s.chainActs && (s.slolos.port port == .training || s.slolos.port port == .down) then
    .next (s.modSlolos fun y => y.setPort port .measuring)
  else .next s

/-- The manager learns of a break after the worker at `before`: it stands in the list of breaks, and a closed ring is
bridged out of both ports (R332, R334). -/
def State.chainBroken (s : State) (before port : Nat) : State :=
  let ring := s.slolos.topology == 2
  let s1 := s.chainBit.modSlolos fun y =>
    { y with
      breaks := if y.breaks.contains before then y.breaks else y.breaks ++ [before]
      topology := if ring then 3 else y.topology
      bridging := y.bridging || ring
      restoring := none
      ctxs := if ring then (y.ctxs.zipIdx).map fun x =>
          if before < x.2 + 1 && x.1.assigned then { x.1 with viaA := true } else x.1 else y.ctxs }
  if ring then s1.chainEvent 5 before port 0 [] else s1

/-- A receiver declares its link down; the link trains again by itself (R316, R334). -/
def execLinkDownDetected (loss : LinkLoss) (s : State) : Host.Outcome State Fault Refusal :=
  let port := loss.port
  let violations := loss.violations
  if s.chainActs && (s.slolos.port port == .up || s.slolos.port port == .measuring) then
    let s1 := s.modSlolos fun y =>
      { y.setPort port .down with errLink := satAdd 255 y.errLink 1, errCode := satAdd 255 y.errCode violations }
    if s.isManager then
      if port = 1 then .next (s1.chainBroken 0 1)
      else if s.slolos.topology == 2 then .next (s1.chainBroken s.slolos.workers 0)
      else .next s1
    else
      let f := ChainFrame.control (.linkDown s.slolos.address port)
      .next (if port = 0 then s1.chainBit.sendB f else s1.chainBit.sendUp f)
  else .next s

/-- A LINK_DOWN notice: a worker relays it, out of SLB where the sender lost its SLA, upstream otherwise. -/
def execLinkDown (harm : Harm) (address port : Nat) (s : State) : Host.Outcome State Fault Refusal :=
  if !s.portsRun then .next s
  else if s.isWorker then
    let f := carriedOn harm (.control (.linkDown address port))
    let s1 := if port = 0 then s.sendB f else s.sendUp f
    .next (if s.chainActs then s1.hearFrame harm else s1)
  else if !s.chainActs then .next s
  else if harm != .none then .next (s.badFrame harm)
  else .next (s.chainBroken (if port = 0 then address - 1 else address) port)

/-! ### Enumeration (R318 to R321) -/

/-- A manager that keeps its workers over a STANDBY wakes them: on SLB, and on SLA in a ring (Table 13-8, step 1). -/
def State.wakeWorkers (s : State) : State :=
  let s1 := s.sendB .wakeBurst
  if 2 ≤ s.slolos.topology.toNat then s1.sendA .wakeBurst else s1

/-- The manager starts a pass: ENUM out of SLB. -/
def State.startPass (s : State) (mode : Nat) : State :=
  (s.modSlolos fun y => { y with enumActive := true, enumMode := mode, capped := false, joinSeen := false }).sendB
    (.control (.enum (s.slolos.highest + 1) 0 0 mode))

/-- The ECHO exchanges are complete: the port is up, and a manager enumerates (Table 13-4, step 1). -/
def execDelayMeasured (port delay down up : Nat) (s : State) : Host.Outcome State Fault Refusal :=
  if s.chainActs && s.slolos.port port == .measuring then
    let s1 := s.modSlolos fun y =>
      { y.setPort port .up with
        cA := if port = 0 then delay else y.cA
        cB := if port = 0 then y.cB else delay
        r := down
        rRev := up }
    if s.isManager && port = 1 && !s.slolos.enumActive then
      if s.slolos.verifyDue then .next (s1.startPass 2)
      else if s.isReady .slolos then .next (if s.slolos.workers = 0 then s1.startPass 0 else s1)
      else .next (s1.startPass (if s.slolos.workers = 0 then 1 else 2))
    else .next s1
  else .next s

/-- An ECHO request is answered with its receive time and the send time; an answer ends in DELAY_MEASURED. -/
def execEchoFrame (port : Nat) (answer : Bool) (harm : Harm) (received sent : Nat) (s : State) :
    Host.Outcome State Fault Refusal :=
  if !s.chainActs then .next s
  else if harm != .none then .next (s.badFrame harm)
  else if answer then .next s
  else
    let f := ChainFrame.control (.echo received sent)
    .next (if port = 0 then s.sendA f else s.sendB f)

/-- A delay in ps as held [125 ps]. -/
def heldDelay (ps : Nat) : Nat := Nat.min 0xFFFF ((ps + 62) / 125)

/-- A broken ring is closed again (R334): RING_RESTORED, and from the second marker after it the manager sends on SLB only. -/
def State.ringRestored (s : State) : State :=
  if s.slolos.topology == 3 && s.slolos.restoring.isNone then
    (s.modSlolos fun y =>
      { y with
        topology := 2, breaks := [], restoring := some 2
        ctxs := y.ctxs.map fun c => { c with viaA := false } }).chainEvent 6 0 0 0 []
  else s

/-- The manager completes a pass (Table 13-4, step 6; R321, R336): the result is checked against the chain record, and the contexts of the
workers that it enumerated begin to age. -/
def State.finishPass (s : State) (ring : Bool) (endAddress : Nat) : State :=
  let y := s.slolos
  let s1 := (if ring then s.ringRestored else s).modSlolos fun y =>
    { y with
      enumActive := false
      enumMode := 0
      verifyDue := false
      ctxs := y.ctxs.map fun c => { c with joining := false }
      breaks := if ring then [] else y.breaks.filter fun b => endAddress ≤ b
      topology := if ring then 2 else if y.workers = 0 then 0
        else if y.topology.toNat ≥ 2 && y.breaks ≠ [] then 3 else 1 }
  let s2 := s1.setReady .slolos true
  let s3 := if y.workers = 0 then s2.chainEvent 1 0 0 0 [] else s2.chainEvent 2 0 0 y.workers []
  let s4 := if y.ringExpected && !ring then s3.chainEvent 10 0 0 0 [] else s3
  if y.workers < y.expected then s4.chainEvent 11 0 0 y.workers [] else s4

/-- 2.0 ms after its port started, a manager whose SLB is not up runs as a domain of one (R321). After a STANDBY wake its contexts are
retained, and it wakes its workers in place of finding none (R335, log 117). -/
def execEnumNoWorkerTimeout (s : State) : Host.Outcome State Fault Refusal :=
  if s.chainActs && s.isManager && !s.isReady .slolos && s.slolos.portB != .up then
    let s1 := s.setReady .slolos true
    .next (if s.slolos.verifyDue then s1.wakeWorkers else s1.chainEvent 1 0 0 0 [])
  else .next s

/-- A manager without a worker enumerates again every 100 ms (R320). -/
def execAppendRetry (s : State) : Host.Outcome State Fault Refusal :=
  if s.chainActs && s.isManager && s.isReady .slolos && s.slolos.workers = 0 && s.slolos.portB == .up
      && !s.slolos.enumActive then .next (s.startPass 0)
  else .next s

/-- The address that a worker without one takes (R319): rule 1 in a full enumeration, rule 3 behind the highest address
while the cap allows. Whether rule 2 applies rests on the manager's contexts, which ENUM does not carry: a free bit
(log 43). -/
def State.takeAddress (s : State) (next prev mode : Nat) : Nat × State :=
  let a := prev + 1
  if 63 < a || 2 ≤ mode then (0, s)
  else if mode = 1 then (a, s)
  else if a = next then (if a ≤ Nat.min 63 (s.time.length / 14) then a else 0, s)
  else
    let (b, s1) := s.takeBit
    (if b then a else 0, s1)

/-- A worker that takes an address, or that was cut off, has been enumerated again: it holds no allotment until one is delivered
(R16, R17, R333). -/
def Slolos.join (y : Slolos) (a : Nat) : Slolos :=
  { y with address := a, cutOff := false, age := 0, misses := 0, skipped := 0, entry := zeros 8, bz4 := false, heldEntry := none,
           missedFlag := false, firstAllot := false }

/-- ENUM at a worker, forwards (steps 2 to 4) or as the reverse pass (step 5). -/
def State.workerEnum (s : State) (fromB : Bool) (next prev delay mode : Nat) : State :=
  let y := s.slolos
  if fromB then
    let a := delay + y.cB
    let s1 := (s.modSlolos fun y => { y with dRev := heldDelay a }).sendUp
      (.control (.enumAnswer s.otp.dieId (bit s.otp.partWq + 2 * 1) y.address a))
    s1.sendA (.control (.enum next y.address (a + y.rRev) mode))
  else
    let a := delay + y.cA
    let had := y.address ≠ 0
    let (k, s1) := if had then (y.address, s) else s.takeAddress next prev mode
    let joins := k ≠ 0 && (!had || y.cutOff)
    let s2 := s1.modSlolos fun y => { y with d := heldDelay a }
    let s3 := if joins then (s2.modSlolos fun y => y.join k).modTime fun t => { t with wordNow := t.wordNow ||| 0x40 } else s2
    let s4 := if !had || joins then
        s3.sendUp (.control (.enumAnswer s.otp.dieId (bit s.otp.partWq + 2 * 1) k a)) else s3
    if y.portB != .up then s4.sendUp (.control (.enumEnd k false))
    else s4.sendB (.control (.enum (if k = next then next + 1 else next) (if k = 0 then prev else k) (a + y.r) mode))

/-- ENUM arrives (R318, R319). -/
def execEnum (fromB : Bool) (harm : Harm) (nextAddr prevAddr delay mode : Nat) (s : State) : Host.Outcome State Fault Refusal :=
  let conflict := fun (s : State) =>
    let f := ChainFrame.control (.enumEnd 0 true)
    if fromB then s.sendB f else s.sendA f
  if s.sys.clk != .running || s.sys.held then .next s
  else if harm != .none then .next (if s.isStandalone then s else s.badFrame harm)
  else if s.isWorker then .next (s.workerEnum fromB nextAddr prevAddr delay mode)
  else if s.isManager && s.slolos.enumActive && !fromB && s.slolos.enumMode ≠ 3 then
    .next ((s.modSlolos fun y => { y with enumMode := 3 }).sendA (.control (.enum nextAddr 0 0 3)))
  else if s.isManager && s.slolos.enumActive && fromB && s.slolos.enumMode = 3 then .next (s.finishPass true prevAddr)
  else .next (conflict s)

/-- The first worker that the cap of R151 leaves out in a pass is named. -/
def State.cappedAt (s : State) (k : Nat) : State :=
  if s.slolos.capped then s
  else (s.modSlolos fun y => { y with capped := true }).modTime fun t =>
    { t with overruns := t.overruns ++ [{ epoch := t.epoch, cause := 4, address := k }] }

/-- The manager records a worker's answer (R318, R319, R330). -/
def State.enumAnswer (s : State) (die : List Byte) (partRole address delay : Nat) : State :=
  let y := s.slolos
  let c := y.ctx address
  if y.enumMode = 3 then s.modSlolos fun y => y.modCtx address fun c => { c with dRev := heldDelay delay }
  else if address = 0 then
    let s1 := s.chainEvent 7 0 0 0 die
    if 63 ≤ y.workers then s1.chainEvent 9 0 0 0 die
    else if s.enumCap ≤ y.workers then s1.cappedAt (y.workers + 1)
    else s1
  else if address ≥ 64 then s
  else if s.enumCap < address then
    (s.modSlolos fun y => y.modCtx address fun c => { c with state := .refused, dieId := die }).cappedAt address
  else if c.assigned && c.dieId != die then s.chainEvent 7 0 0 0 die
  else
    let s1 := s.modSlolos fun y =>
      let z := y.modCtx address fun c =>
        { Ctx.absent with state := .enumerated, joining := true, wq := partRole % 2 = 1, dieId := die, d := heldDelay delay, dRev := c.dRev }
      { z with workers := z.highest }
    if c.assigned then s1.chainEvent 4 address 0 0 die else s1

def execEnumAnswer (harm : Harm) (dieId : List Byte) (partRole address delay : Nat) (s : State) :
    Host.Outcome State Fault Refusal :=
  if !s.portsRun then .next s
  else if s.isWorker then
    .next (if s.chainActs then (s.hearFrame harm).relayBulk (carriedOn harm (.control (.enumAnswer dieId partRole address delay)))
      else s)
  else if !s.chainActs then .next s
  else if harm != .none then .next (s.badFrame harm)
  else .next (if s.slolos.enumActive then s.enumAnswer dieId partRole address delay else s)

/-- The end of the chain: the pass completes (step 6). -/
def execEnumEnd (harm : Harm) (address : Nat) (roleConflict : Bool) (s : State) : Host.Outcome State Fault Refusal :=
  if !s.portsRun then .next s
  else if s.isWorker then
    .next (if s.chainActs then (s.hearFrame harm).relayBulk (carriedOn harm (.control (.enumEnd address roleConflict))) else s)
  else if !s.chainActs then .next s
  else if harm != .none then .next (s.badFrame harm)
  else if s.slolos.enumActive then
    let s1 := if roleConflict then s.chainEvent 8 address 0 0 [] else s
    .next (s1.finishPass false address)
  else .next s

/-- JOIN: the manager starts an append pass within one epoch where the chain record lets it (R320); a worker relays it. -/
def execJoin (harm : Harm) (s : State) : Host.Outcome State Fault Refusal :=
  if !s.chainActs then .next s
  else if s.isWorker then .next ((s.hearFrame harm).relayBulk (carriedOn harm (.control .join)))
  else if harm != .none then .next (s.badFrame harm)
  else .next (if s.slolos.autoAppend then s.modSlolos fun y => { y with joinSeen := true } else s)

/-- Every 10 ms a die without an address, or one that was cut off, sends JOIN while it receives valid markers. -/
def execJoinTimer (s : State) : Host.Outcome State Fault Refusal :=
  if s.chainActs && s.isWorker && (s.slolos.address = 0 || s.slolos.cutOff) && s.slolos.facing ≠ 0
      && (s.slolos.marker.isSome || s.slolos.skipped = 0) then .next (s.sendUp (.control .join))
  else .next s

/-- The pass that waits for its boundary or its JOIN starts (R320). -/
def State.joinPass (s : State) : State :=
  if s.isManager && s.slolos.joinSeen && !s.slolos.enumActive && s.isReady .slolos && s.slolos.portB == .up then s.startPass 0
  else s

/-! ### Cut-off (R331) -/

/-- BZ4 opens once the lanes of its mask are OFF. -/
def State.cutOffBz4 (s : State) : State :=
  if s.slolos.cutOff && s.bz4Lanes.all fun k => laneIsOff (s.lane k) then
    (s.modChan 4 fun c => { c with wanted := false }).openChan 4
  else s

/-- The worker is cut off: every lane stops, BZ4 opens, queue 0 is discarded without replies, and with its CERT_LOAD a certificate that
was held or being verified (R130). A flash operation that has begun goes on; its command gets no reply. -/
def State.cutOffNow (s : State) : State :=
  let s1 := s.modSlolos fun y => { y with cutOff := true }
  let s2 := [0, 1, 2, 3].foldl (fun s k => s.stopNow k) s1
  let s3 := s2.modCmd fun c => { c with flights := c.flights.filter fun f => f.phase == .replied }
  (s3.modGeode fun g => { g with heldCert := none, checking := none }).cutOffBz4

/-- UNASSIGN: the worker acts as cut off and drops its address (R320). -/
def execUnassign (harm : Harm) (s : State) : Host.Outcome State Fault Refusal :=
  if !s.portsRun || !s.isWorker then .next s
  else
    let s1 := s.repeatDown (carriedOn harm (.control .unassign))
    if !s.chainActs then .next s1
    else if harm != .none then .next (s1.badFrame harm)
    else .next (s1.cutOffNow.modSlolos fun y => { y with address := 0, firstAllot := false, age := 0 })

/-- A RESET frame: the workers of its mask start a CHAIN reset (R337). -/
def execResetFrame (harm : Harm) (mask : Nat) (s : State) : Host.Outcome State Fault Refusal :=
  if !s.portsRun || !s.isWorker then .next s
  else
    let s1 := s.repeatDown (carriedOn harm (.control (.reset (BitVec.ofNat 64 mask))))
    if harm != .none then .next (if s.chainActs then s1.badFrame harm else s1)
    else if s.slolos.address ≠ 0 && mask.testBit s.slolos.address then .next (s1.trigger causeChain)
    else .next s1

/-! ### Markers (R153, R156, R322) -/

/-- The marker of a boundary: flags bit 0 ring, bit 1 sent on SLA. -/
def State.markerFrame (s : State) (onA : Bool) : ChainFrame :=
  .marker (withCrc16 (le 4 ((s.time.epoch + 1) % 2 ^ 32) ++ le 2 s.nextLength ++ le 1 s.slolos.workers
    ++ le 1 (bit (2 ≤ s.slolos.topology.toNat) + 2 * bit onA)))

/-- At B - 8.0 us the manager sends the marker (R153), out of both ports while a break is bridged (R334). Markers rest
until a verify pass is complete (R335). -/
def execMarkerSend (s : State) : Host.Outcome State Fault Refusal :=
  if s.chainActs && s.isManager && s.isReady .slolos && !s.slolos.verifyDue then
    let last := s.slolos.restoring == some 1
    let s1 := s.modSlolos fun y =>
      { y with
        restoring := if last then none else y.restoring.map (· - 1)
        bothPorts := (y.bothPorts || y.bridging) && !last
        bridging := false }
    let s2 := s1.sendB (s.markerFrame false)
    .next (if s1.slolos.bothPorts then s2.sendA (s.markerFrame true) else s2)
  else .next s

/-- A valid marker at a worker: its number, length and count, and the port that faces the manager. A late marker of an epoch whose
boundary was missed is discarded and counted (R156). -/
def State.takeMarker (s : State) (fromB : Bool) (bytes : List Byte) : State :=
  let e := fieldAt bytes 0 4
  let y := s.slolos
  if (e + 2 ^ 33 - s.time.epoch - 1) % 2 ^ 32 < y.skipped then s.badFrame .none
  else if (y.marker.any fun m => m.1 == e) && fromB then s
  else s.modSlolos fun y =>
    { y with
      marker := some (e, fieldAt bytes 4 2)
      workers := byteAt bytes 6 % 64
      topology := if bitAt bytes 7 0 then (if bitAt bytes 7 1 then 3 else 2) else 1
      facing := if fromB then 2 else 1 }

/-- A marker arrives (R322, R334). A manager that sees its own SLB marker come back on SLA knows the ring closed again. -/
def execMarker (fromB : Bool) (frame : Received) (s : State) : Host.Outcome State Fault Refusal :=
  let bytes := frame.bytes
  let harm := frame.harm
  let good := crc16Good bytes && bytes.length == 10 && harm == .none
  if !s.portsRun then .next s
  else if s.isWorker then
    let f := carriedOn harm (.marker bytes)
    let s1 := if fromB then s.sendA f else s.sendB f
    if !s.chainActs then .next s1
    else .next (if good then s1.takeMarker fromB bytes else s1.badFrame harm)
  else if !s.chainActs then .next s
  else if !good then .next (s.badFrame harm)
  else .next (if !fromB && !bitAt bytes 7 1 then s.ringRestored else s)

/-- No marker 4 us after its expected arrival: the boundary is skipped (R156, R130, R331), and the tables start afresh (R369). -/
def execMarkerMissed (s : State) : Host.Outcome State Fault Refusal :=
  if s.chainActs && s.isWorker && s.slolos.facing ≠ 0 && s.slolos.marker.isNone then
    let n := s.slolos.skipped + 1
    let s1 := s.endWaiting (fun f => f.epoch == (s.time.epoch + n) % 2 ^ 32) stTargetTimeout
    let s2 := s1.chainBit.modSlolos fun y => { y with skipped := n, heldEntry := none, allotReady := false }
    let s3 := s2.modMeas fun m => m.startTables ((s.time.epoch + n) % 2 ^ 32) s.time.length 0
    .next (if n = 2 then s3.cutOffNow else s3.cutOffBz4)
  else .next s

/-! ### Telemetry and its sum (R315, R323, R324, R332) -/

/-- CRC-16 preset with the sender's address and the telemetry's epoch (R314). -/
def telCrc (address epoch : Nat) (b : List Byte) : Nat := crc16From (crc16 (le 1 address ++ le 4 epoch)) b

/-- The telemetry of the epoch before (Table 13-3). -/
def State.telemetry (s : State) : List Byte :=
  let c := getAt s.path.seen 4 ChanSeen.reset
  let st := (s.time.wordLast.toNat % 128) * 2 ^ 8 + c.retries % 8 * 2 ^ 5 + bit c.welded * 2 ^ 4
    + bit s.slolos.missedFlag * 2 ^ 3 + c.state.code
  let b := (s.conv.lanes.map fun l => (l.closed ++ zeros 24).take 24).flatten ++ faultSummary (getAt s.prot.log 0 [])
    ++ le 2 st
  b ++ le 2 (telCrc s.slolos.address ((s.time.epoch + 2 ^ 32 - 1) % 2 ^ 32) b)

/-- A worker's slot starts: its address is ACTIVE from its second boundary. -/
def execTelemetrySlot (s : State) : Host.Outcome State Fault Refusal :=
  if s.chainActs && s.isWorker && s.slolos.address ≠ 0 && 2 ≤ s.slolos.age && s.slolos.skipped = 0 then
    .next ((s.sendUp (.telemetry s.telemetry)).modSlolos fun y => { y with missedFlag := false })
  else .next s

/-- The workers beyond a break that no ring path bridges: all behind the first break of an open chain, those between the
outer breaks of a ring (R332, R334). -/
def Slolos.beyond (y : Slolos) (k : Nat) : Bool :=
  if y.topology.toNat ≥ 2 then y.breaks.any (· < k) && y.breaks.any (k ≤ ·)
  else y.breaks.any (· < k)

/-- A worker is lost (R130, R332). -/
def State.loseWorker (s : State) (k : Nat) : State :=
  ((s.modSlolos fun y => y.modCtx k fun c =>
    { c with state := .lost, telemetry := zeros 112, arrived := none }).loseQueue k).chainEvent 3 k 0 0 (s.slolos.ctx k).dieId

/-- The sum begins: a frame that has not arrived whole is SLOT_MISSED (R162, R324). -/
def State.beginSum (s : State) : State :=
  let e := (s.time.epoch + 2 ^ 32 - 1) % 2 ^ 32
  let missing := s.slolos.actives.filter fun k => (s.slolos.ctx k).arrived.isNone
  let s1 := s.modSlolos fun y =>
    { y with
      sumBegun := true
      ctxs := y.ctxs.map fun c =>
        if c.state == .active then
          match c.arrived with
          | some b => { c with telemetry := b, arrived := none, missed := 0, lastEpoch := e }
          | none => { c with missed := satAdd 255 c.missed 1 }
        else c }
  let s2 := s1.modTime fun t =>
    { t with overruns := t.overruns ++ missing.map fun k => { epoch := e, cause := 3, address := k } }
  let gone := s2.slolos.actives.filter fun k => 2 ≤ (s2.slolos.ctx k).missed || s2.slolos.beyond k
  gone.foldl (fun s k => s.loseWorker k) s2

/-- A telemetry frame: a worker relays it; the manager keeps it and begins the sum once all have arrived. -/
def execTelemetryFrame (address : Nat) (frame : Received) (s : State) : Host.Outcome State Fault Refusal :=
  let bytes := frame.bytes
  let harm := frame.harm
  if !s.portsRun then .next s
  else if s.isWorker then
    let s1 := s.sendUp (carriedOn harm (.telemetry bytes))
    .next (if s.chainActs then s1.hearFrame harm else s1)
  else if !s.chainActs || s.slolos.sumBegun then .next s
  else if harm != .none || bytes.length ≠ 112
      || fieldAt bytes 110 2 ≠ telCrc address ((s.time.epoch + 2 ^ 32 - 1) % 2 ^ 32) (bytes.take 110) then .next (s.badFrame harm)
  else if (s.slolos.ctx address).state != .active then .next s
  else
    let s1 := s.modSlolos fun y => y.modCtx address fun c => { c with arrived := some bytes }
    .next (if s1.slolos.actives.all fun k => (s1.slolos.ctx k).arrived.isSome then s1.beginSum else s1)

/-- The sum deadline. -/
def execSumDeadline (s : State) : Host.Outcome State Fault Refusal :=
  if s.chainActs && s.isManager && !s.slolos.sumBegun then .next s.beginSum else .next s

/-- The sum of the epoch before: the die's own reports and the fault summaries of the workers, in address order. It closes in the echo table
at the next boundary (R230). -/
def State.sumEcho (s : State) : State :=
  let e := (s.time.epoch + 2 ^ 32 - 1) % 2 ^ 32
  let own := (s.prot.reportsOf e).map fun r => (r.cls, r.mask)
  let workers := s.slolos.actives.map fun k => (k, summaryEntries (slice (s.slolos.ctx k).telemetry 96 12))
  s.modProt fun p => { p with closing := some (e, (0, own) :: workers) }

/-- The allotment frame of the next epoch (Tables 11-6, 13-2, R325): an address takes part where its context is ACTIVE in the epoch that
the frame is for, which is from the second boundary after its enumeration on (R17; Table 13-4). -/
def State.allotmentFrame (s : State) : State :=
  match s.path.decided with
  | none => s
  | some d =>
    let y := s.slolos
    let part := fun k => (y.ctx k).state == .active || ((y.ctx k).state == .enumerated && 1 ≤ (y.ctx k).age)
    let entry := fun k => if part k then getAt d.entries k (zeros 8) else zeros 8
    let gone := bitsOf 64 ((List.range 64).filter fun k => k ≠ 0 && !part k)
    let body := le 4 ((s.time.epoch + 1) % 2 ^ 32) ++ le 8 (d.bz4 &&& ~~~gone).toNat ++ le 4 d.linkTarget
      ++ ((List.range y.workers).map fun i => entry (i + 1)).flatten
    (s.modSlolos fun y =>
      { y with ctxs := (y.ctxs.zipIdx).map fun x =>
          if x.2 < y.workers then { x.1 with allot := entry (x.2 + 1) } else x.1 }).sendDown (.allotment (withCrc32 body))

/-- The sum, the echo close, the charging machines and the allotment are complete (R243, R276, R324). -/
def execAllotmentComputed (s : State) : Host.Outcome State Fault Refusal :=
  if s.isWorker || s.sys.held || s.sys.clk != .running || !s.eupefen || s.geode.stalled || s.slolos.allotReady then .next s
  else
    let s1 := if s.isManager && !s.slolos.sumBegun then s.beginSum else s
    let s2 := s1.sumEcho.computeAllotment.modSlolos fun y => { y with allotReady := true }
    .next (if s.isManager && s.isReady .slolos then s2.allotmentFrame else s2)

/-- A worker takes its entry and its BZ4 bit (R325); the frame is repeated downstream. -/
def execAllotmentFrame (frame : Received) (s : State) : Host.Outcome State Fault Refusal :=
  let bytes := frame.bytes
  let harm := frame.harm
  if !s.portsRun || !s.isWorker then .next s
  else
    let s1 := s.repeatDown (carriedOn harm (.allotment bytes))
    let k := s.slolos.address
    if !s.chainActs then .next s1
    else if harm != .none || !crc32Good bytes then .next (s1.badFrame harm)
    else if k = 0 || s.slolos.age = 0 || bytes.length < 20 + 8 * k || fieldAt bytes 0 4 ≠ (s.time.epoch + 1) % 2 ^ 32 || s.slolos.allotReady then
      .next s1
    else .next (s1.modSlolos fun y =>
      { y with heldEntry := some (slice bytes (16 + 8 * (k - 1)) 8, (fieldAt bytes 4 8).testBit k, fieldAt bytes 12 4) })

/-- 10 us before the boundary no allotment is held (R21, R162). -/
def execAllotmentMissed (s : State) : Host.Outcome State Fault Refusal :=
  if s.chainActs && s.isWorker && s.slolos.address ≠ 0 && s.slolos.age ≠ 0 && s.slolos.heldEntry.isNone && !s.slolos.allotReady then
    .next ((s.modSlolos fun y => { y with allotReady := true, missedFlag := true, misses := y.misses + 1 }).modTime fun t =>
      { t with overruns := t.overruns ++
          [{ epoch := (t.epoch + 1) % 2 ^ 32, cause := 1, address := s.slolos.address }] })
  else .next s

/-- Step 5 of R18 on a worker: the received entry and BZ4 bit, or those of the epoch before; after two misses in a row a
charging allotment of zero (R21). -/
def State.applyAllotment (s : State) : State :=
  let y := s.slolos
  if y.address = 0 || y.age = 0 || y.cutOff then s
  else match y.heldEntry with
    | some (e, b, t) =>
      let s1 := (s.modSlolos fun y => { y with entry := e, bz4 := b, heldEntry := none, misses := 0, firstAllot := true }).modPath
        fun p => { p with linkTarget := t }
      (s1.applyEntry e t false).applyBz4 b
    | none => if y.firstAllot then s.applyEntry y.entry s.path.linkTarget (2 ≤ y.misses) else s

/-- The chain is untrained or degraded at this die (Table 07-3): the link that it depends on is not up, or the manager knows of a
break. -/
def State.chainPoor (s : State) : Bool :=
  if s.isManager then s.slolos.breaks ≠ [] || s.slolos.portB != .up
  else s.isWorker && s.slolos.port (if s.slolos.facing == 2 then 1 else 0) != .up

/-- A manager's boundary on the chain: contexts age, and the new epoch has no sum yet (R17). -/
def State.chainBoundary (s : State) : State :=
  let s1 := s.modSlolos fun y =>
    { y with
      sumBegun := false, allotReady := false, marker := none, skipped := 0, age := Nat.min 2 (y.age + 1)
      ctxs := y.ctxs.map fun c =>
        if c.state == .enumerated && !c.joining then
          { c with age := c.age + 1, state := if 1 ≤ c.age then .active else .enumerated }
        else c }
  (if s1.chainPoor then s1.chainBit else s1).joinPass

/-! ### Commands (R336, R337) -/

/-- The chain record's body. -/
def chainBodyOk (b : List Byte) : Bool := b.length == 8 && byteAt b 0 < 4 && byteAt b 1 ≤ 63 && zeroAt b 2 6

/-- The chain record takes effect (R336). -/
def Slolos.config (y : Slolos) (b : List Byte) : Slolos :=
  { y with ringExpected := bitAt b 0 0, autoAppend := bitAt b 0 1, expected := byteAt b 1 }

/-- A worker answers NOT_MANAGER (R337). -/
def managerOnly (s : State) : Option Answer := need (!s.isWorker) 0xB0

def opChainStatus : OpSpec :=
  { code := 0x0800, sched := .unscheduled, bcast := false, block := some .slolos
    check := fun _ f => needLength f 0
    run := fun s _ =>
      let y := s.slolos
      okayWith s (le 4 y.statusReg ++ le 4 y.errorsReg ++ le 4 y.delayReg ++ le 1 ((y.breaks.min?).getD 0) ++ zeros 3) }

def opChainWorker : OpSpec :=
  { code := 0x0801, sched := .unscheduled, bcast := false, block := some .slolos
    check := fun s f => firstOf
      [ needLength f 4, managerOnly s,
        need (1 ≤ byteAt f.payload 0 && byteAt f.payload 0 ≤ 63 && zeroAt f.payload 1 3) stBadParam ]
    run := fun s f => okayWith s (s.ctxBytes (byteAt f.payload 0)) }

/-- A strand of the domain is outside HALT, or the link holder is LANES (R320). -/
def State.domainActive (s : State) : Bool :=
  s.path.holder == .lanes || (s.charge.strands.any fun x => x.body.isSome && x.mach.phase != .halt)

def enumerateCheck (s : State) (p : List Byte) : Option Answer :=
  firstOf [need (!s.slolos.enumActive) 0xB1, need (!(byteAt p 0 == 1 && s.domainActive)) 0xB2]

/-- A full enumeration at its boundary: UNASSIGN, every context cleared, a full pass (R320). -/
def State.fullEnumeration (s : State) : State :=
  let s1 := s.workerList.foldl (fun s k => s.loseQueue k) s
  let s2 := s1.sendDown (.control .unassign)
  (s2.modSlolos fun y => { y with ctxs := List.replicate 63 Ctx.absent, workers := 0 }).startPass 1

def opChainEnumerate : OpSpec :=
  { code := 0x0802, sched := .scheduled, bcast := true, block := some .slolos, eupefen := true
    check := fun s f => firstOf
      [ needLength f 4, managerOnly s, need (byteAt f.payload 0 ≤ 1 && zeroAt f.payload 1 3) stBadParam,
        enumerateCheck s f.payload ]
    run := fun s f => match enumerateCheck s f.payload with
      | some a => (s, some a)
      | none => okay (if byteAt f.payload 0 == 1 then s.fullEnumeration else s.startPass 0) }

def opChainReset : OpSpec :=
  { code := 0x0803, sched := .scheduled, bcast := true, block := some .slolos, eupefen := true
    check := fun s f => firstOf [needLength f 8, managerOnly s, need (!bitAt f.payload 0 0) stBadParam]
    run := fun s f => okay (s.sendDown (.control (.reset (BitVec.ofNat 64 (fieldAt f.payload 0 8))))) }

def opChainConfig : OpSpec :=
  { code := 0x0804, sched := .scheduled, bcast := true, block := some .slolos, eupefen := true
    check := fun s f => firstOf
      [ needLength f 12, managerOnly s, need (zeroAt f.payload 0 4 && chainBodyOk (f.payload.drop 4)) stBadParam,
        need (!s.slolos.enumActive) 0xB1 ]
    run := fun s f =>
      if s.slolos.enumActive then answer s 0xB1 else okay (s.modSlolos fun y => y.config (f.payload.drop 4)) }

def execChainStatus (h : Hdr) (p : List Byte) (s : State) : Host.Outcome State Fault Refusal :=
  .next (receive opChainStatus h p s)

def execChainWorker (h : Hdr) (p : List Byte) (s : State) : Host.Outcome State Fault Refusal :=
  .next (receive opChainWorker h p s)

def execChainEnumerate (h : Hdr) (p : List Byte) (s : State) : Host.Outcome State Fault Refusal :=
  .next (receive opChainEnumerate h p s)

def execChainReset (h : Hdr) (p : List Byte) (s : State) : Host.Outcome State Fault Refusal :=
  .next (receive opChainReset h p s)

def execChainConfig (h : Hdr) (p : List Byte) (s : State) : Host.Outcome State Fault Refusal :=
  .next (receive opChainConfig h p s)

/-! ### Fault frames (R228, R327) -/

/-- The manager discards a fault frame of another epoch than the present and the last; any other updates the live view (R230). -/
def State.managerFault (s : State) (cls epoch : Nat) (bits : BitVec 64) : State :=
  if (s.time.epoch + (2 ^ 32 - epoch)) % 2 ^ 32 ≤ 1 then
    s.modProt fun p => { p with echo := modAt p.echo (cls - 1) fun x => x.see epoch bits }
  else s

/-- A worker sets its own bit in a frame that passes and cancels its own, if that has not begun (R228). A frame whose CRC fails goes on
with a CRC that fails (R327). -/
def State.workerFault (s : State) (fromB good : Bool) (cls epoch : Nat) (bits : BitVec 64) : State :=
  let y := s.slolos
  let waits := faultWaits y.txA y.spentA cls epoch || faultWaits y.txB y.spentB cls epoch
  let send := fun (s : State) (f : ChainFrame) => if fromB then s.sendA f else s.sendB f
  if s.prot.sent.contains (cls, epoch) && !waits then send s .abort
  else
    let mine := y.address ≠ 0 && (s.prot.reports.any fun r => r.cls == cls && r.epoch == epoch)
    let out := bits.putBit y.address (mine || bits.getLsbD y.address)
    let body := le 1 cls ++ le 4 epoch ++ le 8 out.toNat
    let crc := if good then crc16 body else crc16 body ^^^ 0xFFFF
    let s1 := s.modSlolos fun y =>
      { y with txA := dropFault y.txA y.spentA cls epoch, txB := dropFault y.txB y.spentB cls epoch }
    (send s1 (.fault (body ++ le 2 crc))).modProt fun p =>
      { p with sent := if p.sent.contains (cls, epoch) then p.sent else p.sent ++ [(cls, epoch)] }

/-- A fault frame arrives. A CRC that fails is counted. A worker in a reset that leaves its paths running passes the frame on as it came
(R333). -/
def execFaultFrame (fromB : Bool) (frame : Received) (s : State) : Host.Outcome State Fault Refusal :=
  let bytes := frame.bytes
  let harm := frame.harm
  let cls := byteAt bytes 0
  let e := fieldAt bytes 1 4
  let bits := BitVec.ofNat 64 (fieldAt bytes 5 8)
  let good := crc16Good bytes && bytes.length == 15 && harm == .none
  let send := fun (s : State) (f : ChainFrame) => if fromB then s.sendA f else s.sendB f
  if !s.portsRun then .next s
  else if !s.chainActs then .next (if s.isWorker then send s (carriedOn harm (.fault bytes)) else s)
  else
    let s1 := if good then s else s.badFrame harm
    if s.isManager then .next (if good then s1.managerFault cls e bits else s1)
    else if harm == .cut then .next (send s1 .abort)
    else .next (s1.workerFault fromB good cls e bits)

end Sys2Proof.Machine
end

