-- ==== Sys2Proof/Machine/FlashOps.lean ====
section
/-!
DEFINITION. The staging buffer of R112, the sizes of journal records (R110, R111), the OTP programs (R115, R108), and what a
reset leaves of a flash operation that it cuts short (R89, R102, R104, R106, R111).
-/
namespace Sys2Proof.Machine

/-! ### The staging buffer: 64 KB of SRAM, zero where nothing is listed -/

/-- The byte at an address. -/
def Memory.read : List Host.Cell → Nat → Byte
  | [], _ => 0
  | c :: r, a => if c.1 = a then c.2 else Memory.read r a

/-- Writes one byte; a zero is not listed. -/
def Memory.write : List Host.Cell → Nat → Byte → List Host.Cell
  | [], a, v => if v = 0 then [] else [(a, v)]
  | c :: r, a, v =>
    if a < c.1 then (if v = 0 then c :: r else (a, v) :: c :: r)
    else if a = c.1 then (if v = 0 then r else (a, v) :: r)
    else c :: Memory.write r a v

/-- Writes bytes from an address on. -/
def Memory.store : List Host.Cell → Nat → List Byte → List Host.Cell
  | m, _, [] => m
  | m, a, b :: r => Memory.store (Memory.write m a b) (a + 1) r

/-- Reads `n` bytes from an address on. -/
def Memory.load (m : List Host.Cell) (a n : Nat) : List Byte := (List.range n).map fun i => Memory.read m (a + i)

/-- Addresses rise strictly from `lo` on, and no entry is zero. -/
def Memory.wfFrom : Nat → List Host.Cell → Bool
  | _, [] => true
  | lo, c :: r => decide (lo ≤ c.1) && c.2 != 0 && Memory.wfFrom (c.1 + 1) r

/-- The canonical form of the buffer. -/
def Memory.wf (m : List Host.Cell) : Bool := Memory.wfFrom 0 m

/-- The bytes of the staging buffer (R112). -/
def stagingSize : Nat := 65536

/-! ### Journal sizes (R88, R110, R111) -/

/-- The bytes of a journal sector, and of its committed header. -/
def sectorSize : Nat := 262144
def sectorHeader : Nat := 16

/-- Header, padded body and trailer of a record. -/
def recSize (n : Nat) : Nat := 32 + 16 * ceilDiv n 16

/-- The bytes of a list of records. -/
def recsSize (l : List JRec) : Nat := l.foldl (fun a r => a + recSize r.body.length) 0

/-- The records that a compaction keeps: what boot would load of each type and instance (R111). Tombstones and blob-end
records have nothing left to say. -/
def liveRecs (l : List JRec) : List JRec :=
  l.filter fun r => r.type ≠ 0xF002 && r.type ≠ 0xF004 && bootRec l r.type r.inst == some r

/-- The live records of every type and instance that new records do not replace. -/
def liveOthers (l new : List JRec) : List JRec :=
  (liveRecs l).filter fun r => !(new.any fun x => (x.type == r.type && x.inst == r.inst) || x.removes r.type r.inst)

/-- The new records fit the active sector. -/
def Flash.fits (f : Flash) (new : List JRec) : Bool := f.jFill + recsSize new ≤ sectorSize

/-- They fit after a compaction. -/
def Flash.fitsCompacted (f : Flash) (new : List JRec) : Bool :=
  sectorHeader + recsSize (liveOthers f.jRecs new) + recsSize new ≤ sectorSize

/-- A compaction (R111), before new records are appended. -/
def Flash.compact (f : Flash) (new : List JRec) : Flash :=
  { f with
    jRecs := liveOthers f.jRecs new
    jFill := sectorHeader + recsSize (liveOthers f.jRecs new)
    jGen := (f.jGen + 1) % 2 ^ 32
    jOtherBlank := true }

/-- Appends committed records. -/
def Flash.append (f : Flash) (new : List JRec) : Flash :=
  { f with jRecs := f.jRecs ++ new, jFill := f.jFill + recsSize new, jSeq := (f.jSeq + new.length) % 2 ^ 32 }

/-- Appends records, after a compaction where it is needed. -/
def Flash.commitRecs (f : Flash) (new : List JRec) (compact : Bool) : Flash :=
  (if compact then f.compact new else f).append new

/-- A record of the Geode's own (R109), of which the spec gives no body: its length is a free value (log 46). -/
def State.ownRecord (s : State) (type : Nat) : JRec × State :=
  let (n, s1) := s.takeNat
  ({ type := type, inst := 0, seqNo := s.flash.jSeq + 1, body := zeros (n % 1024), whole := true }, s1)

/-! ### OTP programs (R91, R108, R115) -/

/-- What the OTP program of a command writes; `version` is the slot's security version, which FW_CONFIRM raises ROLLBACK
to. -/
def Otp.program (o : Otp) (opcode : Nat) (p : List Byte) (version : Nat) : Otp :=
  match opcode with
  | 0x0D02 =>
    { o with ikeys := setAt o.ikeys (byteAt p 0) (slice p 4 32), iProgrammed := o.iProgrammed.putBit (byteAt p 0) true }
  | 0x0D03 => { o with iRevoked := o.iRevoked.putBit (byteAt p 0) true }
  | 0x0D08 =>
    { o with
      roleCfg := o.roleCfg ||| BitVec.ofNat 8 (byteAt p 0)
      wdgCfg := o.wdgCfg ||| BitVec.ofNat 8 (byteAt p 1)
      wdgDevClose := o.wdgDevClose ||| BitVec.ofNat 8 (byteAt p 2) }
  | 0x0C05 => { o with rollback := Nat.max o.rollback version }
  | _ => o

/-- The slot of a name. -/
def Flash.slot (f : Flash) : SlotId → Slot
  | .a => f.slotA | .b => f.slotB

def Flash.setSlot (f : Flash) (i : SlotId) (x : Slot) : Flash :=
  match i with
  | .a => { f with slotA := x }
  | .b => { f with slotB := x }

/-- The security version of a slot's image (Table 05-9). -/
def Slot.version (x : Slot) : Nat := fieldAt x.header 8 4

/-- The security version of the slot that runs. -/
def State.runningVersion (s : State) : Nat :=
  match s.geode.slotRunning with
  | some i => (s.flash.slot i).version
  | none => 0

/-- The OTP program of a command's flight. -/
def State.programOtp (s : State) (f : Flight) : State :=
  s.modOtp fun o => o.program f.opcode f.payload s.runningVersion

/-! ### The certificate copies (R102) -/

/-- The copy that takes the new certificate: the blank one, otherwise one that is not committed. -/
def Flash.writesA (f : Flash) : Bool :=
  if f.certA == CertCopy.blank then true
  else if f.certB == CertCopy.blank then false
  else match f.certA with
    | .committed _ => false
    | _ => true

def Flash.setCopy (f : Flash) (a : Bool) (c : CertCopy) : Flash := if a then { f with certA := c } else { f with certB := c }
def Flash.copy (f : Flash) (a : Bool) : CertCopy := if a then f.certA else f.certB

/-! ### A flash operation cut short -/

/-- Bytes of an append that was cut short: some of them are used, which is a free value (log 46). -/
def State.growFill (s : State) (most : Nat) : State :=
  let (n, s1) := s.takeNat
  s1.modFlash fun f => { f with jFill := Nat.min sectorSize (f.jFill + n % (most + 1)) }

/-- An append that was cut short: a compaction leaves the other sector to be erased again (R111). -/
def State.cutAppend (s : State) (size : Nat) (compact : Bool) : State :=
  if compact then s.modFlash fun f => { f with jOtherBlank := false } else s.growFill size

/-- A chunk whose progress record was not committed stands in its slot (R106). -/
def Flash.keepPart (f : Flash) (data : List Byte) : Flash :=
  match f.session with
  | some x => f.setSlot x.target { f.slot x.target with part := some data }
  | none => f

/-- What a reset leaves of the operation in progress. An OTP program is done or not done, which is a free bit (log 47). -/
def State.interruptFlash (s : State) : State :=
  match s.flash.op with
  | .updateErase _ => s.modFlash fun f => { f with session := none }
  | .chunk _ _ data _ => (s.modFlash fun f => f.keepPart data).growFill 1056
  | .commit _ l compact => s.cutAppend (recsSize l) compact
  | .tombstone _ _ _ compact => s.cutAppend 48 compact
  | .otp k =>
    (match s.findFlight k with
      | some f =>
        let (b, s1) := s.takeBit
        if b then s1.programOtp f else s1
      | none => s)
  | .certWrite _ _ =>
    s.modFlash fun f => f.setCopy f.writesA .uncommitted
  | _ => s

end Sys2Proof.Machine
end

