-- ==== Sys2Proof/Machine/PendantLink.lean ====
section
/-!
DEFINITION. The Pendant setpoint link: frames and answers, transitions, and the commands of Table 12-10 (12).
-/
namespace Sys2Proof.Machine

/-! ### CRC-8 (R292) -/

def crc8Bit (c : Nat) : Nat := if c ≥ 128 then ((2 * c) % 256) ^^^ 0x07 else 2 * c

def crc8Byte (c b : Nat) : Nat :=
  crc8Bit (crc8Bit (crc8Bit (crc8Bit (crc8Bit (crc8Bit (crc8Bit (crc8Bit (c ^^^ b))))))))

/-- CRC-8 with polynomial 0x07 over bytes, most significant first. -/
def crc8 (l : List Nat) : Nat := l.foldl crc8Byte 0

/-! ### The frame (Table 12-2) -/

def frameType (w : Nat) : Nat := w / 2 ^ 27 % 4
def frameSlew (w : Nat) : Nat := w / 2 ^ 24 % 8
def frameCode (w : Nat) : Nat := w / 2 ^ 12 % 4096
def frameSeq (w : Nat) : Nat := w / 2 ^ 8 % 16

/-- START, TYPE and CRC (R296, check 1). -/
def frameGood (w : Nat) : Bool :=
  w / 2 ^ 29 % 8 == 5 && frameType w ≤ 1 && crc8 [w / 2 ^ 24 % 256, w / 2 ^ 16 % 256, w / 2 ^ 8 % 256] == w % 256

/-- The STATUS bits of a NAK answer, which Table 12-4 does not state (log 115). -/
def nakStatus (w : Nat) : Nat := (Config.openInt 25 [(w : Int)]).toNat % 4

/-- An answer word (Table 12-4). -/
def answerWord (kind seqNo status : Nat) : Nat :=
  let h := kind * 64 + seqNo * 4 + status
  h * 256 + crc8 [h]

/-- Frames are answered: the block is ready and not in STANDBY (R295). -/
def State.pendantOn (s : State) : Bool := s.isReady .pendant && (s.sys.power == .run || s.sys.power == .leaving) && !s.otp.partWq && !s.isWorker

/-- An answer is decided; it counts NAK and REJ. -/
def State.pendantAnswer (s : State) (kind seqNo status : Nat) : State :=
  s.modPendant fun p => { p with
    answers := p.answers ++ [answerWord kind seqNo status]
    naks := if kind = 2 then satAdd 255 p.naks 1 else p.naks
    rejs := if kind = 3 then satAdd 255 p.rejs 1 else p.rejs }

/-! ### The measured link (R289, R298) -/

def Pendant.input (p : Pendant) : Nat :=
  match p.body with
  | some b => byteAt b 2
  | none => 0xFF

def Pendant.band (p : Pendant) : Nat :=
  match p.body with
  | some b => fieldAt b 4 4
  | none => 0

/-- The lane that gives the input its scaling: the lowest of those that have it (log 115). -/
def State.pendantSource (s : State) (mode mask input : Nat) : Option Nat :=
  (List.range 4).find? fun k =>
    (s.lane k).body.isSome &&
      (if mode = 2 then mask.testBit k && (s.lane k).stringInput == input else (s.lane k).linkInput == input)

/-- The input's full scale [mV]. -/
def State.pendantScale (s : State) : Nat :=
  match s.pendantSource s.pendant.mode s.pendant.mask s.pendant.input with
  | some k => if s.pendant.mode = 2 then (s.lane k).stringScale else (s.lane k).linkScale
  | none => 0

/-- The measured voltage [mV]: its rounding is open, and without an output it is free. -/
def State.pendantVolts (s : State) : Nat :=
  match s.volts s.pendant.input with
  | some v => (roundOpen 11 (v * (s.pendantScale : Int)) 32768).toNat
  | none => (Config.openInt 6 [(s.time.epoch : Int)]).toNat

/-- The newest output lies within the band of the target (R299). -/
def State.pendantInBand (s : State) : Bool :=
  match s.volts s.pendant.input with
  | some v => (v * (s.pendantScale : Int) - (s.pendant.target : Int) * 32768).natAbs ≤ s.pendant.band * 32768
  | none => false

/-! ### A SETPOINT (R293, R296, R297) -/

/-- The refusal of R296, checks 2 to 4: the REJ status. -/
def State.setpointRefusal (s : State) (w : Nat) : Option Nat :=
  match s.limits with
  | none => some 2
  | some b =>
    let v := frameCode w * certPendant b / 4095
    if s.pendant.mode = 0 then some 2
    else if certSlew b < frameSlew w then some 1
    else if v < certLinkMin b || certLinkMax b < v
        || (s.pendant.mode = 2 && (List.range 4).any fun k => s.pendant.mask.testBit k && certVout b k < v) then some 0
    else none

/-- Setpoint code to mV (R293). -/
def State.setpointMv (s : State) (w : Nat) : Nat :=
  match s.limits with
  | some b => frameCode w * certPendant b / 4095
  | none => 0

/-- A transition starts: from the present reference, or from the measured voltage where none was in progress (R298,
R300). -/
def State.startTransition (s : State) (target slew seqNo : Nat) : State :=
  let (from_, s1) := if s.pendant.phase == .idle then (s.pendantVolts, s) else (s.pendant.ref.getD 0, s.pendantEnd 2 0)
  s1.modPendant fun p => { p with
    stored := true, target := target, slew := slew, rate := slew, ref := some from_, seqNo := seqNo, lastSeq := seqNo
    phase := if from_ = target then .settling else .slewing }

/-- The link is held by the lanes, or a BUS lane runs (R297). -/
def State.pendantMoves (s : State) : Bool :=
  if s.pendant.mode = 2 then s.busRuns else s.path.holder == .lanes

/-- A SETPOINT frame that passed check 1. -/
def State.setpoint (s : State) (w : Nat) : State :=
  match s.setpointRefusal w with
  | some st => s.pendantAnswer 3 (frameSeq w) st
  | none =>
    let v := s.setpointMv w
    if s.pendantMoves then (s.startTransition v (frameSlew w) (frameSeq w)).pendantAnswer 1 (frameSeq w) 0
    else (s.modPendant fun p => { p with
        stored := true, target := v, slew := frameSlew w, lastSeq := frameSeq w }).pendantAnswer 1 (frameSeq w)
      (if s.pendant.mode = 1 && s.path.holder == .source then 1 else 2)

/-- An ending as a STATUS answer codes it (Table 12-4). -/
def endingCode (e : Nat) : Nat := if e = 1 then 2 else if e = 3 then 3 else 0

/-- The state that a STATUS answer reports (Table 12-4): the ending that asserted PND_ALRTN to the frame that releases it (R301); else, in
LINK with a source holding the link, 0b01 for the line-held link of R302 (log 115). -/
def State.pendantStatus (s : State) : Nat :=
  let p := s.pendant
  if p.alert then endingCode p.alertEnd
  else if p.phase != .idle || (p.mode = 1 && s.path.holder == .source) then 1
  else endingCode p.lastEnd

/-- A STATUS frame that passed check 1: it releases PND_ALRTN (R301); in OFF mode, or without limits, REJ. Checks 3 and 4 of R296 read
fields that are zero in STATUS, and are made of a SETPOINT only (log 115). -/
def State.statusFrame (s : State) (w : Nat) : State :=
  let s1 := s.modPendant fun p => { p with alert := false }
  if s.pendant.mode = 0 || s.limits.isNone then s1.pendantAnswer 3 (frameSeq w) 2
  else s1.pendantAnswer 1 (frameSeq w) s.pendantStatus

/-- A complete frame: NAK, or what its type asks for. -/
def State.pendantFrame (s : State) (w : Nat) : State :=
  if !s.pendantOn then s
  else if !frameGood w then s.pendantAnswer 2 0 (nakStatus w)
  else if frameType w = 0 then s.setpoint w
  else s.statusFrame w

def execPendantSetpointFrame (word : Nat) (s : State) : Host.Outcome State Fault Refusal :=
  .next (s.pendantFrame (word % 2 ^ 32))

def execPendantStatusFrame (word : Nat) (s : State) : Host.Outcome State Fault Refusal :=
  .next (s.pendantFrame (word % 2 ^ 32))

/-- A gap discards the bits received so far (R295). -/
def execPendantGapDiscard (s : State) : Host.Outcome State Fault Refusal :=
  if s.pendantOn then .next (s.modPendant fun p => { p with discarded := satAdd 255 p.discarded 1 }) else .next s

/-- The answer is ready: PND_DAT goes low (R294). -/
def execPendantAnswerReady (s : State) : Host.Outcome State Fault Refusal :=
  if s.pendant.answers.isEmpty then .next s else .next (s.modPendant fun p => { p with ready := true })

/-- The answer that is ready leaves, and PND_DAT is released. -/
def Pendant.release (p : Pendant) : Pendant := { p with answers := p.answers.drop 1, ready := false }

/-- The 16 answer bits have been clocked out: PND_DAT is released (R294). -/
def execPendantAnswerRead (s : State) : Host.Outcome State Fault Refusal :=
  if s.pendant.ready then .next (s.modPendant Pendant.release) else .next s

/-- No answer clocks within 100 us: the answer is discarded (R294). -/
def execPendantAnswerTimeout (s : State) : Host.Outcome State Fault Refusal :=
  if s.pendant.ready then .next (s.modPendant Pendant.release) else .next s

/-! ### Transitions (R298 to R300) -/

/-- One microsecond of the slew: 5 x 2^s mV towards the target. -/
def Pendant.step (p : Pendant) : Pendant :=
  let d := 5 * 2 ^ p.rate
  let x := p.ref.getD 0
  let r := if x ≤ p.target then Nat.min p.target (x + d) else Nat.max p.target (x - d)
  { p with ref := some r, phase := if r = p.target then .settling else .slewing }

def execPendantSlewStep (s : State) : Host.Outcome State Fault Refusal :=
  if s.pendant.phase == .slewing then .next (s.modPendant Pendant.step) else .next s

/-- The settle time has passed within the band (R299). -/
def execPendantDone (s : State) : Host.Outcome State Fault Refusal :=
  if s.pendant.phase == .settling && s.pendantInBand then .next (s.pendantEnd 1 0) else .next s

/-- DONE has not come within its timeout (R299). -/
def execPendantNotSettled (s : State) : Host.Outcome State Fault Refusal :=
  if s.pendant.phase == .settling then .next (s.pendantEnd 3 1) else .next s

/-- A certificate clamps the stored target into its link range, and counts one clamp (R305). -/
def State.clampPendant (s : State) : State :=
  if s.pendant.stored then
    let (v, s1) := s.clampTo 5 s.pendant.target fun b => (certLinkMin b, certLinkMax b)
    s1.modPendant fun p => { p with
      target := v.toNat
      phase := if p.phase == .settling && p.ref ≠ some v.toNat then .slewing else p.phase }
  else s

/-! ### Commands of Table 12-10 -/

/-- A Pendant record (Table 12-1, R289). -/
def State.pendantBodyOk (s : State) (b : List Byte) : Bool :=
  b.length == 16 && byteAt b 0 ≤ 2
    && (if byteAt b 0 = 2 then 1 ≤ byteAt b 1 && byteAt b 1 ≤ 15 else byteAt b 0 == 0 || byteAt b 1 == 0)
    && 16 ≤ byteAt b 2 && byteAt b 2 ≤ 19 && zeroAt b 3 1 && 0 < fieldAt b 4 4
    && 1 ≤ fieldAt b 8 2 && fieldAt b 8 2 ≤ 10000 && 1 ≤ fieldAt b 0xA 2 && fieldAt b 0xA 2 ≤ 60000 && zeroAt b 0xC 4
    && (s.pendantSource (byteAt b 0) (byteAt b 1) (byteAt b 2)).isSome

def opPendantConfig : OpSpec :=
  { code := 0x0A00, sched := .scheduled, bcast := true, mqOnly := true, block := some .pendant, eupefen := true
    check := fun s f => firstOf
      [ needLength f 20, need (zeroAt f.payload 0 4 && (s.ahead f).pendantBodyOk (f.payload.drop 4)) stBadParam,
        need (s.pendant.phase == .idle) 0xA8 ]
    run := fun s f =>
      if s.pendantBodyOk (f.payload.drop 4) then
        okay ((s.pendantEnd 3 4).modPendant fun p => { p with body := some (f.payload.drop 4) })
      else answer s stBadParam }

def PendPhase.code : PendPhase → Nat
  | .idle => 0 | .slewing => 1 | .settling => 2

/-- PENDANT_STATE (Table 12-6). -/
def Pendant.stateReg (p : Pendant) : Nat :=
  p.mode * 2 ^ 26 + p.phase.code * 2 ^ 24 + p.lastSeq * 2 ^ 20 + p.lastEnd * 2 ^ 18 + bit p.stored * 2 ^ 17
    + bit p.alert * 2 ^ 16 + p.slew

/-- PENDANT_COUNT (Table 12-9). -/
def Pendant.countReg (p : Pendant) : Nat := p.discarded * 2 ^ 24 + p.naks * 2 ^ 16 + p.rejs * 2 ^ 8 + p.superseded

/-- A read of PENDANT_COUNT clears it (R8). -/
def Pendant.clearCount (p : Pendant) : Pendant := { p with discarded := 0, naks := 0, rejs := 0, superseded := 0 }

def opPendantStatus : OpSpec :=
  { code := 0x0A01, sched := .unscheduled, bcast := false, mqOnly := true, block := some .pendant
    check := fun _ f => needLength f 0
    run := fun s _ => okayWith s
      (le 4 s.pendant.stateReg ++ le 4 s.pendant.target ++ le 4 (s.pendant.ref.getD 0) ++ le 4 s.pendant.countReg) }

def execPendantConfig (h : Hdr) (p : List Byte) (s : State) : Host.Outcome State Fault Refusal :=
  .next (receive opPendantConfig h p s)

def execPendantStatus (h : Hdr) (p : List Byte) (s : State) : Host.Outcome State Fault Refusal :=
  .next (receive opPendantStatus h p s)

end Sys2Proof.Machine
end

