-- ==== Sys2Proof/Machine/System.lean ====
section
/-!
DEFINITION. Supplies, resets, the clock unit, readiness, the low-power states and their wakes, JTAG, and the system
opcodes (02, 03, 04).
-/
namespace Sys2Proof.Machine

/-! ### Supplies and NRST (R41 to R45) -/

def supplyBit : Supply → Nat
  | .vaon => 0 | .vio => 1 | .vana => 2 | .vpll => 3 | .vcore => 4

/-- VAON passes its rising threshold: the always-on domain and LFRC start, LFRC is trimmed, SAFE_N is low; the POR goes on
until the supplies and NRST release it (Table 03-4). -/
def execVaonRise (s : State) : Host.Outcome State Fault Refusal :=
  if s.powered then .next s
  else
    .next (((s.modSys fun y =>
      { y with
        supplies := y.supplies.putBit 0 true
        lfrcRun := true
        lfrcTrimmed := true
        safeLow := true }).modWdg fun w => { w with lfrcStalled := false }).trigger causePor)

/-- A supply falls below its threshold (R41): a POR or a BOR; in HIBERNATE only the VAON monitor acts. -/
def execSupplyMonitorTrip (supply : Supply) (s : State) : Host.Outcome State Fault Refusal :=
  let s1 := s.modSys fun y => { y with supplies := y.supplies.putBit (supplyBit supply) false, suppliesOk := false }
  match supply with
  | .vaon => .next ((s1.trigger causePor).modSys fun y => { y with lfrcRun := false, lfrcTrimmed := false })
  | _ => .next (if s.sys.hibernate then s1 else s1.trigger causeBor)

/-- Every supply has been above its rising threshold for 100 us. -/
def execSupplyMonitorRelease (s : State) : Host.Outcome State Fault Refusal :=
  if s.powered then .next (s.modSys fun y => { y with supplies := 0x1F, suppliesOk := true }) else .next s

/-- NRST is low: while VAON is present it resets the die, or merges with the reset in progress (R44). -/
def State.pinReset (s : State) : State :=
  let s1 := s.modSys fun y => { y with nrstLow := true }
  if s.powered then s1.trigger causePin else s1

/-- A low pulse on NRST: 1 us always resets, 100 ns never does; between them a free bit decides (R44). A level that is low
before VAON rises holds the POR that follows (Table 03-4, step 3). -/
def execNrstLow (ns : Nat) (s : State) : Host.Outcome State Fault Refusal :=
  if ns ≤ 100 then .next s
  else if 1000 ≤ ns then .next s.pinReset
  else
    let (b, s1) := s.takeBit
    .next (if b then s1.pinReset else s1)

/-! ### Reset entry (R76, R77, R86, R87) -/

/-- Every volatile field at its reset value; what the balls carry is not the die's to reset (Table 04-16). -/
def State.wipe (s : State) (thermal : Bool) : State :=
  { s with
    flash := { s.flash with op := .none, staging := [] }
    geode := Geode.reset
    cmd := Cmd.reset
    time := { Time.reset with epoch := s.time.epoch }
    wdg := { Wdg.reset with clkLfrc := s.wdg.clkLfrc, lfrcStalled := s.wdg.lfrcStalled, devClose := s.wdg.devClose }
    memi := Memi.reset
    conv := Conv.reset
    prot := { Prot.reset with dfltRaw := s.prot.dfltRaw, cmpUp := s.prot.cmpUp, cmpLo := s.prot.cmpLo }
    path := { Path.reset with chans := s.path.chans.map fun c => { Chan.reset with fb := c.fb } }
    slolos := Slolos.reset
    charge := Charge.reset
    pendant := Pendant.reset
    clasp := { Clasp.reset with ports := s.clasp.ports.map fun p => { Port.reset with bandA := p.bandA, bandB := p.bandB } }
    meas := Meas.reset
    therm := if thermal then { Therm.reset with body := s.therm.body, shutdown := true } else Therm.reset }

/-- The core side of a crossing is reset: a value still on its way to the always-on domain is lost, and the register keeps the one
before (R70). A crossing takes two to three LFRC periods (Table 04-6): in the last of them a free bit decides. -/
def State.cutCrossing {α : Type} (s : State) (x : Option (Nat × α)) (now : α) : α × State :=
  match x with
  | none => (now, s)
  | some (left, old) =>
    if 80 < left then (old, s)
    else
      let (b, s1) := s.takeBit
      (if b then old else now, s1)

/-- Both writes that cross to the always-on domain: SYS_RST_HISTORY and SET_WAKE (Table 04-16). -/
def State.cutCrossings (s : State) : State :=
  let (seen, s1) := s.cutCrossing s.sys.crossSeen s.sys.seen
  let (wake, s2) := s1.cutCrossing s.sys.crossWake s.sys.wake
  s2.modSys fun y => { y with seen := seen, wake := wake, crossSeen := none, crossWake := none }

/-- A POR or a BOR among the triggers (R43). -/
def coldTrig (t : BitVec 12) : Bool := t.getLsbD causePor || t.getLsbD causeBor

/-- A reset is recognised (Table 04-9, steps 1 to 3). The reset that completes a life-cycle change captures no epoch number: it
returns the register to its reset value (Table 04-16). A POR or a BOR resets the TAP with its supply. -/
def execResetEntry (s : State) : Host.Outcome State Fault Refusal :=
  if s.sys.held || s.sys.trigPending = 0 then .next s
  else
    let t := s.sys.trigPending
    .next ((s.interruptFlash.cutCrossings.wipe (t.getLsbD causeThermal)).modSys fun y =>
      { y with
        trigPending := 0
        held := true
        trig := t
        ready := 0x0001
        epochAtReset := if y.hibernate then y.epochAtReset else if y.forgetting then 0 else s.time.epoch
        cells := if coldTrig t then none else y.cells
        safeLow := true
        power := .run
        hibernate := false
        hung := none
        coreHung := none
        waking := false
        wakeLatched := false
        wakeLeft := 0
        strapsTaken := false
        entering := none
        lfrcMeas := 0 })

/-! ### Reset end (R14, R37, R61, R76 to R79) -/

/-- The kinds that restart the PLL (Table 04-7). -/
def restartKinds : BitVec 12 := 0xC0E

/-- SYS_RST_CAUSE for the kinds that triggered (R77). -/
def causeOf (t : BitVec 12) : BitVec 12 :=
  if t.getLsbD causePor then 0x002
  else if t.getLsbD causeBor then 0x004
  else if t.getLsbD causePin then 0x008
  else if t.getLsbD causeThermal then 0x800
  else if t.getLsbD causeGeodeSafe then 0x080
  else if (t &&& 0x070) ≠ 0 then t &&& 0x070
  else if t.getLsbD causeChain then 0x200
  else if t.getLsbD causeSoft then 0x100
  else 0x400

/-- The role that a code gives a part (Table 01-3, R2): the role, and ROLE_REFUSED. -/
def roleOf (wq : Bool) (code : BitVec 2) : Role × Bool :=
  if code = 1 then (.worker, false)
  else if code = 3 || wq then (.worker, true)
  else if code = 0 then (.standalone, false)
  else (.manager, false)

/-- A strap as sampled: a level that is changing reads 0 or 1 (R38). -/
def State.sampleStrap (s : State) (level changing : Bool) : Bool × State := if changing then s.takeBit else (level, s)

/-- Samples MODE and XSEL. -/
def State.sampleStraps (s : State) (x : Straps) : State :=
  let (m0, s1) := s.sampleStrap (x.mode.getLsbD 0) (x.changing.getLsbD 0)
  let (m1, s2) := s1.sampleStrap (x.mode.getLsbD 1) (x.changing.getLsbD 1)
  let (xs, s3) := s2.sampleStrap x.xsel (x.changing.getLsbD 2)
  s3.modSys fun y => { y with mode := BitVec.ofNat 2 (bit m0 + 2 * bit m1), xsel := xs, strapsTaken := true }

/-- The reset restarts the PLL (R61, R63). -/
def Sys.restarts (y : Sys) : Bool := (y.trig &&& restartKinds) ≠ 0 || y.trigPll

/-- What must hold before the reset ends: supplies and NRST (R41, R44), the thermal release (R390), a running LFRC
(R411). -/
def State.mayEnd (s : State) : Bool :=
  s.sys.held && s.sys.suppliesOk && !s.sys.nrstLow && !(s.therm.shutdown && s.therm.coolReads < 5) && !s.wdg.lfrcStalled

/-- The last-fault record ends in the CRC of its other bytes. -/
def FaultRec.good (r : FaultRec) : Bool := r.crc == BitVec.ofNat 32 (crc32c r.body)

/-- The Geode's check at boot: a record that fails it reads with code 0xFF, and the rest of it stays (R79). -/
def FaultRec.checked (r : FaultRec) : FaultRec := if r.good then r else { r with code := 0xFF }

/-- The clocks start: dividers are released, system time counts, and the Geode checks the last-fault record and reads OTP (R61, R78,
R79, R93). -/
def State.clockStart (s : State) : State :=
  let s1 := s.modSys fun y => { y with clk := .running, lastFault := y.lastFault.checked }
  let s2 := s1.modGeode fun g => { g with stage := .patch }
  if s.otp.eccBad then s2.recordFault 0x85 0x0F [] else s2

/-- A POR, a BOR or a life-cycle change returns the always-on retention to its reset value (Table 04-16). -/
def Sys.forget (y : Sys) : Sys :=
  { y with
    forgetting := false
    lastFault := FaultRec.clear.seal, faultOpen := false, faultSeq := 0, epochAtReset := 0, hint := 0, seen := 0, rstCount := 0
    pllRetry := 0, wake := WakeCfg.reset }

/-- The number of the CAUSE bit that byte 0x01 of the last-fault record takes (R79). -/
def causeNumber (c : BitVec 12) : Nat := (c.members.head?).getD 0

/-- Where the lock sequence begins when a reset ends (R61): at step 2 of Table 04-2, whose step 1 a restarting reset has done, or,
where another kind leaves a locked PLL, at step 4. -/
def Sys.clkAtEnd (y : Sys) : ClkState :=
  if y.restarts then .refCheck
  else match y.clk with
    | .running => .running
    | .locked => .locked
    | _ => .refCheck

/-- The reset ends (Table 04-9, step 5). A boundary-scan instruction stays in force through it where the life cycle keeps the TAP
enabled (log 97). -/
def State.endReset (s : State) (x : Straps) : State :=
  let t := s.sys.trig
  let restart := s.sys.restarts
  let cold := coldTrig t
  let s0 := if restart && !s.sys.strapsTaken then s.sampleStraps x else s
  let s1 := if cold || s0.sys.forgetting then s0.modSys Sys.forget else s0
  let forced := s1.otp.roleCfg.getLsbD 2
  let code := if forced then s1.otp.roleCfg.extractLsb' 0 2 else s1.sys.mode
  let (role, refused) := roleOf s1.otp.partWq code
  let cause := causeOf t
  let epoch := if role == .worker || cold then 0 else (s1.sys.epochAtReset + 1) % 2 ^ 32
  let s2 : State :=
    { s1 with
      time := { Time.reset with epoch := epoch, hasEpoch := role != .worker }
      wdg := { Wdg.reset with clkLfrc := s1.otp.wdgCfg.getLsbD 0, devClose := s1.otp.wdgDevClose }
      therm := Therm.reset }
  let s3 := s2.modSys fun y =>
    { y with
      held := false
      trig := 0
      trigPll := false
      strapsTaken := false
      clk := y.clkAtEnd
      pllLost := false
      refOk := false
      role := role
      roleRefused := refused
      roleForced := forced
      rstCause := cause
      seen := y.seen ||| t
      rstCount := satAdd 65535 y.rstCount 1
      lastFault := if y.faultOpen then FaultRec.seal { y.lastFault with causeBit := BitVec.ofNat 8 (causeNumber cause) }
        else y.lastFault
      faultOpen := false
      tapOn := s1.lc == .develop || s1.lc == .ret
      cells := if !cold && (s1.lc == .develop || s1.lc == .ret) then y.cells else none }
  if s3.sys.clk == .running then s3.clockStart else s3

/-- The minimum hold has passed: the reset ends once its conditions hold. -/
def execResetEnd (straps : Straps) (s : State) : Host.Outcome State Fault Refusal :=
  .next (if s.mayEnd then s.endReset straps else s)

/-- NRST rises: it samples the straps of a POR, BOR or PIN reset (R37), which ends once nothing else holds it. -/
def execNrstRise (straps : Straps) (s : State) : Host.Outcome State Fault Refusal :=
  if !s.sys.nrstLow then .next s
  else
    let s1 := s.modSys fun y => { y with nrstLow := false }
    let s2 := if s.sys.held && (s.sys.trig &&& 0x00E) ≠ 0 then s1.sampleStraps straps else s1
    .next (if s2.mayEnd then s2.endReset straps else s2)

/-! ### The lock sequence (R61 to R64) -/

/-- The clock unit works on a lock attempt: no reset is held and the always-on domain runs. -/
def State.locking (s : State) (c : ClkState) : Bool := s.sys.clk == c && !s.sys.held && s.sys.lfrcRun

/-- An accepted count of reference edges over 64 LFRC periods. -/
def refGood (edges : Nat) : Bool := 608 ≤ edges && edges ≤ 672

def execReferenceCheck (edges : Nat) (s : State) : Host.Outcome State Fault Refusal :=
  if s.locking .refCheck then
    .next (s.modSys fun y => { y with refOk := refGood edges, clk := if refGood edges then .pllStart else .refCheck })
  else .next s

def execPllLock (s : State) : Host.Outcome State Fault Refusal :=
  if s.locking .pllStart then .next (s.modSys fun y => { y with clk := .locked }) else .next s

/-- Step 2 or 3 exceeds its bound: the PLL powers down for 100 us (R62). -/
def execPllLockTimeout (s : State) : Host.Outcome State Fault Refusal :=
  if s.locking .refCheck || s.locking .pllStart then
    .next (s.modSys fun y => { y with clk := .powerDown, pllRetry := satAdd 255 y.pllRetry 1 })
  else .next s

def execPllRetryRestart (s : State) : Host.Outcome State Fault Refusal :=
  if s.locking .powerDown then .next (s.modSys fun y => { y with clk := .refCheck }) else .next s

/-- All dividers are released. After a STANDBY or a service wake the retained state goes on (R83, R84). -/
def execClockStart (s : State) : Host.Outcome State Fault Refusal :=
  if s.locking .locked then
    .next (if s.sys.waking then s.modSys fun y => { y with clk := .running, waking := false } else s.clockStart)
  else .next s

/-- A loss recorded by the always-on domain: a GEODE_SAFE reset that restarts the PLL (R63). -/
def State.clockLost (s : State) (code : Nat) : State :=
  ((s.recordFault code 0x00 []).trigger causeGeodeSafe).modSys fun y => { y with trigPll := true }

/-- Lock is lost: PLL_LOCK reads 0 from then on (Table 04-3), though the clocks run on until the reset is recognised. -/
def execPllLoss (s : State) : Host.Outcome State Fault Refusal :=
  if s.sys.clk == .running then .next ((s.clockLost 0xC0).modSys fun y => { y with pllLost := true }) else .next s

/-- A reference check fails: REF_OK reads 0 from then on (Table 04-3). -/
def execRefLoss (edges : Nat) (s : State) : Host.Outcome State Fault Refusal :=
  if s.sys.clk == .running && !refGood edges then .next ((s.clockLost 0xC1).modSys fun y => { y with refOk := false })
  else .next s

/-- PLL_LOCK of Table 04-3. -/
def Sys.pllLock (y : Sys) : Bool := (y.clk == .running || y.clk == .locked) && !y.pllLost

/-- LFRC_MEAS takes a count while the PLL is locked (R64). -/
def execLfrcMeasUpdate (ticks : Nat) (s : State) : Host.Outcome State Fault Refusal :=
  if s.sys.pllLock && !s.sys.held then
    .next (s.modSys fun y => { y with lfrcMeas := ticks % 65536 })
  else .next s

/-- SYS_CLK_STATUS, SYS_STRAPS and SYS_READY (Tables 04-3 to 04-5). -/
def Sys.clkReg (y : Sys) : Nat :=
  y.lfrcMeas * 2 ^ 16 + y.pllRetry * 2 ^ 8 + bit y.refOk * 2 + bit y.pllLock

def Role.code : Role → Nat
  | .standalone => 0 | .worker => 1 | .manager => 2

def Sys.strapsReg (y : Sys) : Nat :=
  bit y.roleRefused * 2 ^ 7 + bit y.roleForced * 2 ^ 6 + y.role.code * 2 ^ 4 + bit y.xsel * 4 + y.mode.toNat

def Power.code : Power → Nat
  | .run => 0 | .standby => 1 | .leaving => 2 | .serviceWake => 3

def Sys.readyReg (y : Sys) : Nat := y.power.code * 2 ^ 16 + y.ready.toNat

/-- SYS_RST_HISTORY (Table 04-11). -/
def Sys.historyReg (y : Sys) : Nat := y.rstCount * 2 ^ 16 + y.seen.toNat

/-! ### Readiness (R31, R65, R70) -/

/-- The block can set its READY bit: fused blocks never do (R3), a worker's Slolos bit follows its trained SLA link (Table 04-5),
the GEODE bit its patch check, MEAS its calibration, and THERM its first read (R385). -/
def State.canReady (s : State) (b : Block) : Bool :=
  match b with
  | .sys => false
  | .clasp | .pendant => !s.otp.partWq
  | .slolos => (s.isWorker && (s.slolos.portA == .measuring || s.slolos.portA == .up))
    || (s.isManager && s.slolos.verifyDue && s.slolos.portB != .off)
  | .geode => s.geode.stage != .otp && s.geode.stage != .patch
  | .meas => s.meas.calDone
  | .therm => s.therm.started
  | _ => true

/-- A block sets its READY bit. DESIGN CHOICE (log 99): POWER_STATE goes from leaving STANDBY to RUN once CMD and CONV are both
set, when the first boundary may perform R18 (R83). -/
def execBlockReady (block : Block) (s : State) : Host.Outcome State Fault Refusal :=
  if s.sys.clk == .running && !s.sys.held && !s.isReady block && s.canReady block then
    let s1 := s.setReady block true
    let s2 := if block == .conv || block == .prot then s1.armDflt
      else if block == .slolos && s.isManager then s1.wakeWorkers
      else if block == .clasp then s1.claspReady else s1
    .next (if s2.sys.power == .leaving && s2.isReady .cmd && s2.isReady .conv then s2.modSys fun y => { y with power := .run }
      else s2)
  else .next s

/-! ### Low power (R80 to R85) -/

/-- The reasons of NOT_QUIESCENT. -/
def State.quiescence (s : State) : Nat :=
  bit (!(s.conv.lanes.all laneIsOff)) + 2 * bit (s.path.chans.any fun c => c.drv || c.state == .opening)
    + 4 * bit (s.flash.op != .none)
    + 8 * bit (s.pendant.phase != .idle || s.clasp.ports.any fun p => p.mode == .transition || p.swap != .none)

/-- The reasons for a low-power command: with an unbroadcast command on a manager that has workers. -/
def State.lowPowerReasons (s : State) (f : Flight) : Nat :=
  s.quiescence + 16 * bit (s.isManager && !f.bcast && !s.workerList.isEmpty)

def lowPowerCheck (s : State) (f : Flight) : Option Answer :=
  let r := s.lowPowerReasons f
  if r = 0 then none else some [stNotQuiescent, BitVec.ofNat 8 r]

/-- At the boundary: the check again, then the entry that follows the boundary actions, or LOWPOWER_ABORTED. There is no
completion reply (R127). -/
def runLowPower (hibernate : Bool) (s : State) (f : Flight) : State × Option Answer :=
  let s1 := s.dropFlight f.key
  match lowPowerCheck s f with
  | some a => later (s1.event 0x7F01 (a.drop 1 ++ le 4 s.time.epoch))
  | none => later (s1.modSys fun y => { y with entering := some hibernate })

def opEnterStandby : OpSpec :=
  { code := 0x0010, sched := .scheduled, bcast := true
    check := fun s f => firstOf [needLength f 0, lowPowerCheck s f]
    run := runLowPower false }

def opEnterHibernate : OpSpec :=
  { code := 0x0011, sched := .scheduled, bcast := true
    check := fun s f => firstOf [needLength f 0, lowPowerCheck s f]
    run := runLowPower true }

def opSetWake : OpSpec :=
  { code := 0x0012, sched := .unscheduled, bcast := true
    check := fun _ f => firstOf
      [ needLength f 8,
        need (byteAt f.payload 0 < 16 && byteAt f.payload 1 < 16 && byteAt f.payload 2 < 8 && byteAt f.payload 3 == 0) stBadParam ]
    run := fun s f => okay (s.modSys fun y =>
      { y with crossWake := some (240, y.wake), wake :=
        { enable := BitVec.ofNat 4 (byteAt f.payload 0), level := BitVec.ofNat 4 (byteAt f.payload 1),
          csn := bitAt f.payload 2 0, slolos := bitAt f.payload 2 1, timer := bitAt f.payload 2 2,
          periods := fieldAt f.payload 4 4 } }) }

def opSoftReset : OpSpec :=
  { code := 0x0013, sched := .either, bcast := true
    check := fun _ f => firstOf [needLength f 4, need (fieldAt f.payload 0 4 == 0x50F7C0DE) stBadParam]
    run := fun s f =>
      if f.sched then later ((s.dropFlight f.key).trigger causeSoft) else okay (s.trigger causeSoft) }

/-- A wake input stands at its active level. -/
def Sys.wakeActive (y : Sys) : Bool := (y.wake.enable &&& ~~~(y.wakePins ^^^ y.wake.level)) ≠ 0

/-- STANDBY is entered (R82). -/
def Sys.sleep (y : Sys) : Sys :=
  { y with ready := 0x0001, clk := .stopped, power := .standby, waking := false }

/-- The low-power state that the boundary enters, after its actions (R82, R85). In HIBERNATE the TAP, like every block outside the
always-on domain, does not run, so the boundary cells let go of the balls. -/
def State.enterLowPower (s : State) : State :=
  match s.sys.entering with
  | none => s
  | some hib =>
    let s1 := s.modSys fun y =>
      { y.sleep with entering := none, wakeLatched := y.wakeActive, wakeLeft := y.wake.periods }
    if hib then
      s1.modSys fun y => { y with power := .run, hibernate := true, safeLow := true, epochAtReset := s.time.epoch, cells := none }
    else (s1.modTherm Therm.start).claspStart.modMeas Meas.halt

/-- The die is in a low-power state, in which enabled wakes are latched. -/
def State.asleep (s : State) : Bool :=
  (s.sys.power == .standby || s.sys.power == .serviceWake || s.sys.hibernate) && !s.sys.held

def State.latchWake (s : State) (c : Bool) : State :=
  if c then s.modSys fun y => { y with wakeLatched := true } else s

def execWakeInput (input : Nat) (high : Bool) (s : State) : Host.Outcome State Fault Refusal :=
  let s1 := s.modSys fun y => { y with wakePins := y.wakePins.putBit input high }
  .next (s1.latchWake (s.asleep && input < 4 && s.sys.wake.enable.getLsbD input && s.sys.wake.level.getLsbD input == high))

def execWakeTimerExpired (s : State) : Host.Outcome State Fault Refusal :=
  if s.asleep && s.sys.wakeLeft ≠ 0 then .next ((s.modSys fun y => { y with wakeLeft := 0 }).latchWake true) else .next s

def execHsCsnWake (s : State) : Host.Outcome State Fault Refusal :=
  .next (s.latchWake ((s.sys.power == .standby || s.sys.power == .serviceWake) && s.sys.wake.csn))

/-- A worker's wake receiver detects the burst: SLB toggles and the die wakes (Table 13-8, step 2). -/
def execSlolosWakeDetected (s : State) : Host.Outcome State Fault Refusal :=
  if (s.sys.power == .standby || s.sys.power == .serviceWake) && s.sys.wake.slolos && s.isWorker then
    .next ((s.latchWake true).sendB .toggle)
  else .next s

/-- Waiting commands whose epoch has passed end TOO_LATE at a STANDBY exit (R83). -/
def State.endPast (s : State) : State :=
  s.endWaiting (fun f => (s.time.epoch + 2 ^ 32 - f.epoch) % 2 ^ 32 < 2 ^ 31) stTooLate

/-- A latched wake ends STANDBY: the lock sequence runs from step 2, and waiting commands whose epoch has passed end
TOO_LATE (R83). DESIGN CHOICE (log 99): a wake latched during a service wake acts after the return to STANDBY. -/
def execStandbyWake (s : State) : Host.Outcome State Fault Refusal :=
  if s.sys.power == .standby && s.sys.wakeLatched && !s.sys.held then
    let s1 := (s.modSys fun y =>
        { y with power := .leaving, wakeLatched := false, wakeLeft := 0, waking := true, clk := .refCheck }).modTime
      fun t => { t with wordNow := t.wordNow ||| 0x40, tick := 0 }
    let s2 := s1.modSlolos fun y => { y with portA := .off, portB := .off, enumActive := false, verifyDue := s.isManager && y.workers ≠ 0 }
    .next s2.endPast
  else .next s

/-- A wake from HIBERNATE, once every supply is valid (R45, R85). -/
def execHibWake (s : State) : Host.Outcome State Fault Refusal :=
  if s.sys.hibernate && s.sys.wakeLatched && s.sys.suppliesOk then .next (s.trigger causeHibWake) else .next s

/-- The open tick in STANDBY starts the clocks (R84). -/
def execServiceWake (s : State) : Host.Outcome State Fault Refusal :=
  if s.sys.power == .standby && !s.sys.held && s.wdg.clkLfrc && s.wdg.openTick ≤ s.wdg.count then
    .next (s.modSys fun y => { y with power := .serviceWake, waking := true, clk := .refCheck })
  else .next s

/-- After the service the die returns to STANDBY. -/
def execServiceWakeReturn (s : State) : Host.Outcome State Fault Refusal :=
  if s.sys.power == .serviceWake && !s.sys.held && s.wdg.count < s.wdg.openTick then .next (s.modSys Sys.sleep) else .next s

/-! ### JTAG (R35, R36) -/

/-- An instruction gives the boundary cells the outputs, with what the cells hold, or takes them away, as does Test-Logic-Reset by
TRSTN or TMS. Where the TAP is not enabled its inputs are ignored. -/
def execJtagInstruction (cells : Option Cells) (s : State) : Host.Outcome State Fault Refusal :=
  if s.sys.tapOn && !s.sys.hibernate && s.sys.supplies.getLsbD 1 then .next (s.modSys fun y => { y with cells := cells })
  else .next s

def execEnterStandby (h : Hdr) (p : List Byte) (s : State) : Host.Outcome State Fault Refusal :=
  .next (receive opEnterStandby h p s)

def execEnterHibernate (h : Hdr) (p : List Byte) (s : State) : Host.Outcome State Fault Refusal :=
  .next (receive opEnterHibernate h p s)

def execSetWake (h : Hdr) (p : List Byte) (s : State) : Host.Outcome State Fault Refusal :=
  .next (receive opSetWake h p s)

def execSoftReset (h : Hdr) (p : List Byte) (s : State) : Host.Outcome State Fault Refusal :=
  .next (receive opSoftReset h p s)

end Sys2Proof.Machine
end

