-- ==== Sys2Proof/Machine/Timers.lean ====
section
/-!
DEFINITION. System time, the general timers and their commands (17).
-/
namespace Sys2Proof.Machine

/-! ### One tick of a timer (R400 to R403) -/

/-- M = PERIOD + 1 (R402). -/
def Timer.modulus (t : Timer) : Nat := t.period + 1

/-- The distance from the compare to the count, modulo M (R402). -/
def Timer.distance (t : Timer) : Nat := (t.count + t.modulus - t.compare % t.modulus) % t.modulus

/-- The compare is at or behind the count, within half the range (R402). -/
def Timer.due (t : Timer) : Bool := t.armed && t.distance < t.modulus / 2

/-- The effect of a match on the timer (R403, R405). -/
def Timer.matched (t : Timer) : Timer :=
  let late := t.distance ≠ 0
  { t with
    armed := if t.interval = 0 then false else t.armed
    compare := if t.interval = 0 then t.compare else (t.compare + t.interval) % t.modulus
    catchup := if late then satAdd 65535 t.catchup 1 else t.catchup
    epMatches := t.epMatches + 1
    epLate := if late then t.epLate + 1 else t.epLate }

/-- The timer counts at all; on timer 0 the lower-overflow source acts as off (R400). -/
def Timer.counts (t : Timer) (n : Nat) : Bool := t.source == 1 || (t.source == 2 && n ≠ 0)

/-- The count moved by `k`: the new count and whether it passed PERIOD (R400, R407). A count that stands above PERIOD becomes 0 on the
next tick, whether or not the timer would have moved (R401). -/
def Timer.moved (t : Timer) (k : Nat) : Timer × Bool :=
  if t.count > t.period then ({ t with count := 0 }, true)
  else if t.count + k > t.period then ({ t with count := (t.count + k) % t.modulus }, true)
  else ({ t with count := t.count + k }, false)

/-- How far a timer counts in a tick: `k` core ticks at once (1, or 80 from LFRC, R407), or the overflow of its lower
neighbour; timer 0 has none (R400). -/
def Timer.amount (t : Timer) (n k : Nat) (below : Bool) : Nat :=
  if t.source == 1 then k else if t.source == 2 && n ≠ 0 && below then 1 else 0

/-- What a tick did to the timers from `n` up: the timers, and the overflow and match bits. -/
structure TimerTick where
  timers : List Timer
  ovf : List Bool
  hits : List Bool
deriving DecidableEq, Repr

/-- One tick of a run of timers, lowest first; `below` says that the neighbour below overflowed in this tick. -/
def tickTimers (k : Nat) : Nat → Bool → List Timer → TimerTick
  | _, _, [] => { timers := [], ovf := [], hits := [] }
  | n, below, t :: r =>
    let (t1, o) := if t.counts n then t.moved (t.amount n k below) else (t, false)
    let m := t1.due
    let t2 := if m then t1.matched else t1
    let rest := tickTimers k (n + 1) o r
    { timers := t2 :: rest.timers, ovf := o :: rest.ovf, hits := m :: rest.hits }

/-- The bits of a list of flags. -/
def maskOf (n : Nat) (l : List Bool) : BitVec n :=
  BitVec.ofNat n ((l.zipIdx).foldl (fun a x => if x.1 then a + 2 ^ x.2 else a) 0)

/-- Some timer counts core ticks, has a compare to judge, or stands above its period. -/
def timersActive (l : List Timer) : Bool := l.any fun t => t.source == 1 || t.armed || t.period < t.count

/-- A tick of all timers, with the flags of Table 17-7. -/
def Time.tickAll (y : Time) (k : Nat) : Time :=
  if timersActive y.timers then
    let r := tickTimers k 0 false y.timers
    { y with timers := r.timers, ovf := y.ovf ||| maskOf 16 r.ovf, match_ := y.match_ ||| maskOf 16 r.hits }
  else y

/-- `n` single ticks of all timers. -/
def Time.tickMany (y : Time) : Nat → Time
  | 0 => y
  | n + 1 => if timersActive y.timers then (y.tickAll 1).tickMany n else y

/-- The time counters move by `k` ticks at once; `single` says that they are single core ticks, each of which
the timers judge (R398, R407). -/
def Time.forward (y : Time) (k : Nat) (single : Bool) : Time :=
  { (if single then y.tickMany k else y.tickAll k) with
    sysTime := (y.sysTime + k) % 2 ^ 64
    tick := y.tick + k }

/-- A match that a timer with WAKE_EN has just had, against the timers `before`, wakes the die from STANDBY when the timer wake is enabled
(R80, R405). -/
def State.timerWake (s : State) (before : List Timer) : State :=
  if (s.sys.power == .standby || s.sys.power == .serviceWake) && s.sys.wake.timer &&
      ((s.time.timers.zip before).any fun x => x.1.wakeEn && x.2.epMatches < x.1.epMatches) then
    s.modSys fun y => { y with wakeLatched := true }
  else s

/-! ### Rows of a single timer -/

def Time.timer (y : Time) (n : Nat) : Timer := getAt y.timers n Timer.reset

def Time.setTimer (y : Time) (n : Nat) (t : Timer) : Time := { y with timers := setAt y.timers n t }

/-- The timers count in the present state: the block's clock runs, or LFRC steps it (R407). -/
def State.timersRun (s : State) : Bool :=
  !s.sys.hibernate && (s.isReady .time || s.sys.power == .standby || s.time.lfrcStep)

/-- Timer `n` overflows in this tick: its count becomes 0, its OVF bit is set, the chain above advances in the same
tick, and the compares of the timers that moved are judged (R400, R402). -/
def Time.overflow (y : Time) (n : Nat) : Time :=
  let t := { y.timer n with count := 0 }
  let m := t.due
  let r := tickTimers 0 (n + 1) true (y.timers.drop (n + 1))
  { y with
    timers := y.timers.take n ++ (if m then t.matched else t) :: r.timers
    ovf := y.ovf ||| maskOf 16 (List.replicate n false ++ true :: r.ovf)
    match_ := y.match_ ||| maskOf 16 (List.replicate n false ++ m :: r.hits) }

def execTimerOverflow (timer : Nat) (s : State) : Host.Outcome State Fault Refusal :=
  let t := s.time.timer timer
  if s.timersRun && timer < s.time.timers.length && t.counts timer then
    .next ((s.modTime fun y => y.overflow timer).timerWake s.time.timers)
  else .next s

/-- The tick in which timer `n` matches: a compare that is ahead of a counting timer is reached on time (R402). -/
def Time.matchNow (y : Time) (n : Nat) : Time :=
  let t := y.timer n
  let t1 := if t.due then t else { t with count := t.compare % t.modulus }
  { y.setTimer n t1.matched with match_ := y.match_.putBit n true }

def execTimerMatch (timer : Nat) (s : State) : Host.Outcome State Fault Refusal :=
  let t := s.time.timer timer
  if s.timersRun && timer < s.time.timers.length && t.armed && (t.due || t.counts timer) then
    .next ((s.modTime fun y => y.matchNow timer).timerWake s.time.timers)
  else .next s

/-- EDGE selects this edge, and its new level has now held for the timer's FILTER (R406, Table 17-8). -/
def Timer.takes (t : Timer) (input : Nat) (rising : Bool) (held : Nat) : Bool :=
  t.source == 1 && t.capSel.toNat == input && (if rising then t.edge.getLsbD 0 else t.edge.getLsbD 1) && t.filter.toNat == held

/-- A capture at system time `now`: the count less the synchroniser's 2 ticks and less FILTER, or a drop on a full queue; edges within
one tick give one capture (R406). -/
def Timer.capture (t : Timer) (now : Nat) : Timer :=
  if t.capturedAt = some now then t
  else if t.captures.length < 4 then
    { t with
      captures := t.captures ++ [(t.count + 2 * t.modulus - (2 + t.filter.toNat) % t.modulus) % t.modulus]
      capturedAt := some now }
  else { t with capOvf := satAdd 255 t.capOvf 1, epDrops := t.epDrops + 1, capturedAt := some now }

/-- An input has held its new level for the edge's number of core ticks: the timers with that FILTER take it. Edges in STANDBY or in a
debug halt are neither stored nor counted (R406). -/
def execCaptureEdge (input : Nat) (edge : Edge) (s : State) : Host.Outcome State Fault Refusal :=
  if s.isReady .time && !s.time.lfrcStep && !s.time.debugHalt then
    .next (s.modTime fun y =>
      { y with timers := y.timers.map fun t => if t.takes input edge.rising edge.held then t.capture y.sysTime else t })
  else .next s

/-- STANDBY or a debug halt asks for LFRC stepping (R407); a service wake lies within STANDBY. -/
def State.stepsLfrc (s : State) : Bool :=
  s.sys.power == .standby || s.sys.power == .serviceWake || (s.time.debugHalt && (s.lc == .develop || s.lc == .ret))

/-- At an LFRC edge the counts switch to LFRC stepping where it is asked for, and back where it is not and CLK_CORE runs (R407). -/
def execLfrcStepSwitch (s : State) : Host.Outcome State Fault Refusal :=
  if s.sys.lfrcRun && !s.sys.held then
    .next (s.modTime fun y => { y with lfrcStep := s.stepsLfrc || (y.lfrcStep && s.sys.clk != .running) })
  else .next s

/-! ### Register forms (Tables 17-8 to 17-14) -/

/-- TIMERn_CTL. -/
def Timer.ctl (t : Timer) : Nat :=
  t.filter.toNat * 2 ^ 12 + t.edge.toNat * 2 ^ 10 + t.capSel.toNat * 2 ^ 7 + bit t.eventEn * 64 + bit t.wakeEn * 32
    + bit t.armed * 16 + t.source.toNat * 4

/-- A write of TIMERn_CTL; reserved bits ignore writes (R146). -/
def Timer.setCtl (t : Timer) (v : Nat) : Timer :=
  { t with
    filter := BitVec.ofNat 8 (v / 2 ^ 12)
    edge := BitVec.ofNat 2 (v / 2 ^ 10)
    capSel := BitVec.ofNat 3 (v / 2 ^ 7)
    eventEn := v.testBit 6
    wakeEn := v.testBit 5
    armed := v.testBit 4
    source := BitVec.ofNat 2 (v / 4) }

/-- TIMERn_CAPSTAT. -/
def Timer.capstat (t : Timer) : Nat := t.catchup * 2 ^ 16 + t.capOvf * 2 ^ 8 + t.captures.length

/-- PERIOD as stored: 0 is stored as 1 (R401). -/
def periodOf (v : Nat) : Nat := if v = 0 then 1 else v

/-- COMPARE as stored, with ARMED set (R402). -/
def Timer.setCompare (t : Timer) (v : Nat) : Timer := { t with compare := v % t.modulus, armed := true }

/-- The run of timers chained above timer `n` (R399, R400). -/
def chainAbove (l : List Timer) (n : Nat) : List Nat :=
  ((List.range l.length).filter (· > n)).takeWhile fun k => (getAt l k Timer.reset).source == 2

/-- A latching read of TIMERn_COUNT stores the counts of the chain above, each read anew (R399). -/
def Time.latchAbove (y : Time) (n : Nat) : Time :=
  { y with timers := (y.timers.zipIdx).map fun x =>
      if (chainAbove y.timers n).contains x.2 then { x.1 with latched := some x.1.count } else x.1 }

/-! ### Commands of Table 17-19 -/

/-- TIMER_CONFIG's checks (R414). -/
def checkTimerConfig (f : Flight) : Option Answer :=
  let p := f.payload
  firstOf
    [ needLength f 24,
      need (byteAt p 0 < 16 && zeroAt p 1 3) stBadParam,
      need (fieldAt p 4 4 < 2 ^ 20 && fieldAt p 4 4 % 4 == 0) stBadParam,
      need (fieldAt p 12 4 ≠ 0) stBadParam,
      need (fieldAt p 20 4 < (fieldAt p 12 4 + 1) / 2 && fieldAt p 20 4 < 2 ^ 31) stBadParam ]

/-- All five values in one core cycle, ARMED as the control word gives it (R414). -/
def Timer.config (t : Timer) (p : List Byte) : Timer :=
  { t.setCtl (fieldAt p 4 4) with
    count := fieldAt p 8 4
    period := fieldAt p 12 4
    compare := fieldAt p 16 4 % (fieldAt p 12 4 + 1)
    interval := fieldAt p 20 4 }

def opTimerConfig : OpSpec :=
  { code := 0x0B00, sched := .either, bcast := true, block := some .time
    check := fun _ f => checkTimerConfig f
    run := fun s f => okay (s.modTime fun y =>
      y.setTimer (byteAt f.payload 0) ((y.timer (byteAt f.payload 0)).config f.payload)) }

/-- TIMER_STATUS and TIMER_CAPTURES carry a timer number. -/
def checkTimerNumber (f : Flight) : Option Answer :=
  firstOf [needLength f 4, need (byteAt f.payload 0 < 16 && zeroAt f.payload 1 3) stBadParam]

/-- The 24 bytes of TIMER_STATUS. -/
def Timer.statusBytes (t : Timer) : List Byte :=
  le 4 t.ctl ++ le 4 t.count ++ le 4 t.period ++ le 4 t.compare ++ le 4 t.interval ++ le 4 t.capstat

def opTimerStatus : OpSpec :=
  { code := 0x0B01, sched := .unscheduled, bcast := false, block := some .time
    check := fun _ f => checkTimerNumber f
    run := fun s f => okayWith s (s.time.timer (byteAt f.payload 0)).statusBytes }

def opTimerCaptures : OpSpec :=
  { code := 0x0B02, sched := .unscheduled, bcast := false, block := some .time
    check := fun _ f => checkTimerNumber f
    run := fun s f =>
      let n := byteAt f.payload 0
      let t := s.time.timer n
      okayWith (s.modTime fun y => y.setTimer n { t with captures := [] })
        (le 1 t.captures.length ++ zeros 3 ++ (t.captures.map (le 4)).flatten) }

/-- WDG_WINDOW and WDG_STATUS (Tables 17-16, 17-18). -/
def Wdg.windowReg (w : Wdg) : Nat := w.closeTick * 2 ^ 16 + w.openTick

def Wdg.statusReg (w : Wdg) : Nat :=
  bit w.window.isSome * 16 + bit w.lockViol * 8 + bit w.locked * 4 + bit w.clkLfrc * 2 + bit w.clkLfrc

def opTimeRead : OpSpec :=
  { code := 0x0B03, sched := .unscheduled, bcast := false, block := some .time
    check := fun _ f => needLength f 0
    run := fun s _ => okayWith s
      (le 8 s.time.sysTime ++ le 4 s.time.epoch ++ le 4 s.time.tick ++ le 4 s.wdg.count ++ le 4 s.wdg.windowReg
        ++ le 4 s.wdg.statusReg) }

def execTimerConfig (h : Hdr) (p : List Byte) (s : State) : Host.Outcome State Fault Refusal :=
  .next (receive opTimerConfig h p s)

def execTimerStatus (h : Hdr) (p : List Byte) (s : State) : Host.Outcome State Fault Refusal :=
  .next (receive opTimerStatus h p s)

def execTimerCaptures (h : Hdr) (p : List Byte) (s : State) : Host.Outcome State Fault Refusal :=
  .next (receive opTimerCaptures h p s)

def execTimeRead (h : Hdr) (p : List Byte) (s : State) : Host.Outcome State Fault Refusal :=
  .next (receive opTimeRead h p s)

/-! ### At a boundary (R405) -/

/-- TIMER_EVENT of the epoch that closes, and the epoch's counts emptied. -/
def State.timerEvents (s : State) (closing : Nat) : State :=
  let s1 := (s.time.timers.zipIdx).foldl (fun s x =>
    if x.1.eventEn && (x.1.epMatches ≠ 0 || x.1.epDrops ≠ 0) then
      s.event 0x7FC0 (le 1 x.2 ++ zeros 1 ++ le 2 x.1.epDrops ++ le 4 x.1.epMatches ++ le 4 x.1.epLate ++ le 4 closing)
    else s) s
  s1.modTime fun y =>
    { y with timers := y.timers.map fun t => { t with epMatches := 0, epLate := 0, epDrops := 0 } }

end Sys2Proof.Machine
end

