-- ==== Sys2Proof/Machine/Watchdog.lean ====
section
/-!
DEFINITION. The window watchdog and the LFRC clock monitor (17).
-/
namespace Sys2Proof.Machine

/-- The key of WDG_SERVICE (R409). -/
def wdgKey : Nat := 0xC3A55A3C

/-- Core ticks, or LFRC periods times 80, of one watchdog tick (R408). -/
def wdgTickLength : Nat := 40000

/-- The detail bytes of a watchdog record (R412). -/
def wdgDetail (s : State) (written : Nat) : List Byte :=
  le 2 s.wdg.count ++ le 2 s.wdg.openTick ++ le 2 s.wdg.closeTick ++ le 1 (bit s.wdg.clkLfrc)
    ++ le 1 s.geode.stage.code ++ le 4 written

/-- A watchdog reset: the record is written when it is triggered (R412). -/
def State.wdgReset (s : State) (cause code written : Nat) : State :=
  (s.recordFault code 0x03 (wdgDetail s written)).trigger cause

/-- Expiry (Table 17-2). -/
def State.wdgExpire (s : State) : State := s.wdgReset causeWdgExpire 0xD0 0

/-- An accepted service: the count and its prescaler restart and a pending window applies (R408, R410). -/
def Wdg.served (w : Wdg) : Wdg :=
  { w with
    count := 0
    prescale := 0
    openTick := match w.window with
      | some x => x.1
      | none => w.openTick
    closeTick := match w.window with
      | some x => x.2
      | none => w.closeTick
    window := none }

/-- The application core can write a register: it is neither stalled nor halted, and its clock runs. -/
def State.coreRuns (s : State) : Bool :=
  !s.sys.held && s.sys.clk == .running && s.eupefen && !s.geode.stalled && !s.time.debugHalt

/-- A write of the application core to WDG_SERVICE (Table 17-2). -/
def execWdgService (key : Nat) (s : State) : Host.Outcome State Fault Refusal :=
  if !s.coreRuns then .next s
  else if s.wdg.closeTick ≤ s.wdg.count then .next s.wdgExpire
  else if key ≠ wdgKey then .next (s.wdgReset causeWdgEarly 0xD3 key)
  else if s.wdg.count < s.wdg.openTick then .next (s.wdgReset causeWdgEarly 0xD1 0)
  else .next (s.modWdg Wdg.served)

/-- CLOSE_MAX (R410). -/
def State.wdgCloseMax (s : State) : Nat :=
  if s.lc == .develop && 1 ≤ s.wdg.devClose.toNat then 1250 * Nat.min s.wdg.devClose.toNat 32 else 500

/-- The window that a written value gives: CLOSE, then OPEN, then the service-wake margin (R410). -/
def wdgClamp (closeMax : Nat) (lfrc : Bool) (value : Nat) : Nat × Nat :=
  let c := Nat.max 2 (Nat.min closeMax (value / 2 ^ 16))
  let o := Nat.max 1 (Nat.min (c - 1) (value % 2 ^ 16))
  (if lfrc then Nat.min o (c - 30) else o, c)

/-- Eupefen's write to WDG_WINDOW: the first locks the register, later ones set LOCK_VIOL (R410). -/
def execWdgWindowWrite (value : Nat) (s : State) : Host.Outcome State Fault Refusal :=
  if !s.coreRuns then .next s
  else if s.wdg.locked then .next (s.modWdg fun w => { w with lockViol := true })
  else .next (s.modWdg fun w =>
    { w with locked := true, window := some (wdgClamp s.wdgCloseMax w.clkLfrc value) })

/-- The watchdog counts: with LFRC selected always while LFRC runs, with CLK_CORE selected while the clocks run
(R84, R408). -/
def State.wdgRuns (s : State) : Bool :=
  !s.sys.held &&
  if s.wdg.clkLfrc then s.sys.lfrcRun else s.sys.clk == .running

/-- The count reaches CLOSE without a service (R409); one that stands at CLOSE has expired already. -/
def execWdgExpire (s : State) : Host.Outcome State Fault Refusal :=
  if s.wdgRuns && s.wdg.count < s.wdg.closeTick then .next ((s.modWdg fun w => { w with count := w.closeTick, prescale := 0 }).wdgExpire) else .next s

/-- The count moves by `k` core ticks and stops at CLOSE. -/
def Wdg.advance (w : Wdg) (k : Nat) : Wdg :=
  { w with
    count := Nat.min w.closeTick (w.count + (w.prescale + k) / wdgTickLength)
    prescale := (w.prescale + k) % wdgTickLength }

/-- Time passes for the watchdog; reaching CLOSE is expiry. -/
def State.wdgAdvance (s : State) (k : Nat) : State :=
  if s.wdgRuns && s.wdg.count < s.wdg.closeTick then
    let s1 := s.modWdg fun w => w.advance k
    if s1.wdg.count < s1.wdg.closeTick then s1 else s1.wdgExpire
  else s

/-- With LFRC selected the clock monitor starts a WDG reset when LFRC stalls (R411). With CLK_CORE selected there is
no monitor, and the stall has no effect here. -/
def execWdgClkmon (s : State) : Host.Outcome State Fault Refusal :=
  if s.wdg.clkLfrc && s.powered then
    .next (((s.modWdg fun w => { w with lfrcStalled := true }).modSys fun y => { y with lfrcRun := false }).wdgReset
      causeWdgClkmon 0xD2 0)
  else .next s

/-- LFRC has run again for 100 us: the held reset may end (R411). -/
def execLfrcResume (s : State) : Host.Outcome State Fault Refusal :=
  if s.wdg.lfrcStalled && s.powered then
    .next ((s.modWdg fun w => { w with lfrcStalled := false }).modSys fun y => { y with lfrcRun := true })
  else .next s

end Sys2Proof.Machine
end

