-- ==== Sys2Proof/Machine/Clock.lean ====
section
/-!
DEFINITION. The passing of time: one core tick, or one LFRC period while the counts step from LFRC (R60, R398, R407).
-/
namespace Sys2Proof.Machine

/-- A crossing has `k` core ticks less to go, and is over after its last (R68). -/
def crossed {α : Type} (k : Nat) : Option (Nat × α) → Option (Nat × α)
  | some (left, old) => if left ≤ k then none else some (left - k, old)
  | none => none

/-- The crossings to the always-on domain go on. -/
def Sys.cross (y : Sys) (k : Nat) : Sys := { y with crossSeen := crossed k y.crossSeen, crossWake := crossed k y.crossWake }

/-- The transmitters send. In STANDBY and in a service wake the Slolos block stands still (R82, R84), except for the wake burst that a
worker's wake receiver passes on (R335). -/
def State.linkAdvance (s : State) (k : Nat) : State :=
  if s.sys.clk == .running && s.sys.power != .serviceWake then s.modSlolos fun y => y.transmit k
  else s.modSlolos fun y => y.passBurst k

/-- `k` core ticks pass for every block that counts time; `single` says that each tick is judged alone. -/
def State.pass (s : State) (k : Nat) (single : Bool) : State :=
  (((((s.modTime fun y => y.forward k single).timerWake s.time.timers).wdgAdvance k).memiAdvance k).linkAdvance k).repliesGone.modSys
    fun y => y.cross k

/-- In STANDBY a boundary passes without its actions: the epoch number counts on and the promise words move on with it, none of their
conditions arising in an epoch that lies within STANDBY (R82, R160, R163, log 15). -/
def Time.wrap (y : Time) (standalone : Bool) : Time :=
  if y.length * Config.ticksPerUs ≤ y.tick then
    { y with tick := y.tick - y.length * Config.ticksPerUs, epoch := (y.epoch + 1) % 2 ^ 32, prevLength := y.length, wordNow := 0,
             wordLast := y.wordNow, domain := if standalone then y.wordNow else y.wordLast }
  else y

/-- The always-on wake timer counts one LFRC period; its last one is latched as a wake (R80). -/
def State.wakeCount (s : State) : State :=
  if s.sys.wakeLeft = 0 then s
  else s.modSys fun y => { y with wakeLeft := y.wakeLeft - 1, wakeLatched := y.wakeLatched || y.wakeLeft == 1 }

/-- One LFRC period of a low-power state, or of the lock that ends a STANDBY: the counts advance from LFRC; in HIBERNATE only the
always-on domain does (R82, R84, R85). -/
def State.sleepTick (s : State) : State :=
  if !s.sys.lfrcRun then s
  else if !s.sys.hibernate && s.time.lfrcStep then ((s.pass 80 false).modTime fun y => if s.isWorker then y else y.wrap s.isStandalone).wakeCount
  else (s.wdgAdvance 80).wakeCount

/-- What a step does when no command waits: time passes by one core tick, or by one LFRC period of 80 core ticks while
the counts step from LFRC; while a PLL lock is awaited after a reset only a watchdog on LFRC counts (R62). A tick that would reach a boundary waits for EPOCH_BOUNDARY; a worker's boundaries come
from markers, and its count goes on (log 14). -/
def State.idle (s : State) : State :=
  if s.sys.held then s
  else if s.asleep || (s.sys.waking && s.sys.clk != .running) then s.sleepTick
  else if s.sys.clk != .running then s.wdgAdvance 80
  else
    let k := if s.time.lfrcStep then 80 else 1
    if !s.isWorker && s.epochTicks ≤ s.time.tick + k then s else s.pass k (!s.time.lfrcStep)

end Sys2Proof.Machine
end

