-- ==== Sys2Proof/Machine/Crypto.lean ====
section
/-!
DEFINITION. SHA-256 (FIPS 180-4) and the verification of ECDSA P-256 signatures (FIPS 186-5), which R92 names.
-/
namespace Sys2Proof.Machine

/-! ### SHA-256 -/

/-- The sixty-four round constants, eight to a row, the first of a row in its highest bits. -/
def shaRows : List Nat :=
  [0x428a2f9871374491b5c0fbcfe9b5dba53956c25b59f111f1923f82a4ab1c5ed5,
   0xd807aa9812835b01243185be550c7dc372be5d7480deb1fe9bdc06a7c19bf174,
   0xe49b69c1efbe47860fc19dc6240ca1cc2de92c6f4a7484aa5cb0a9dc76f988da,
   0x983e5152a831c66db00327c8bf597fc7c6e00bf3d5a7914706ca635114292967,
   0x27b70a852e1b21384d2c6dfc53380d13650a7354766a0abb81c2c92e92722c85,
   0xa2bfe8a1a81a664bc24b8b70c76c51a3d192e819d6990624f40e3585106aa070,
   0x19a4c1161e376c082748774c34b0bcb5391c0cb34ed8aa4a5b9cca4f682e6ff3,
   0x748f82ee78a5636f84c878148cc7020890befffaa4506cebbef9a3f7c67178f2]

/-- The eight words of a row. -/
def shaRow (x : Nat) : List Word := (be 32 x |> fun l => (List.range 8).map fun i => BitVec.ofNat 32 (beNat (slice l (4 * i) 4)))

/-- The chaining value before the first block. -/
def shaStart : List Word := shaRow 0x6a09e667bb67ae853c6ef372a54ff53a510e527f9b05688c1f83d9ab5be0cd19

/-- A word rotated right by each of three distances, the results added without carries. -/
def spin (x : Word) (i j k : Nat) : Word := x.rotateRight i ^^^ x.rotateRight j ^^^ x.rotateRight k

/-- The same with a shift in the place of the last rotation. -/
def skew (x : Word) (i j k : Nat) : Word := x.rotateRight i ^^^ x.rotateRight j ^^^ (x >>> k)

/-- The chaining value and the window of the sixteen message words to come. -/
abbrev ShaState := List Word × List Word

/-- One round: the window gives its first word and takes the word sixteen places on. -/
def shaStep (s : ShaState) (key : Word) : ShaState :=
  match s.1, s.2 with
  | [a, b, c, d, e, f, g, h], w :: win =>
    let x := h + spin e 6 11 25 + (g ^^^ (e &&& (f ^^^ g))) + key + w
    let y := spin a 2 13 22 + ((a &&& (b ||| c)) ||| (b &&& c))
    ([x + y, a, b, c, d + x, e, f, g],
     win ++ [w + skew (getAt win 0 0) 7 18 3 + getAt win 8 0 + skew (getAt win 13 0) 17 19 10])
  | v, win => (v, win)

/-- A block of 64 bytes: 64 rounds over its words, most significant byte first, added to the chaining value. -/
def shaBlock (v : List Word) (b : List Byte) : List Word :=
  let win := (List.range 16).map fun i => BitVec.ofNat 32 (beNat (slice b (4 * i) 4))
  List.zipWith (· + ·) v ((shaRows.flatMap shaRow).foldl shaStep (v, win)).1

/-- `n` blocks, one after the other. -/
def shaBlocks : Nat → List Word → List Byte → List Word
  | 0, v, _ => v
  | n + 1, v, l => shaBlocks n (shaBlock v (l.take 64)) (l.drop 64)

/-- The message with its padding: a set bit, zeros, and the length in bits over the last eight bytes. -/
def shaPad (l : List Byte) : List Byte :=
  l ++ [0x80] ++ zeros ((119 - l.length % 64) % 64) ++ be 8 (8 * l.length)

/-- SHA-256. -/
def sha256 (l : List Byte) : List Byte :=
  let p := shaPad l
  (shaBlocks (p.length / 64) shaStart p).flatMap fun w => be 4 w.toNat

/-! ### P-256 -/

/-- The field prime, the order of the base point, and the coefficient b; the coefficient a is -3. -/
def ecP : Nat := 0xffffffff00000001000000000000000000000000ffffffffffffffffffffffff
def ecN : Nat := 0xffffffff00000000ffffffffffffffffbce6faada7179e84f3b9cac2fc632551
def ecB : Nat := 0x5ac635d8aa3a93e7b3ebbd55769886bc651d06b0cc53b0f63bce3c3e27d2604b
/-- The base point. -/
def ecG : Nat × Nat :=
  (0x6b17d1f2e12c4247f8bce6e563a440f277037d812deb33a0f4a13945d898c296,
   0x4fe342e2fe1a7f9b8ee7eb4a7c0f9e162bce33576b315ececbb6406837bf51f5)

/-- A power modulo `m`, over `k` bits of the exponent. -/
def powMod (m b : Nat) : Nat → Nat → Nat
  | 0, _ => 1
  | k + 1, e =>
    let h := powMod m b k (e / 2)
    if e % 2 = 1 then h * h % m * b % m else h * h % m

/-- The inverse modulo a prime of 256 bits. -/
def invMod (m x : Nat) : Nat := powMod m (x % m) 256 (m - 2)

/-- A difference modulo `m`. -/
def subMod (m a b : Nat) : Nat := (a + m - b % m) % m

/-- The sum of two points; none is the point at infinity. -/
def ecAdd : Option (Nat × Nat) → Option (Nat × Nat) → Option (Nat × Nat)
  | none, q => q
  | p, none => p
  | some (x1, y1), some (x2, y2) =>
    if x1 = x2 && (y1 + y2) % ecP = 0 then none
    else
      let l := if x1 = x2 then (3 * x1 * x1 + ecP - 3) * invMod ecP (2 * y1) % ecP
        else subMod ecP y2 y1 * invMod ecP (subMod ecP x2 x1) % ecP
      let x3 := subMod ecP (l * l) (x1 + x2)
      some (x3, subMod ecP (l * subMod ecP x1 x3) y1)

/-- A multiple of a point, over `k` bits of the factor. -/
def ecMul (p : Nat × Nat) : Nat → Nat → Option (Nat × Nat)
  | 0, _ => none
  | k + 1, e =>
    let h := ecMul p k (e / 2)
    if e % 2 = 1 then ecAdd (ecAdd h h) (some p) else ecAdd h h

/-- The point lies on the curve. -/
def ecOnCurve (x y : Nat) : Bool := x < ecP && y < ecP && y * y % ecP == (x * x * x + (ecP - 3) * x + ecB) % ecP

/-- An ECDSA P-256 signature over a message: a key of 64 bytes, X then Y, and a signature of 64 bytes, r then s (R92). -/
def ecdsaVerify (key msg sig : List Byte) : Bool :=
  let x := beNat (key.take 32)
  let y := beNat (slice key 32 32)
  let r := beNat (sig.take 32)
  let s := beNat (slice sig 32 32)
  let w := invMod ecN s
  let u1 := beNat (sha256 msg) * w % ecN
  let u2 := r * w % ecN
  ecOnCurve x y && 0 < r && r < ecN && 0 < s && s < ecN &&
    (match ecAdd (ecMul ecG 256 u1) (ecMul (x, y) 256 u2) with
      | some q => q.1 % ecN == r
      | none => false)

/-- The key hashes to the slot's hash and signs the message (R92). -/
def signedBy (slotHash key msg sig : List Byte) : Bool := sha256 key == slotHash && ecdsaVerify key msg sig

/-- The points with an abscissa: none, or two. -/
def ecLift (x : Nat) : List (Nat × Nat) :=
  let y := powMod ecP ((x * x * x + (ecP - 3) * x + ecB) % ecP) 256 ((ecP + 1) / 4)
  if ecOnCurve x y then [(x, y), (x, ecP - y)] else []

/-- The keys that a signature over a message verifies under. -/
def ecdsaKeys (msg sig : List Byte) : List (List Byte) :=
  let r := beNat (sig.take 32)
  let s := beNat (slice sig 32 32)
  let w := invMod ecN r
  let u1 := subMod ecN 0 (beNat (sha256 msg) * w % ecN)
  let u2 := s * w % ecN
  ((ecLift r ++ ecLift (r + ecN)).filterMap fun p => ecAdd (ecMul ecG 256 u1) (ecMul p 256 u2)).map fun q =>
    be 32 q.1 ++ be 32 q.2

/-- A signature by the key that a slot's hash names, where the signed object does not carry the key (R115): the keys that it
verifies under are compared with the hash. -/
def signedByHash (slotHash msg sig : List Byte) : Bool := (ecdsaKeys msg sig).any fun k => signedBy slotHash k msg sig

end Sys2Proof.Machine
end

