-- ==== Sys2Proof/Machine/Coupler.lean ====
section
/-!
DEFINITION. The Clasp couplers: attach, messages, contracts, jumper supply, detaching, and the commands of Table 14-12
(14).
-/
namespace Sys2Proof.Machine

/-- The block hears and acts: ready, on a manager or standalone SL1663-MQ. -/
def State.claspOn (s : State) (i : Nat) : Bool := s.isReady .clasp && !s.otp.partWq && !s.isWorker && i < 2

/-! ### Sense lines and attach (R340 to R344) -/

/-- The band of a code: 0 LOW, 1 MID, 2 HIGH (Table 14-9). -/
def Band.ofCode : Nat → Band
  | 0 => .low | 1 => .mid | _ => .high

def Band.code : Band → Nat
  | .low => 0 | .mid => 1 | .high => 2

/-- One line reads MID, and both do. -/
def Port.oneMid (p : Port) : Bool := (p.bandA == .mid) != (p.bandB == .mid)
def Port.bothMid (p : Port) : Bool := p.bandA == .mid && p.bandB == .mid
/-- Some line reads MID. -/
def Port.someMid (p : Port) : Bool := p.bandA == .mid || p.bandB == .mid
/-- The active line reads MID. -/
def Port.activeMid (p : Port) : Bool := if p.endB then p.bandB == .mid else p.bandA == .mid

/-- A port returns to UNATTACHED. -/
def State.portRest (s : State) (i cause : Nat) : State :=
  (s.setPort i .unattached cause).modPort i fun p =>
    { p with spent := false, fromTry := false, term := p.restTerm, halfAt := s.time.sysTime, exporter := false, released := false, out := none,
             queue := [], answered := none, answerState := none, conflict := p.bothMid }

/-- A sense input changes band; MID lost in ATTACH_WAIT ends the wait. The comparators act while the block is ready (R340). -/
def execClaspSenseChange (port : Nat) (lineB : Bool) (band : Nat) (s : State) : Host.Outcome State Fault Refusal :=
  let s1 := s.modPort port fun p =>
    if lineB then { p with bandB := Band.ofCode band } else { p with bandA := Band.ofCode band }
  let p := s1.port port
  if !s.claspOn port then .next s1
  else if p.mode == .unattached then .next (s1.modPort port fun p => { p with conflict := p.bothMid })
  else if p.mode == .attachWait && (s.port port).someMid && !p.someMid then .next (s1.portRest port 0)
  else .next s1

/-- The GPIO that drives the jumper supply makes the port capable where the record says so (Table 14-2). -/
def Port.capable (p : Port) : Bool := p.flag 1

/-- The link voltage range and current that an exporter offers: minimum, maximum, current (R349). -/
def State.exportOffer (s : State) (i : Nat) : Option (Nat × Nat × Nat) :=
  let p := s.port i
  let c := s.chan (tieOf i)
  if !(p.flag 2 && c.enabled) then none
  else match s.path.holder with
    | .none => none
    | .lanes => some (s.path.linkTarget * 99 / 100, s.path.linkTarget * 101 / 100, c.prof 0x2C 4)
    | .source =>
      match s.qualifiedSources.head? with
      | some k => some ((s.chan k).prof 0x30 4, (s.chan k).prof 0x34 4, c.prof 0x2C 4)
      | none => none

/-- The CAPS payload (Table 14-6). -/
def State.capsPayload (s : State) (i : Nat) (o : Nat × Nat × Nat) : List Byte :=
  let v := s.linkVolts.getD (Config.openInt 3 [i, s.time.epoch]).toNat
  le 4 v ++ le 4 o.1 ++ le 4 o.2.1 ++ le 4 o.2.2 ++ le 1 50
    ++ le 1 (bit (s.path.holder == .lanes) + 2 * bit (s.port i).capable)

/-- A CAPS message is on its way already. -/
def Port.capsWaiting (p : Port) : Bool :=
  (p.out.any fun o => o.msg.type == msgCaps) || p.queue.any fun m => m.type == msgCaps

/-- An exporter sends CAPS where it may export, and where `always` or a field has changed (R349). -/
def State.sendCaps (s : State) (i : Nat) (always : Bool) : State :=
  match s.exportOffer i with
  | none => s
  | some o =>
    let b := s.capsPayload i o
    let p := s.port i
    if !always && (b == p.capsSent || p.capsWaiting) then s
    else (s.portSend i msgCaps b).modPort i fun p => { p with capsSent := b }

/-- A port attaches: roles, terminations, an empty conversation, the supply and CAPS (R349, R354). -/
def State.attach (s : State) (i : Nat) (source : Bool) : State :=
  let s1 := (s.setPort i (if source then .attachedSource else .attachedSink) 0).modPort i fun p =>
    { p with
      exporter := source, term := if source then .source else .sink, out := none, queue := [], seqNo := 0, answered := none,
      answerState := none, entersOnSend := false, silent := false, caps := none, capsSent := [], capsSinceHold := false,
      grant := none, suspended := false, request := none, swap := .none }
  if source then (if (s1.port i).capable then s1.setJs i true false else s1).sendCaps i true else s1

/-- Table 14-4. -/
def State.attachOutcome (s : State) (i : Nat) : State :=
  let p := s.port i
  match p.pref, p.term with
  | 0, _ => s.attach i true
  | 1, _ => s.attach i false
  | 2, .source => s.attach i true
  | 2, _ => (s.setPort i .trySource 0).modPort i fun p => { p with term := .source }
  | _, .sink => s.attach i false
  | _, _ =>
    if p.spent then s.attach i true
    else (s.setPort i .tryWaitSink 0).modPort i fun p => { p with term := .sink, fromTry := false }

/-- MID has held on one line: 1 ms in UNATTACHED, 20 ms in the waiting states (R343). -/
def execClaspAttachTimer (port : Nat) (s : State) : Host.Outcome State Fault Refusal :=
  let p := s.port port
  if !s.claspOn port || !p.enabled || !p.oneMid then .next s
  else
    let s1 := s.modPort port fun p => { p with endB := p.bandB == .mid }
    match p.mode with
    | .unattached => .next (if p.endConflict then s else s1.setPort port .attachWait 0)
    | .attachWait => .next (s1.attachOutcome port)
    | .trySource => .next (s1.attach port true)
    | .tryWaitSink => .next (s1.attach port false)
    | _ => .next s

/-- The half of a DUAL port's toggling [ticks]: 40 + (H mod 41) ms (R344), H being the hash of R180 over the DIE_ID and 4 or 5. -/
def State.toggleHalf (s : State) (i : Nat) : Nat :=
  (40 + crc32c (s.otp.dieId ++ le 1 (4 + i)) % 41) * 1000 * Config.ticksPerUs

/-- A toggle half of a DUAL port ends (R344). -/
def execClaspToggle (port : Nat) (s : State) : Host.Outcome State Fault Refusal :=
  let p := s.port port
  if s.claspOn port && p.enabled && p.mode == .unattached && 2 ≤ p.pref && p.halfAt + s.toggleHalf port ≤ s.time.sysTime then
    .next (s.modPort port fun p => { p with term := if p.term == .source then .sink else .source, halfAt := s.time.sysTime })
  else .next s

/-- TRY_SOURCE or TRY_WAIT_SINK ends without a partner (R344). -/
def execClaspTryTimeout (port : Nat) (s : State) : Host.Outcome State Fault Refusal :=
  let p := s.port port
  if !s.claspOn port then .next s
  else match p.mode with
  | .trySource => .next ((s.setPort port .tryWaitSink 0).modPort port fun p => { p with term := .sink, fromTry := true })
  | .tryWaitSink =>
    if p.fromTry then .next (s.portRest port 0)
    else .next ((s.setPort port .attachWait 0).modPort port fun p => { p with term := .source, spent := true })
  | _ => .next s

/-! ### Detaching (R356, R357) -/

/-- In DETACHED_RECOVERY the lines are released once the tie reads open; a tie that is open already releases them. -/
def State.releaseLines (s : State) (i : Nat) : State :=
  if (s.chan (tieOf i)).fb || (s.chan (tieOf i)).state.driven then s
  else s.modPort i fun p => { p with term := .opened, released := true }

/-- The port recovers, and takes its record's preference or the one given. -/
def State.recover (s : State) (i cause : Nat) (pref : Option Nat) : State :=
  ((s.portRecover i cause).modPort i fun p => { p with pref := pref.getD (p.prof 1 1) }).releaseLines i

/-- DETACH is sent, and the port recovers (R356). -/
def State.portDetach (s : State) (i reason cause : Nat) (pref : Option Nat) : State :=
  ((s.modPort i fun p => { p with out := none, queue := [] }).portSend i msgDetach (le 1 reason)).recover i cause pref

/-- The detail of a CLASP_PULLED record (R357). -/
def pulledDetail (s : State) (i : Nat) : List Byte :=
  le 1 i ++ le 1 (s.port i).mode.code ++ le 1 (s.chan (tieOf i)).state.code ++ zeros 1 ++ le 4 (s.port i).transEpoch

/-- The active line has left MID for the detach filter and no DETACH announced it (R345, R357). -/
def execClaspDetachDetected (port : Nat) (s : State) : Host.Outcome State Fault Refusal :=
  let p := s.port port
  if !s.claspOn port || !p.mode.attached || p.activeMid then .next s
  else
    let s1 := s.modClasp fun c => { c with pulled := satAdd 255 c.pulled 1 }
    let s2 :=
      if p.mode == .transition then
        (s1.recordClass 0x19 (legBit port) 0 0x0A (pulledDetail s port)).tiePulled (tieOf port)
      else if (s.chan (tieOf port)).state.driven then s1.setChan (tieOf port) .opening 0
      else s1
    .next ((s2.modPort port fun p => { p with out := none, queue := [] }).recover port 1 none)

/-- 200 ms of released lines have passed (R356). -/
def execClaspRecoveryEnd (port : Nat) (s : State) : Host.Outcome State Fault Refusal :=
  if (s.port port).mode == .recovery && (s.port port).released then .next (s.portRest port 0) else .next s

/-! ### The contract (R349, R350) -/

/-- A contract is granted: the port enters TRANSITION (R349); a tie that is CLOSED already reports at once (R350). -/
def State.enterTransition (s : State) (i granted : Nat) : State :=
  let s1 := (s.setPort i .transition 0).modPort i fun p =>
    { p with grant := some granted, suspended := false, transEpoch := s.time.epoch, readySent := false, wanted := p.exporter }
  let s2 := s1.contractEvent i 1 0 (s1.tieVolts i)
  if (s2.chan (tieOf i)).state == .closed then s2.tieClosed (tieOf i) else s2

/-- Two ranges overlap. -/
def overlap (a b c d : Nat) : Bool := a ≤ d && c ≤ b

/-- The REQUEST that an importer would send: the host's, or the record's where REQUEST is automatic. -/
def Port.requestBody (p : Port) : Option (List Byte) :=
  match p.request with
  | some r => some r
  | none =>
    if p.flag 3 then some (le 4 (p.prof 4 4) ++ le 4 (p.prof 8 4) ++ le 4 (p.prof 0xC 4) ++ le 1 (p.prof 0x10 1) ++ zeros 1)
    else none

/-- The partner's offer overlaps this port's acceptable range (R349). -/
def Port.acceptsCaps (p : Port) (caps : List Byte) : Bool :=
  match p.requestBody with
  | some r => overlap (fieldAt caps 4 4) (fieldAt caps 8 4) (fieldAt r 4 4) (fieldAt r 8 4)
  | none => overlap (fieldAt caps 4 4) (fieldAt caps 8 4) (p.prof 8 4) (p.prof 0xC 4)

/-- An importer sends its REQUEST where it has an offer that fits, outside TRANSITION (R349, R352). -/
def State.sendRequest (s : State) (i : Nat) : State :=
  let p := s.port i
  if p.exporter || !(p.mode == .attachedSink || p.mode == .hold) then s
  else match p.requestBody, p.caps with
    | some r, some c => if p.acceptsCaps c then (s.portSend i msgRequest r).modPort i fun p => { p with request := some r } else s
    | _, _ => s

/-! ### Messages (R347, R348, Table 14-6) -/

/-- An answer to a message: its type, its payload, and whether its leaving enters TRANSITION. -/
structure ClaspAnswer where
  type : Nat
  payload : List Byte
  enters : Bool
deriving DecidableEq, Repr

def acceptMsg : ClaspAnswer := { type := msgAccept, payload := [], enters := false }
def rejectMsg (reason : Nat) : ClaspAnswer := { type := msgReject, payload := le 1 reason, enters := false }

/-- The port hands over an answer (R348). -/
def State.putAnswer (s : State) (i seqNo : Nat) (a : ClaspAnswer) : State :=
  s.modPort i fun p =>
    { p with
      seqNo := nextSeqNo p.seqNo
      answered := some { type := a.type, seqNo := nextSeqNo p.seqNo, answers := seqNo, payload := a.payload }
      answerState := some .waiting
      entersOnSend := a.enters }

/-- The payload length of a type (Table 14-6). -/
def claspLength (type len : Nat) : Bool :=
  if type = 1 then len == 18 else if type = 2 then len == 14 else if type = 3 then len == 0 || len == 4
  else if type = 6 then len == 0 else len == 1

/-- A message that is no answer reaches a port: end conflict, a repeat, or its handling (R341, R348, R353). -/
def State.claspRequest (s : State) (i : Nat) (fromB : Bool) (type seqNo : Nat) (payload : List Byte)
    (act : State → State × Option ClaspAnswer) : State :=
  let p := s.port i
  if !s.claspOn i || !(p.mode.attached || p.mode == .recovery) then s
  else if !claspLength type payload.length || seqNo = 0 then s.modClasp fun c => { c with badMsg := satAdd 255 c.badMsg 1 }
  else if p.mode.attached && fromB == p.endB then
    (s.portDetach i 3 3 none).modPort i fun p => { p with endConflict := true }
  else
    let s1 := s.modPort i fun p => { p with silent := false }
    if p.answered.any fun a => a.answers == seqNo then s1.modPort i fun p => { p with answerState := some .waiting }
    else match act s1 with
      | (s2, some a) => s2.putAnswer i seqNo a
      | (s2, none) => s2

/-- An importer hears of a supply, or of none (R354). -/
def State.heardSupply (s : State) (i : Nat) (capable : Bool) : State :=
  let p := s.port i
  if p.js || p.jsPartner || p.swap != .none then s
  else if capable then s.setJs i false true
  else if p.capable then s.setJs i true false
  else s

/-- CAPS reaches an importer (R349). -/
def State.onCaps (s : State) (i : Nat) (payload : List Byte) : State × Option ClaspAnswer :=
  let p := s.port i
  if !p.mode.attached then (s, none)
  else if p.exporter then (s, some (rejectMsg 4))
  else
    let s1 := (s.modPort i fun p => { p with caps := some payload, capsSinceHold := p.mode == .hold }).heardSupply i
      (bitAt payload 17 1)
    if p.acceptsCaps payload then (s1.sendRequest i, some acceptMsg) else (s1, some (rejectMsg 1))

def execCaps (port : Nat) (fromB : Bool) (seqNo answers : Nat) (payload : List Byte) (s : State) :
    Host.Outcome State Fault Refusal :=
  if answers ≠ 0 then .next s
  else .next (s.claspRequest port fromB msgCaps seqNo payload fun s => s.onCaps port payload)

/-- This port's own HOLD has not been answered. -/
def Port.holdOut (p : Port) : Bool := (p.out.any fun o => o.msg.type == msgHold) || p.queue.any fun m => m.type == msgHold

/-- REQUEST reaches an exporter (R349). -/
def State.onRequest (s : State) (i : Nat) (payload : List Byte) : State × Option ClaspAnswer :=
  let p := s.port i
  if !p.mode.attached then (s, none)
  else if !p.exporter then (s, some (rejectMsg 4))
  else if p.mode == .transition || p.holdOut then (s, some (rejectMsg 3))
  else match s.exportOffer i with
    | none => (s, some (rejectMsg 4))
    | some o =>
      let g := Nat.min (fieldAt payload 0 4) o.2.2
      if g = 0 then (s, some (rejectMsg 2))
      else if !overlap o.1 o.2.1 (fieldAt payload 4 4) (fieldAt payload 8 4) then (s, some (rejectMsg 1))
      else (s.modPort i fun p => { p with slew := Nat.min 50 (byteAt payload 12) },
            some { type := msgAccept, payload := le 4 g, enters := true })

def execRequest (port : Nat) (fromB : Bool) (seqNo answers : Nat) (payload : List Byte) (s : State) :
    Host.Outcome State Fault Refusal :=
  if answers ≠ 0 then .next s
  else .next (s.claspRequest port fromB msgRequest seqNo payload fun s => s.onRequest port payload)

/-- READY ends a swap step or is answered in a transition (R350, R354). -/
def State.onReady (s : State) (i : Nat) : State × Option ClaspAnswer :=
  let p := s.port i
  if !p.mode.attached then (s, none)
  else if p.swap == .handing then
    ((s.setJs i false true).modPort i fun p => { p with swap := .none }, some acceptMsg)
  else (s, some acceptMsg)

def execReady (port : Nat) (fromB : Bool) (seqNo answers : Nat) (payload : List Byte) (s : State) :
    Host.Outcome State Fault Refusal :=
  if answers ≠ 0 then .next s
  else .next (s.claspRequest port fromB msgReady seqNo payload fun s => s.onReady port)

/-- A port starts its side of a swap: the supplier hands over, the other one turns its supply on (R354). -/
def State.beginSwap (s : State) (i : Nat) : State :=
  if (s.port i).js then s.modPort i fun p => { p with swap := .handing }
  else if (s.port i).capable then (s.setJs i true (s.port i).jsPartner).modPort i fun p => { p with swap := .supplying }
  else s.modPort i fun p => { p with swap := .none }

/-- SWAP_JS reaches a port (R354, R355). -/
def State.onSwap (s : State) (i : Nat) : State × Option ClaspAnswer :=
  let p := s.port i
  let own := p.swap == .asked && p.out.any fun o => o.msg.type == msgSwapJs
  if !p.mode.attached then (s, none)
  else if p.mode == .transition then (s, some (rejectMsg 3))
  else if own && !p.endB then (s, none)
  else
    let s1 := if own then s.modPort i fun p => { p.advance with swap := .none } else s
    if (s1.port i).swap == .supplying || (s1.port i).swap == .handing then (s1, some (rejectMsg 3))
    else if !p.js && !p.capable then (s1, some (rejectMsg 5))
    else (s1.beginSwap i, some acceptMsg)

def execSwapJs (port : Nat) (fromB : Bool) (seqNo answers : Nat) (payload : List Byte) (s : State) :
    Host.Outcome State Fault Refusal :=
  if answers ≠ 0 then .next s
  else .next (s.claspRequest port fromB msgSwapJs seqNo payload fun s => s.onSwap port)

/-- HOLD reaches a port (R352). -/
def State.onHold (s : State) (i : Nat) : State × Option ClaspAnswer :=
  let p := s.port i
  if !p.mode.attached then (s, none)
  else if p.mode == .hold then (s, some acceptMsg)
  else
    let s1 := s.portHold i 0
    (if p.exporter then s1.sendCaps i true else s1, some acceptMsg)

def execHold (port : Nat) (fromB : Bool) (seqNo answers : Nat) (payload : List Byte) (s : State) :
    Host.Outcome State Fault Refusal :=
  if answers ≠ 0 then .next s
  else .next (s.claspRequest port fromB msgHold seqNo payload fun s => s.onHold port)

/-- DETACH reaches a port, which answers it and recovers; in DETACHED_RECOVERY it is only answered (R356, R358). -/
def State.onDetach (s : State) (i : Nat) : State × Option ClaspAnswer :=
  if (s.port i).mode == .recovery then (s, some acceptMsg)
  else ((s.modPort i fun p => { p with out := none, queue := [] }).recover i 0 none, some acceptMsg)

def execDetach (port : Nat) (fromB : Bool) (seqNo answers : Nat) (payload : List Byte) (s : State) :
    Host.Outcome State Fault Refusal :=
  if answers ≠ 0 then .next s
  else .next (s.claspRequest port fromB msgDetach seqNo payload fun s => s.onDetach port)

/-- The message in progress that an answer names: its type and payload. -/
def Port.answeredBy (p : Port) (answers : Nat) : Option ClaspMsg :=
  match p.out with
  | some o => if o.state == .sent && o.msg.seqNo == answers then some o.msg else none
  | none => none

/-- READY has been answered: this end is the only supplier where it ended a swap (R354); else the transition ends, and an exporter that
enters ATTACHED_SOURCE sends CAPS (R349, R350). -/
def State.readyAnswered (s : State) (i seqNo : Nat) : State :=
  let p := s.port i
  if p.swap == .supplying && p.swapReady = seqNo then (s.setJs i true false).modPort i fun p => { p with swap := .none, swapReady := 0 }
  else if p.mode == .transition && p.readySent then
    if p.exporter then
      ((s.setPort i .attachedSource 0).modPort i fun p => { p with readySent := false }).sendCaps i true
    else (s.setPort i .attachedSink 0).modPort i fun p => { p with readySent := false }
  else s

/-- ACCEPT answers a message of this port. -/
def State.accepted (s : State) (i : Nat) (m : ClaspMsg) (payload : List Byte) : State :=
  let s1 := s.modPort i fun p => { p.advance with silent := false }
  if m.type = msgRequest then
    let p := s.port i
    (s1.modPort i fun p => { p with
        slew := Nat.min 50 (Nat.min (byteAt m.payload 12) (byteAt (p.caps.getD []) 16)), request := none }).enterTransition
      i (if p.mode.attached then fieldAt payload 0 4 else 0)
  else if m.type = msgSwapJs then s1.beginSwap i
  else if m.type = msgReady then s1.readyAnswered i m.seqNo
  else s1

/-- An answer reaches a port (R348). -/
def State.claspAnswer (s : State) (i : Nat) (fromB : Bool) (type seqNo answers : Nat) (payload : List Byte)
    (act : State → ClaspMsg → State) : State :=
  let p := s.port i
  if !s.claspOn i || !(p.mode.attached || p.mode == .recovery) then s
  else if !claspLength type payload.length || seqNo = 0 then s.modClasp fun c => { c with badMsg := satAdd 255 c.badMsg 1 }
  else if p.mode.attached && fromB == p.endB then
    (s.portDetach i 3 3 none).modPort i fun p => { p with endConflict := true }
  else match p.answeredBy answers with
    | some m => act s m
    | none => s.modPort i fun p => { p with silent := false }

def execAccept (port : Nat) (fromB : Bool) (seqNo answers : Nat) (payload : List Byte) (s : State) :
    Host.Outcome State Fault Refusal :=
  .next (s.claspAnswer port fromB msgAccept seqNo answers payload fun s m =>
    if (m.type == msgRequest) == (payload.length == 4) then s.accepted port m payload
    else s.modClasp fun c => { c with badMsg := satAdd 255 c.badMsg 1 })

/-- REJECT answers a message of this port: a REQUEST is over and reported, a swap is off (R349, R354). -/
def State.rejected (s : State) (i : Nat) (m : ClaspMsg) (reason : Nat) : State :=
  let s1 := s.modPort i fun p => { p.advance with silent := false }
  if m.type = msgRequest then
    (s1.modPort i fun p => { p with request := none }).contractEvent i 2 reason (s.tieVolts i)
  else if m.type = msgSwapJs then s1.modPort i fun p => { p with swap := .none }
  else s1

def execReject (port : Nat) (fromB : Bool) (seqNo answers : Nat) (payload : List Byte) (s : State) :
    Host.Outcome State Fault Refusal :=
  .next (s.claspAnswer port fromB msgReject seqNo answers payload fun s m => s.rejected port m (byteAt payload 0))

/-- A message whose CRC, length or end bit is wrong (R347). -/
def execClaspBadMessage (port : Nat) (s : State) : Host.Outcome State Fault Refusal :=
  if s.claspOn port then .next (s.modClasp fun c => { c with badMsg := satAdd 255 c.badMsg 1 }) else .next s

/-! ### The line (R348) -/

/-- The CAPS that an entry into HOLD owes goes behind the messages that wait (R349). -/
def State.owedCaps (s : State) (i : Nat) : State :=
  if (s.port i).capsDue then (s.sendCaps i true).modPort i fun p => { p with capsDue := false } else s

/-- The receive input has been idle for 40 us: an answer goes first, then the message in progress. -/
def execClaspLineIdle (port : Nat) (s : State) : Host.Outcome State Fault Refusal :=
  if !s.claspOn port then .next s
  else .next ((s.owedCaps port).modPort port fun p =>
    if p.answerState == some .waiting then { p with answerState := some .sending }
    else match p.out with
      | some o => if o.state == .waiting then { p with out := some { o with state := .sending } } else p
      | none => p)

/-- The last bit of a message has been sent (R348, R349). -/
def execClaspMessageSent (port : Nat) (s : State) : Host.Outcome State Fault Refusal :=
  let p := s.port port
  if !s.claspOn port then .next s
  else if p.answerState == some .sending then
    let s1 := s.modPort port fun p => { p with answerState := none, entersOnSend := false }
    match p.entersOnSend, p.answered with
    | true, some a => .next (s1.enterTransition port (fieldAt a.payload 0 4))
    | _, _ => .next s1
  else match p.out with
    | some o =>
      if o.state == .sending then .next (s.modPort port fun p => { p with out := some { o with state := .sent } })
      else .next s
    | none => .next s

/-- A difference at mid-bit stops the transmission (R348). -/
def execClaspCollision (port : Nat) (s : State) : Host.Outcome State Fault Refusal :=
  let p := s.port port
  let count := fun (s : State) => s.modClasp fun c => { c with collisions := satAdd 255 c.collisions 1 }
  if !s.claspOn port then .next s
  else if p.answerState == some .sending then .next (count (s.modPort port fun p => { p with answerState := some .collided }))
  else match p.out with
    | some o =>
      if o.state == .sending then
        .next (count (s.modPort port fun p => { p with out := some { o with state := .collided } }))
      else .next s
    | none => .next s

/-- The line has been idle for the end's retry time (R348). -/
def execClaspRetryIdle (port : Nat) (s : State) : Host.Outcome State Fault Refusal :=
  if !s.claspOn port then .next s
  else .next (s.modPort port fun p =>
    if p.answerState == some .collided then { p with answerState := some .sending }
    else match p.out with
      | some o => if o.state == .collided then { p with out := some { o with state := .sending } } else p
      | none => p)

/-- A partner that has not answered three resends is silent (R353); an unanswered DETACH counts as received (R356). -/
def State.silence (s : State) (i : Nat) : State :=
  let p := s.port i
  let s1 := s.modPort i fun p => { p with out := none, queue := [], silent := true }
  if p.mode.attached && p.mode != .hold then s1.portHold i 2 else s1

/-- 6 ms without an answer (R348). -/
def execClaspAnswerTimeout (port : Nat) (s : State) : Host.Outcome State Fault Refusal :=
  match (s.port port).out with
  | some o =>
    if !s.claspOn port || o.state != .sent then .next s
    else if o.resends < 3 then
      .next ((s.modPort port fun p => { p with out := some { o with state := .waiting, resends := o.resends + 1 } }).modClasp
        fun c => { c with resends := satAdd 255 c.resends 1 })
    else .next (s.silence port)
  | none => .next s

/-! ### Timers of the states (R352 to R354) -/

def execClaspTransitionTimeout (port : Nat) (s : State) : Host.Outcome State Fault Refusal :=
  if s.claspOn port && (s.port port).mode == .transition then .next (s.sendHold port 4) else .next s

/-- The hold timeout (R352, R353). -/
def execClaspHoldTimeout (port : Nat) (s : State) : Host.Outcome State Fault Refusal :=
  let p := s.port port
  if !s.claspOn port || p.mode != .hold then .next s
  else if p.silent then .next (s.recover port 2 none)
  else .next (s.portDetach port 2 0 none)

/-- 20 ms after its supply turned on, the new supplier sends READY (R354). -/
def execClaspSwapDelay (port : Nat) (s : State) : Host.Outcome State Fault Refusal :=
  if s.claspOn port && (s.port port).swap == .supplying && (s.port port).swapReady = 0 then
    .next ((s.portSend port msgReady (le 1 (s.chan (tieOf port)).state.code)).modPort port fun p => { p with swapReady := p.seqNo })
  else .next s

/-! ### At a boundary (R349, R350, R352) -/

/-- The importer's tie at a boundary: left open because another source is selected, where the port returns to ATTACHED_SINK (R350 step 3), or
selected again. -/
def State.importerStep (s : State) (i : Nat) : State :=
  let p := s.port i
  let k := tieOf i
  let selected := s.qualifiedSources.head? == some k
  if p.mode == .transition && !p.readySent && s.qualified k && !selected && (s.chan k).state == .opened then
    (s.portSend i msgReady (le 1 ChanState.opened.code)).setPort i .attachedSink 0
  else if p.mode == .attachedSink && p.contract && s.qualified k && selected && (s.chan k).state == .opened then
    (s.setPort i .transition 0).modPort i fun p => { p with transEpoch := s.time.epoch, readySent := false }
  else s

/-- The exporter: HOLD where the holder becomes NONE, CAPS where it is owed or a field has changed; `was` is the holder before. -/
def State.exporterStep (s : State) (was : Holder) (i : Nat) : State :=
  let p := s.port i
  if s.path.holder == .none && was != .none && p.mode != .hold then s.sendHold i 3 else (s.owedCaps i).sendCaps i false

/-- Both ports at a boundary. -/
def State.claspBoundary (s : State) (was : Holder) : State :=
  [0, 1].foldl (fun s i =>
    if !s.claspOn i || !(s.port i).mode.attached then s
    else if (s.port i).exporter then s.exporterStep was i else s.importerStep i) s

/-! ### Commands of Table 14-12 -/

/-- The port byte and its zeros (R360). -/
def portArg (p : List Byte) : Bool := byteAt p 0 < 2 && zeroAt p 1 3

/-- A worker answers every opcode of the range with NOT_MANAGER. -/
def notWorker (s : State) : Option Answer := need (!s.isWorker) 0xB0

/-- A Clasp record in its ranges (Table 14-2). -/
def claspBodyOk (b : List Byte) : Bool :=
  b.length == 32 && byteAt b 0 < 16 && byteAt b 1 ≤ 3 && (byteAt b 2 ≤ 23 || byteAt b 2 == 0xFF) && zeroAt b 3 1
    && fieldAt b 8 4 < fieldAt b 0xC 4 && 1 ≤ byteAt b 0x10 && byteAt b 0x10 ≤ 50 && zeroAt b 0x11 1
    && 1 ≤ fieldAt b 0x12 2 && fieldAt b 0x12 2 ≤ 60 && 1 ≤ fieldAt b 0x14 2 && fieldAt b 0x14 2 ≤ 600 && zeroAt b 0x16 10

/-- A requested current and range against the certificate (R342). -/
def State.claspFence (s : State) (i current lo hi : Nat) : Option Answer :=
  fenced s fun c =>
    current ≤ certSource c (tieOf i) && certLinkMin c ≤ lo && lo ≤ certLinkMax c && hi ≤ certLinkMax c

def claspConfigCheck (s : State) (p : List Byte) : Option Answer :=
  let q := s.port (byteAt p 0)
  let b := p.drop 4
  firstOf
    [ need (q.mode == .unattached || !q.enabled) 0xB9,
      s.claspFence (byteAt p 0) (fieldAt b 4 4) (fieldAt b 8 4) (fieldAt b 0xC 4) ]

/-- A record takes the place of the one before and restarts the port (R361). -/
def State.loadPort (s : State) (i : Nat) (b : List Byte) : State :=
  (s.modPort i fun p => { Port.reset with body := some b, pref := byteAt b 1, bandA := p.bandA, bandB := p.bandB, mode := p.mode }).portRest i 0

def opClaspConfig : OpSpec :=
  { code := 0x0900, sched := .scheduled, bcast := true, mqOnly := true, block := some .clasp, eupefen := true
    check := fun s f => firstOf
      [ notWorker s, needLength f 36, need (portArg f.payload && claspBodyOk (f.payload.drop 4)) stBadParam,
        claspConfigCheck s f.payload ]
    run := fun s f => match claspConfigCheck s f.payload with
      | some a => (s, some a)
      | none => okay (s.loadPort (byteAt f.payload 0) (f.payload.drop 4)) }

/-- The 16 bits of one port in CLASP_STATE (Table 14-9). -/
def Port.stateBits (p : Port) : Nat :=
  p.mode.code * 2 ^ 12 + bit p.endB * 2 ^ 11 + bit p.js * 2 ^ 10 + bit (p.grant.isSome) * 2 ^ 9
    + bit (p.conflict || p.endConflict) * 2 ^ 8 + p.bandB.code * 64 + p.bandA.code * 16

/-- CLASP_STATE. -/
def Clasp.stateReg (c : Clasp) : Nat := (c.port 1).stateBits * 2 ^ 16 + (c.port 0).stateBits

/-- CLASP_COUNT (Table 14-10), and its clearing read. -/
def Clasp.countReg (c : Clasp) : Nat := c.badMsg * 2 ^ 24 + c.resends * 2 ^ 16 + c.collisions * 2 ^ 8 + c.pulled
def Clasp.clearCount (c : Clasp) : Clasp := { c with badMsg := 0, resends := 0, collisions := 0, pulled := 0 }

/-- CLASP_GRANTk. -/
def Port.grantReg (p : Port) : Nat := p.grant.getD 0

def opClaspStatus : OpSpec :=
  { code := 0x0901, sched := .unscheduled, bcast := false, mqOnly := true, block := some .clasp
    check := fun s f => firstOf [notWorker s, needLength f 4, need (portArg f.payload) stBadParam]
    run := fun s f =>
      let p := s.port (byteAt f.payload 0)
      okayWith s (le 4 s.clasp.stateReg ++ le 4 p.grantReg ++ ((p.caps.getD []) ++ zeros 18).take 18 ++ zeros 2) }

def claspRequestCheck (s : State) (p : List Byte) : Option Answer :=
  let q := s.port (byteAt p 0)
  firstOf
    [ need q.mode.attached 0xB8,
      need (q.mode != .transition) 0xB9,
      need (!q.exporter) stBadParam,
      s.claspFence (byteAt p 0) (fieldAt p 4 4) (fieldAt p 8 4) (fieldAt p 12 4) ]

def opClaspRequest : OpSpec :=
  { code := 0x0902, sched := .scheduled, bcast := true, mqOnly := true, block := some .clasp, eupefen := true
    check := fun s f => firstOf
      [ notWorker s, needLength f 20,
        need (portArg f.payload && fieldAt f.payload 8 4 < fieldAt f.payload 12 4 && 1 ≤ byteAt f.payload 16
          && byteAt f.payload 16 ≤ 50 && zeroAt f.payload 17 3) stBadParam,
        claspRequestCheck s f.payload ]
    run := fun s f => match claspRequestCheck s f.payload with
      | some a => (s, some a)
      | none =>
        let i := byteAt f.payload 0
        okay ((s.modPort i fun p => { p with request := some (slice f.payload 4 13 ++ zeros 1) }).sendRequest i) }

def claspSwapCheck (s : State) (p : List Byte) : Option Answer :=
  let q := s.port (byteAt p 0)
  firstOf [need q.mode.attached 0xB8, need (q.mode != .transition) 0xB9]

def opClaspSwapJs : OpSpec :=
  { code := 0x0903, sched := .scheduled, bcast := true, mqOnly := true, block := some .clasp, eupefen := true
    check := fun s f => firstOf
      [notWorker s, needLength f 4, need (portArg f.payload) stBadParam, claspSwapCheck s f.payload]
    run := fun s f => match claspSwapCheck s f.payload with
      | some a => (s, some a)
      | none =>
        let i := byteAt f.payload 0
        okay ((s.portSend i msgSwapJs []).modPort i fun p => { p with swap := if p.swap == .none then .asked else p.swap }) }

def claspHoldCheck (s : State) (p : List Byte) : Option Answer :=
  let q := s.port (byteAt p 0)
  need (q.grant.isSome && !q.suspended) 0xBA

def opClaspHold : OpSpec :=
  { code := 0x0904, sched := .scheduled, bcast := true, mqOnly := true, block := some .clasp, eupefen := true
    check := fun s f => firstOf
      [notWorker s, needLength f 4, need (portArg f.payload) stBadParam, claspHoldCheck s f.payload]
    run := fun s f => match claspHoldCheck s f.payload with
      | some a => (s, some a)
      | none => okay (s.sendHold (byteAt f.payload 0) 1) }

def claspDetachCheck (s : State) (p : List Byte) : Option Answer := need (s.port (byteAt p 0)).mode.attached 0xB8

def opClaspDetach : OpSpec :=
  { code := 0x0905, sched := .scheduled, bcast := true, mqOnly := true, block := some .clasp, eupefen := true
    check := fun s f => firstOf
      [ notWorker s, needLength f 8,
        need (portArg f.payload && (byteAt f.payload 4 ≤ 3 || byteAt f.payload 4 == 0xFF) && zeroAt f.payload 5 3) stBadParam,
        claspDetachCheck s f.payload ]
    run := fun s f => match claspDetachCheck s f.payload with
      | some a => (s, some a)
      | none =>
        let i := byteAt f.payload 0
        okay (s.portDetach i 1 0 (some (if byteAt f.payload 4 = 0xFF then (s.port i).pref else byteAt f.payload 4))) }

def execClaspConfig (h : Hdr) (p : List Byte) (s : State) : Host.Outcome State Fault Refusal :=
  .next (receive opClaspConfig h p s)

def execClaspStatus (h : Hdr) (p : List Byte) (s : State) : Host.Outcome State Fault Refusal :=
  .next (receive opClaspStatus h p s)

def execClaspRequest (h : Hdr) (p : List Byte) (s : State) : Host.Outcome State Fault Refusal :=
  .next (receive opClaspRequest h p s)

def execClaspSwapJs (h : Hdr) (p : List Byte) (s : State) : Host.Outcome State Fault Refusal :=
  .next (receive opClaspSwapJs h p s)

def execClaspHold (h : Hdr) (p : List Byte) (s : State) : Host.Outcome State Fault Refusal :=
  .next (receive opClaspHold h p s)

def execClaspDetach (h : Hdr) (p : List Byte) (s : State) : Host.Outcome State Fault Refusal :=
  .next (receive opClaspDetach h p s)

end Sys2Proof.Machine
end

