-- ==== Sys2Proof/Machine/Registers.lean ====
section
/-!
DEFINITION. The register window (06, R146): which offsets each block defines, what a read returns and what it does, and
which writes are carried out.
-/
namespace Sys2Proof.Machine

/-! ### Registers of CMD, TIME and GEODE -/

/-- CMD_STATUS (Table 06-9). -/
def State.cmdStatusReg (s : State) : Nat :=
  s.cmd.tags * 2 ^ 16 + s.cmd.depth 0 * 2 ^ 8 + bit (s.canOn 1) * 4 + bit (s.canOn 0) * 2 + bit (!s.cmd.outSpi.isEmpty)

/-- CMD_ERRORS (Table 06-10), and its clearing read. -/
def Cmd.errorsReg (c : Cmd) : Nat := c.framing * 2 ^ 24 + c.crcErr * 2 ^ 16 + c.eventsLost * 2 ^ 8 + c.winRefused
def Cmd.clearErrors (c : Cmd) : Cmd := { c with framing := 0, crcErr := 0, eventsLost := 0, winRefused := 0 }

/-- CMD_INT (Table 06-11). -/
def Cmd.intReg (c : Cmd) : Nat := 2 * bit c.lostEn + bit c.outEn

/-- HS_INTN is low (Table 06-11, R147). -/
def Cmd.interrupts (c : Cmd) : Bool := (c.lostEn && c.eventsLost ≠ 0) || (c.outEn && !c.outSpi.isEmpty)

/-- A silent discard is counted (Table 06-10). -/
def Cmd.countFraming (c : Cmd) : Cmd := { c with framing := satAdd 255 c.framing 1 }

/-- TIME_EPOCH_CFG (Table 07-8) and TIME_PROMISE (Table 07-9). -/
def State.epochCfgReg (s : State) : Nat := minLength s.slolos.workers * 2 ^ 16 + s.time.length
def Time.promiseReg (y : Time) : Nat := y.broken * 2 ^ 16 + y.domain.toNat * 2 ^ 8 + y.wordLast.toNat

/-- The code of SLOT_RUNNING and SLOT_TRIAL. -/
def slotCode : Option SlotId → Nat
  | none => 0 | some .a => 1 | some .b => 2

/-- GEODE_STATUS (Table 05-4). -/
def State.geodeReg (s : State) : Nat :=
  if s.geode.stage == .otp then 0
  else s.lc.code * 2 ^ 25 + s.otp.rollback * 2 ^ 16 + s.geode.stage.code * 2 ^ 12 + bit s.geode.wipePending * 2 ^ 11
    + bit s.geode.cert.isSome * 2 ^ 10 + bit s.geode.certBuiltin * 2 ^ 9 + bit (s.flash.session.any (·.erased)) * 2 ^ 8
    + slotCode s.geode.slotRunning * 64 + slotCode s.flash.trial * 16

/-! ### The map -/

/-- The window offset of timer `n`'s registers, and the timer and register of an offset. -/
def timerOffset (n : Nat) : Nat := 0x100 + 0x20 * n
def inTimers (o : Nat) : Bool := 0x100 ≤ o && o < 0x300
def timerOf (o : Nat) : Nat := (o - 0x100) / 0x20
def timerReg (o : Nat) : Nat := (o - 0x100) % 0x20

/-- The block defines the offset (the register tables of its chapter). -/
def regDefined (b : Block) (o : Nat) : Bool :=
  match b with
  | .sys => o == 0x04 || o == 0x08 || o == 0x0C || o == 0x14 || o == 0x20 || o == 0x40 || o == 0x44
      || (0x80 ≤ o && o < 0xC0)
  | .cmd => o ≤ 0x08
  | .time => o ≤ 0x0C || (inTimers o && timerReg o ≤ 0x18) || (0x800 ≤ o && o ≤ 0x80C)
  | .wdg => o ≤ 0x0C
  | .conv => o ≤ 0x04 || (0x100 ≤ o && o < 0x140)
  | .prot => o ≤ 0x08
  | .meas => o ≤ 0x08 || (0x1000 ≤ o && o < 0x1500)
  | .therm => o ≤ 0x08 || (0x10 ≤ o && o < 0x20)
  | .bezel => o ≤ 0x0C
  | .slolos => o ≤ 0x08 || (0x104 ≤ o && o < 0x200)
  | .clasp => o ≤ 0x04 || o == 0x10 || o == 0x14
  | .pendant => o ≤ 0x0C
  | .memi => o == 0 || (0x10 ≤ o && o < 0x30)
  | .geode => o ≤ 0x04

/-- The snapshot in view of an accumulator and of a tracker; before the first freeze the registers hold their reset
values (Tables 15-10 to 15-15). -/
def Meas.viewAcc (m : Meas) (a : Nat) : Acc × Nat :=
  match m.view with
  | some x => getAt x.accs a (Acc.reset, 0)
  | none => (Acc.reset, 0)

def Meas.viewTrk (m : Meas) (t : Nat) : Trk × Nat :=
  match m.view with
  | some x => getAt x.trks t (Trk.reset, 0)
  | none => (Trk.reset, 0)

/-- MEAS_ACCa_SUM_LO to MEAS_ACCa_DISCARDS. -/
def accReg (x : Acc × Nat) : Nat → Nat
  | 0 => x.1.sum % 2 ^ 32
  | 1 => x.2 * 2 ^ 19 + bit x.1.running * 2 ^ 18 + bit x.1.saturated * 2 ^ 17 + bit (x.1.count == 0) * 2 ^ 16
      + x.1.sum / 2 ^ 32 % 2 ^ 16
  | 2 => x.1.count
  | _ => x.1.discards

/-- MEAS_TRKt_RANGE and MEAS_TRKt_FLAGS. -/
def trkReg (x : Trk × Nat) : Nat → Nat
  | 0 => x.1.max * 2 ^ 16 + x.1.min
  | _ => x.2 * 4 + bit x.1.running * 2 + bit x.1.isEmpty

def Meas.readWord (m : Meas) (o : Nat) : Nat :=
  if o = 0 then m.statusReg
  else if o = 4 then (match m.view with
    | some x => x.epoch
    | none => 0)
  else if o = 8 then 2 * bit m.view.isSome + bit m.hold
  else if o < 0x1400 then accReg (m.viewAcc ((o - 0x1000) / 16)) ((o - 0x1000) % 16 / 4)
  else trkReg (m.viewTrk ((o - 0x1400) / 8)) ((o - 0x1400) % 8 / 4)

def Sys.readWord (y : Sys) (o : Nat) : Nat :=
  if o = 0x04 then y.readyReg
  else if o = 0x08 then y.rstCause.toNat
  else if o = 0x0C then y.historyReg
  else if o = 0x14 then y.strapsReg
  else if o = 0x20 then y.clkReg
  else if o = 0x40 then y.epochAtReset
  else if o = 0x44 then y.hint.toNat
  else fieldAt (y.lastFault.body ++ le 4 y.lastFault.crc.toNat) (o - 0x80) 4

/-- A read of a timer register, with what it does: a latching read of COUNT stores the counts of the chain above
(R399), CAPTURE loses its oldest entry (R406), CAPSTAT clears its RC fields. -/
def Time.readTimer (y : Time) (n r : Nat) : Nat × Time :=
  let t := y.timer n
  match r / 4 with
  | 0 => (t.ctl, y)
  | 1 => ((if y.latch then t.latched.getD t.count else t.count), if y.latch then y.latchAbove n else y)
  | 2 => (t.period, y)
  | 3 => (t.compare, y)
  | 4 => (t.interval, y)
  | 5 => (t.captures.headD 0, y.setTimer n { t with captures := t.captures.drop 1 })
  | _ => (t.capstat, y.setTimer n { t with catchup := 0, capOvf := 0 })

/-- A read in TIME: TIME_SYS_LO stores the high word in latch mode, TIME_EPOCH_NUM latches the tick (R399). -/
def State.readTime (s : State) (o : Nat) : Nat × State :=
  let y := s.time
  if inTimers o then
    let (v, y1) := y.readTimer (timerOf o) (timerReg o)
    (v, { s with time := y1 })
  else if o = 0 then
    (y.sysTime % 2 ^ 32,
      if y.latch then { s with time := { y with hiLatched := some (y.sysTime / 2 ^ 32) } } else s)
  else if o = 4 then ((if y.latch then y.hiLatched.getD (y.sysTime / 2 ^ 32) else y.sysTime / 2 ^ 32), s)
  else if o = 8 then (bit y.latch, s)
  else if o = 0x0C then (y.ovf.toNat * 2 ^ 16 + y.match_.toNat, s)
  else if o = 0x800 then (y.epoch, { s with time := { y with tickLatched := y.tick } })
  else if o = 0x804 then (y.tickLatched, s)
  else if o = 0x808 then (s.epochCfgReg, s)
  else (y.promiseReg, s)

/-- CMP_OUT: the comparators beyond an active threshold; in CROWBAR the crowbar code is the lower one (R221). -/
def State.cmpOut (s : State) : BitVec 16 :=
  bitsOf 16 ((List.range 16).filter fun n =>
    (s.prot.cmpUp.getLsbD n && s.prot.cmpUpAct n ≠ 0)
      || (s.prot.cmpLo.getLsbD n && (s.prot.cmpLoAct n ≠ 0 || (s.crowbarOf n).isSome)))

/-- PROT_LEGS, PROT_FLAGS and PROT_LANES (Tables 09-10 to 09-12). -/
def State.protReg (s : State) (o : Nat) : Nat :=
  if o = 0 then s.prot.dfltLow.toNat * 2 ^ 16 + s.prot.held.toNat
  else if o = 4 then s.prot.flags.toNat
  else s.cmpOut.toNat * 2 ^ 16
    + (s.conv.lanes.zipIdx).foldl (fun a x => a + (x.1.retries % 16) * 2 ^ (4 * x.2)) 0

/-- CONV (Tables 08-10 to 08-15). -/
def Conv.readWord (c : Conv) (o : Nat) : Nat :=
  if o = 0 then c.statusReg
  else if o = 4 then c.flagsReg
  else
    let l := getAt c.lanes ((o - 0x100) / 16) Lane.reset
    match (o - 0x100) % 16 / 4 with
    | 0 => l.dutyReg
    | 1 => l.currentReg
    | 2 => l.periodReg
    | _ => l.frames

/-- WDG (Tables 17-15 to 17-18); the key reads zero. -/
def Wdg.readWord (w : Wdg) (o : Nat) : Nat :=
  if o = 4 then w.windowReg else if o = 8 then w.count else if o = 0x0C then w.statusReg else 0

/-- A read of a word at an offset that its block defines: the value, and what the read does (R8, R399, R406). -/
def State.readReg (s : State) (b : Block) (o : Nat) : Nat × State :=
  match b with
  | .sys => (s.sys.readWord o, s)
  | .cmd =>
    if o = 0 then (s.cmdStatusReg, s)
    else if o = 4 then (s.cmd.errorsReg, s.modCmd Cmd.clearErrors)
    else (s.cmd.intReg, s)
  | .time => s.readTime o
  | .wdg => (s.wdg.readWord o, s)
  | .conv => (s.conv.readWord o, s)
  | .prot => (s.protReg o, s)
  | .meas => (s.meas.readWord o, s)
  | .therm =>
    ((if o = 0 then s.therm.statusReg
      else if o = 4 then s.therm.junctionReg
      else if o = 8 then s.therm.extReg
      else s.therm.sensorReg ((o - 0x10) / 4)), s)
  | .bezel =>
    ((if o = 0 then s.path.stateReg
      else if o = 4 then s.path.flagsReg
      else if o = 8 then s.path.retryReg
      else s.linkReg), s)
  | .slolos =>
    if o = 0 then (s.slolos.statusReg, s)
    else if o = 4 then (s.slolos.errorsReg, s.modSlolos Slolos.clearErrors)
    else if o = 8 then (s.slolos.delayReg, s)
    else ((if s.isManager then s.ctxReg ((o - 0x100) / 4) else 0), s)
  | .clasp =>
    if o = 0 then (s.clasp.stateReg, s)
    else if o = 4 then (s.clasp.countReg, s.modClasp Clasp.clearCount)
    else ((s.clasp.port ((o - 0x10) / 4)).grantReg, s)
  | .pendant =>
    if o = 0 then (s.pendant.stateReg, s)
    else if o = 4 then (s.pendant.target, s)
    else if o = 8 then (s.pendant.ref.getD 0, s)
    else (s.pendant.countReg, s.modPendant fun p => { p with discarded := 0, naks := 0, rejs := 0, superseded := 0 })
  | .memi =>
    if o = 0 then (s.memiStatus, s.modMemi fun m => { m with queueUncorr := 0 })
    else if o < 0x20 then ((s.memi.ram ((o - 0x10) / 4)).dripReg, s)
    else
      ((s.memi.ram ((o - 0x20) / 4)).corrReg,
        s.modMemi fun m => m.modRam ((o - 0x20) / 4) fun r => { r with overflows := 0, corrected := 0 })
  | .geode => ((if o = 0 then s.geodeReg else s.geode.fenceReg), s)

/-! ### Writes (R146) -/

/-- A write of a timer register (R401, R402, Tables 17-8 to 17-12); CAPTURE and CAPSTAT are not host-writable. -/
def Timer.writeReg (t : Timer) (r v : Nat) : Option Timer :=
  match r / 4 with
  | 0 => some (t.setCtl v)
  | 1 => some { t with count := v }
  | 2 => some { t with period := periodOf v }
  | 3 => some (t.setCompare v)
  | 4 => some { t with interval := v % 2 ^ 31 }
  | _ => none

/-- A write to a block: carried out where it falls on a host-writable field, none where it is refused. Reserved bits
ignore writes. -/
def State.writeReg (s : State) (b : Block) (o v : Nat) : Option State :=
  match b with
  | .sys =>
    if o = 0x0C then
      some (s.modSys fun y => { y with seen := y.seen.clearBits (BitVec.ofNat 12 v &&& 0xFFE), crossSeen := some (240, y.seen) })
    else none
  | .cmd => if o = 8 then some (s.modCmd fun c => { c with lostEn := v.testBit 1, outEn := v.testBit 0 }) else none
  | .time =>
    if inTimers o && timerReg o ≤ 0x18 then
      match (s.time.timer (timerOf o)).writeReg (timerReg o) v with
      | some t => some (s.modTime fun y => y.setTimer (timerOf o) t)
      | none => none
    else if o = 8 then
      some (s.modTime fun y =>
        { y with
          latch := v.testBit 0
          hiLatched := none
          timers := y.timers.map fun t => { t with latched := none } })
    else if o = 0x0C then
      some (s.modTime fun y =>
        { y with ovf := y.ovf.clearBits (BitVec.ofNat 16 (v / 2 ^ 16)), match_ := y.match_.clearBits (BitVec.ofNat 16 v) })
    else none
  | .conv =>
    if o = 4 then
      some (s.modConv fun c =>
        { c with lanes := (c.lanes.zipIdx).map fun x =>
            { x.1 with sticky := x.1.sticky.clearBits (BitVec.ofNat 8 (v / 2 ^ (8 * x.2))) } })
    else none
  | .prot => if o = 4 then some (s.modProt fun p => { p with flags := p.flags.clearBits (BitVec.ofNat 32 v) }) else none
  | .meas => if o = 8 then some (s.modMeas fun m => m.setHold (v.testBit 0)) else none
  | .bezel =>
    if o = 4 then
      some (s.modPath fun p =>
        { p with chans := (p.chans.zipIdx).map fun x =>
            { x.1 with trips := x.1.trips.clearBits (BitVec.ofNat 5 (v / 2 ^ (5 * x.2))) } })
    else none
  | .memi =>
    if o = 0 then
      some (s.modMemi fun m =>
        { m with rams := (m.rams.zipIdx).map fun x =>
            { x.1 with overflowed := x.1.overflowed && !v.testBit (8 + x.2) } })
    else none
  | _ => none

/-! ### Access (R3, R71, R72, R141, R146) -/

/-- A fused block of a SL1663-WQ (R3). -/
def State.fused (s : State) (b : Block) : Bool := s.otp.partWq && (b == .clasp || b == .pendant)

/-- The block's clock runs (R71). The SYS block is always served; the Slolos block starts with its ports, restarts with them, and
never runs on a standalone die; the others start when they become ready. -/
def State.blockRuns (s : State) (b : Block) : Bool :=
  match b with
  | .sys => true
  | .slolos => !s.isStandalone && s.sys.clk == .running && (s.slolos.portA != .off || s.slolos.portB != .off)
  | b => s.isReady b

/-- An access to the block does not wait: its clock runs, and CMD is ready for every block but SYS (R141). -/
def State.windowOpen (s : State) (b : Block) : Bool := b == .sys || (s.isReady .cmd && s.blockRuns b)

/-- What a window read of a word does: none where it waits (R72). In SCRAPPED only SYS and GEODE_STATUS are readable, and every other
read returns zero, whether or not its block runs (R146). -/
def State.readWord (s : State) (a : Nat) : Option (Nat × State) :=
  match blockOf (a / 2 ^ 16) with
  | none => some (0, s)
  | some b =>
    if s.fused b || !regDefined b (a % 2 ^ 16) then some (0, s)
    else if s.lc == .scrapped && b != .sys && a ≠ 0xF0000 then some (0, s)
    else if !s.windowOpen b then none
    else some (s.readReg b (a % 2 ^ 16))

/-- A refused write is counted (R146). -/
def State.refuseWrite (s : State) : State := s.modCmd fun c => { c with winRefused := satAdd 255 c.winRefused 1 }

/-- What a window write does: whether it was carried out, or none where it waits. Writes to a fused block are ignored
(R3); in SCRAPPED every write is refused (R146). DESIGN CHOICE (log 96): an ignored write is answered 0x5A and counts nothing,
also in SCRAPPED, and a die in BLANK carries host-writable writes out. -/
def State.writeWord (s : State) (a v : Nat) : Option (Bool × State) :=
  match blockOf (a / 2 ^ 16) with
  | none => some (false, s.refuseWrite)
  | some b =>
    if s.fused b then some (true, s)
    else if s.lc == .scrapped then some (false, s.refuseWrite)
    else if !s.windowOpen b then none
    else match s.writeReg b (a % 2 ^ 16) v with
      | some s1 => some (true, s1)
      | none => some (false, s.refuseWrite)

end Sys2Proof.Machine
end

