-- ==== Sys2Proof/Machine/SpiTarget.lean ====
section
/-!
DEFINITION. The SPI target (06, R137 to R141): the transactions of Table 06-5, the status byte, and the accesses of a
single register that the spec names. The bytes that the die sends stand in `Cmd.miso`; each wait state is shown by the one
0xFF that R140 requires, since their number is timing (log 16).
-/
namespace Sys2Proof.Machine

/-- The packets that the SPI target holds (R139). -/
def Cmd.spiHeld (c : Cmd) : Nat := (c.inbox.filter fun x => x.origin == .spi).length

/-- IN_SPACE: a packet of 1,040 bytes fits. -/
def Cmd.inSpace (c : Cmd) : Bool := c.spiHeld < Config.spiBuffers

/-- The status byte (R138, R141). -/
def State.statusByte (s : State) : Byte :=
  if s.sys.hung.isSome then 0xFF
  else if !s.isReady .cmd then 0x00
  else BitVec.ofNat 8 (0x80 + 0x40 * bit (!s.cmd.outSpi.isEmpty) + 0x20 * bit s.cmd.inSpace + 0x10 * bit s.cmd.discarded)

def State.sendMiso (s : State) (l : List Byte) : State := s.modCmd fun c => { c with miso := l }

/-- The start of a transaction: reading the status byte clears DISCARDED (R138). -/
def State.spiBegin (s : State) : State :=
  if s.sys.hung.isNone && s.isReady .cmd then s.modCmd fun c => { c with discarded := false } else s

/-- A transaction while an internal access is pending is ignored: 0xFF for each of its bytes (R72). -/
def State.spiHung (s : State) (len : Nat) : State := s.sendMiso (List.replicate len 0xFF)

/-! ### Packets (R139) -/

/-- WRITE_PACKET. The packet waits in a buffer for the command engine. -/
def State.writePacket (s : State) (bytes : List Byte) : State :=
  if s.sys.hung.isSome then s.spiHung (1 + bytes.length)
  else
    let st := s.statusByte
    let s1 := s.spiBegin.sendMiso (st :: zeros bytes.length)
    if 1040 < bytes.length then s1.modCmd Cmd.countFraming
    else if !s.isReady .cmd then s1
    else if !s.cmd.inSpace then s1.modCmd fun c => { c with discarded := true }
    else s1.modCmd fun c => { c with inbox := c.inbox ++ [{ origin := .spi, node := 0, bytes := bytes }] }

/-- The final reply of a command has left the die: its tag and entries are free (R124). -/
def State.leftDie (s : State) (x : OutItem) : State :=
  match x.frees with
  | some k => s.dropFlight k
  | none => s

/-- READ_PACKET: the host clocks `count` bytes after the command byte. A packet whose last CRC byte has been clocked out
leaves; an earlier end leaves it waiting (R139). -/
def State.readPacket (s : State) (count : Nat) : State :=
  if s.sys.hung.isSome then s.spiHung (1 + count)
  else
    let st := s.statusByte
    let s1 := s.spiBegin
    match s.isReady .cmd, s.cmd.outSpi with
    | true, x :: r =>
      let b := x.pkt.bytes
      let s2 := s1.sendMiso (st :: ((0x00 : Byte) :: b ++ zeros count).take count)
      if b.length < count then ((s2.modCmd fun c => { c with outSpi := r }).leftDie x).eventsLost 0 else s2
    | _, _ => s1.sendMiso (st :: zeros count)

/-! ### The window (R140, R146) -/

/-- The words of a burst from address `a` in the block of address `base`: none where an access waits. -/
def State.burst (s : State) (base : Nat) : Nat → Nat → State × List Nat × Bool
  | 0, _ => (s, [], true)
  | n + 1, a =>
    if a / 2 ^ 16 = base / 2 ^ 16 then
      match s.readWord a with
      | some (v, s1) =>
        let (s2, l, done) := s1.burst base n (a + 4)
        (s2, v :: l, done)
      | none => ({ s with sys := { s.sys with hung := (blockOf (a / 2 ^ 16)).map fun b => { block := b, address := a, write := none } } },
          [], false)
    else
      let (s2, l, done) := s.burst base n (a + 4)
      (s2, 0 :: l, done)

/-- A window address: 32 bits, of which bits [1:0] are ignored (R140). -/
def windowAddress (a : Nat) : Nat := a % 2 ^ 32 / 4 * 4

/-- WINDOW_READ. -/
def State.windowRead (s : State) (address count : Nat) : State :=
  if s.sys.hung.isSome then s.spiHung (6 + 5 * count)
  else
    let st := s.statusByte
    let s1 := s.spiBegin
    if count = 0 || 16 < count then (s1.modCmd Cmd.countFraming).sendMiso [st]
    else
      let a := windowAddress address
      let (s2, words, done) := s1.burst a count a
      s2.sendMiso (st :: zeros 5 ++ [0xFF] ++ (words.map fun v => (0x5A : Byte) :: le 4 v).flatten ++ (if done then [] else [0xFF]))

/-- WINDOW_WRITE. -/
def State.windowWrite (s : State) (address data : Nat) : State :=
  if s.sys.hung.isSome then s.spiHung 10
  else
    let st := s.statusByte
    let s1 := s.spiBegin
    let a := windowAddress address
    let v := data % 2 ^ 32
    match s1.writeWord a v with
    | some (ok, s2) => s2.sendMiso (st :: zeros 8 ++ [0xFF, if ok then 0x5A else 0xE1])
    | none =>
      ({ s1 with sys := { s1.sys with hung := (blockOf (a / 2 ^ 16)).map fun b => { block := b, address := a, write := some v } } }).sendMiso
        (st :: zeros 8 ++ [0xFF])

/-! ### Transactions -/

/-- The command bytes of Table 06-5. -/
def packetCommand : Nat := 1
def spiCommand (c : Nat) : Bool := 1 ≤ c && c ≤ 5

/-- A transaction whose command byte Table 06-5 does not give is ignored and counted (R137); its first byte on HS_MISO is the status
byte, which every transaction returns (R138), and the rest is zero (log 104). -/
def State.unknownCommand (s : State) (len : Nat) : State :=
  if s.sys.hung.isSome then s.spiHung (1 + len)
  else (s.spiBegin.sendMiso (s.statusByte :: zeros len)).modCmd Cmd.countFraming

/-- A command byte of another row of Table 06-5 belongs to that row. -/
def execWritePacket (transaction : Transaction) (s : State) : Host.Outcome State Fault Refusal :=
  if transaction.command = packetCommand then .next (s.writePacket transaction.bytes)
  else if spiCommand transaction.command then .next s
  else .next (s.unknownCommand transaction.bytes.length)

def execReadPacket (count : Nat) (s : State) : Host.Outcome State Fault Refusal := .next (s.readPacket count)

def execWindowRead (address count : Nat) (s : State) : Host.Outcome State Fault Refusal :=
  .next (s.windowRead address count)

def execWindowWrite (address data : Nat) (s : State) : Host.Outcome State Fault Refusal :=
  .next (s.windowWrite address data)

/-- STATUS returns the status byte. -/
def execStatus (s : State) : Host.Outcome State Fault Refusal :=
  .next (if s.sys.hung.isSome then s.spiHung 1 else s.spiBegin.sendMiso [s.statusByte])

/-! ### Accesses of one register -/

def execCmdErrorsRead (s : State) : Host.Outcome State Fault Refusal := .next (s.windowRead 0x10004 1)

def execPendantCountRead (s : State) : Host.Outcome State Fault Refusal := .next (s.windowRead 0xB000C 1)

def execSlolosErrorsRead (s : State) : Host.Outcome State Fault Refusal := .next (s.windowRead 0x90004 1)

/-- One register counts for both ports (Table 14-10): the port does not choose. -/
def execClaspCountRead (_port : Nat) (s : State) : Host.Outcome State Fault Refusal := .next (s.windowRead 0xA0004 1)

def execMemiStatusRead (s : State) : Host.Outcome State Fault Refusal := .next (s.windowRead 0xC0000 1)

def execMemiCorrRead (mem : Nat) (s : State) : Host.Outcome State Fault Refusal :=
  .next (s.windowRead (0xC0020 + 4 * mem) 1)

def execTimerCapstatRead (timer : Nat) (s : State) : Host.Outcome State Fault Refusal :=
  .next (s.windowRead (0x20018 + timerOffset timer) 1)

def execTimerCaptureRead (timer : Nat) (s : State) : Host.Outcome State Fault Refusal :=
  .next (s.windowRead (0x20014 + timerOffset timer) 1)

def execTimeSysLoRead (s : State) : Host.Outcome State Fault Refusal := .next (s.windowRead 0x20000 1)

def execTimerCountLatchRead (timer : Nat) (s : State) : Host.Outcome State Fault Refusal :=
  .next (s.windowRead (0x20004 + timerOffset timer) 1)

def execTimeEpochNumRead (s : State) : Host.Outcome State Fault Refusal := .next (s.windowRead 0x20800 1)

def execTimerCompareWrite (timer value : Nat) (s : State) : Host.Outcome State Fault Refusal :=
  .next (s.windowWrite (0x2000C + timerOffset timer) value)

def execTimerPeriodWrite (timer value : Nat) (s : State) : Host.Outcome State Fault Refusal :=
  .next (s.windowWrite (0x20008 + timerOffset timer) value)

def execTimerCountWrite (timer value : Nat) (s : State) : Host.Outcome State Fault Refusal :=
  .next (s.windowWrite (0x20004 + timerOffset timer) value)

def execMeasViewHoldWrite (hold : Bool) (s : State) : Host.Outcome State Fault Refusal :=
  .next (s.windowWrite 0x60008 (bit hold))

end Sys2Proof.Machine
end

