-- ==== Sys2Proof/Machine/Certificate.lean ====
section
/-!
DEFINITION. The limit certificate (05, R97 to R102): its checks, what its taking effect does to the values in force, the
commands CERT_LOAD, CERT_READ and FENCE_STATUS, and the application core's writes through the fence (R97, R11).
-/
namespace Sys2Proof.Machine

/-! ### Status codes of the chapter, flash and its window (R89, R90, R395) -/

def stBadSignature : Byte := 0x78
def stOutOfOrder : Byte := 0x79
def stFlashFail : Byte := 0x7A
def stRollback : Byte := 0x7B
def stNoSession : Byte := 0x7C
def stHashMismatch : Byte := 0x7D
def stJournalFull : Byte := 0x7E

/-- A command in a state that its table does not list (R116). -/
def inState (s : State) (l : List LcState) : Option Answer := need (l.contains s.lc) stLocked

/-- Programming and erasing are permitted at the junction reading of the latest read (R90, R395). -/
def State.flashTemp (s : State) : Bool :=
  match s.therm.reading with
  | some t => -400 ≤ t && t ≤ 1500
  | none => false

/-- A flash operation is in progress, or a certificate is held or being verified (R89). -/
def State.flashBusy (s : State) : Bool :=
  s.flash.op != .none || s.geode.heldCert.isSome || s.geode.checking.isSome

/-- A copy or a sector is left to be erased (R102, R111). -/
def Flash.leftovers (f : Flash) : Bool := f.certA == CertCopy.partErased || f.certB == CertCopy.partErased || !f.jOtherBlank

/-- The operation is over; what is left to be erased is erased next, once Eupefen runs (Table 05-3, R111). -/
def State.flashIdle (s : State) : State :=
  s.modFlash fun f => { f with op := if s.eupefen && s.flashTemp && f.leftovers then .certErase else .none }

/-- Ends the command in flight of a key. -/
def State.finishKey (s : State) (k : FlightKey) (a : Answer) : State :=
  match s.findFlight k with
  | some f => s.finish f a
  | none => s

/-! ### Checks (R92, R101, R102) -/

/-- An integrator slot is programmed and not revoked. -/
def Otp.ikeyActive (o : Otp) (n : Nat) : Bool := n < 4 && o.iProgrammed.getLsbD n && !o.iRevoked.getLsbD n

/-- The hash of an integrator slot. -/
def Otp.ikey (o : Otp) (n : Nat) : List Byte := getAt o.ikeys n []

def certVersion (b : List Byte) : Nat := fieldAt b 8 4

/-- Ranges and reserved bytes (R101, step 6 of R102). -/
def certFieldsOk (b : List Byte) : Bool :=
  certLinkMin b ≤ certLinkMax b && certCv b ≤ 100 && certSlew b ≤ 7
    && ((List.range 4).all fun k => (certWindow b k).1 ≤ (certWindow b k).2)
    && ((List.range 7).all fun i => (certCoeff b i).1 ≤ (certCoeff b i).2)
    && fieldAt b 0x14 4 < 4 && ((List.range 4).all fun k => zeroAt b (0x2E + 16 * k) 2) && zeroAt b 0xA5 1 && zeroAt b 0xF0 16

/-- The checks of R102; `boot` leaves the version out. -/
def certCheck (s : State) (b : List Byte) (boot : Bool) : Option Answer :=
  firstOf
    [ need (b.length == 384 && b.take 4 == [0x4C, 0x4D, 0x43, 0x31] && byteAt b 4 == 1 && fieldAt b 6 2 == 384) stBadParam,
      need (s.otp.ikeyActive (byteAt b 5) && sha256 (slice b 0x100 64) == s.otp.ikey (byteAt b 5)) stBadSignature,
      need (ecdsaVerify (slice b 0x100 64) (b.take 0x140) (slice b 0x140 64)) stBadSignature,
      need (zeroAt b 0xC 8 || slice b 0xC 8 == s.otp.dieId) stBadParam,
      need (boot || s.flash.certHighest ≤ certVersion b) stRollback,
      need (certFieldsOk b) stBadParam ]

/-! ### The values in force under new limits (R12, R97, R102) -/

/-- The highest code up to `c`, or the lowest from `c` on, that satisfies a condition. -/
def codeDown (ok : Nat → Bool) (c : Nat) : Nat := ((List.range (c + 1)).reverse.find? ok).getD c
def codeUp (ok : Nat → Bool) (c : Nat) : Nat := ((List.range 1024).find? fun x => c ≤ x && ok x).getD c

/-- Host target, plan, share and link voltage of a lane (classes 1 to 3 and 5). -/
def State.clampLaneValues (s : State) (k : Nat) : State :=
  let boosting := (s.lane k).fn == .boost && (s.lane k).mode.running
  let amps := fun (s : State) (i : Nat) => s.clampMax (if boosting then 3 else 2) i fun b => if boosting then certIboost b k else certIcharge b k
  let s1 := match (s.lane k).host with
    | some (v, i) =>
      let (v1, t) := s.clampMax 1 v fun b => certVout b k
      let (i1, t1) := amps t i
      t1.modLane k fun l => { l with host := some (v1, i1) }
    | none => s
  let s2 := match (s1.lane k).plan with
    | some (v, i) =>
      let (v1, t) := s1.clampMax 1 v fun b => certVout b k
      t.modLane k fun l => { l with plan := some (v1, Nat.min i (s1.limitOr i fun b => certIcharge b k)) }
    | none => s1
  let s3 := match (s2.lane k).share with
    | some i =>
      let (i1, t) := amps s2 i
      t.modLane k fun l => { l with share := some i1 }
    | none => s2
  if (s3.lane k).linkHold = 0 then s3
  else
    let (v, t) := s3.clampTo 5 (s3.lane k).linkHold fun b => (certLinkMin b, certLinkMax b)
    t.modLane k fun l => { l with linkHold := v.toNat }

/-- The coefficients of one set of a lane, one by one (class 8, R98). -/
def State.clampSet (s : State) (k set : Nat) (l : List Int) : List Int × State :=
  (l.zipIdx).foldl (fun a x =>
    let (v, t) := a.2.clampCoeff k set x.2 x.1
    (a.1 ++ [v], t)) ([], s)

/-- A period for a lane: one that is not OFF takes it at its next frame start (R178). -/
def Lane.askPeriod (l : Lane) (p : Nat) : Lane := if laneIsOff l then { l with period := p } else { l with newPeriod := some p }

/-- Profile flags, frequency and coefficients of a lane (classes 4, 5, 8, 0x0B, 0x0D); a reversal to BOOST that waits counts as BOOST
(R189). -/
def State.clampLaneProfile (s : State) (k : Nat) : State :=
  match (s.lane k).body, s.limits with
  | some b, some c =>
    let l := s.lane k
    let slow := periodSteps (certFsw c k)
    let s1 := if slow ≤ l.newPeriod.getD l.period then s
      else ((s.countClamps 4 1).modLane k fun l => l.askPeriod slow).replan k
    let s2 := if l.extended && !certExtended c then (s1.countClamps 0x0B 1).modLane k fun l => { l with extended := false } else s1
    let (hold, s3) := if bitAt b 3 2 then s2.clampTo 5 (fieldAt b 0x88 4) fun b => (certLinkMin b, certLinkMax b)
      else ((fieldAt b 0x88 4 : Int), s2)
    let (buck, s4) := s3.clampSet k 0 l.buck
    let (boost, s5) := s4.clampSet k 1 l.boost
    let s6 := s5.modLane k fun l => { l with body := some (putField b 0x88 4 hold.toNat), buck := buck, boost := boost }
    if ((s6.lane k).fn == .boost || (s6.lane k).goal == .boost) && !(laneIsOff (s6.lane k)) && !certBoost c then (s6.countClamps 0x0D 1).stopLane k else s6
  | _, _ => s

/-- A field of a channel record, in place. -/
def State.putChan (s : State) (k off len v : Nat) : State :=
  s.modChan k fun c => { c with body := c.body.map fun b => putField b off len v }

/-- A comparator code of a channel that lies beyond its limit moves to the nearest one within it. -/
def State.clampCode (s : State) (k off : Nat) (ok : List Byte → Nat → Bool) (up : Bool) : State :=
  let b := (s.chan k).body.getD []
  let c := fieldAt b off 2
  if ok b c then s else (s.countClamps 6 1).putChan k off 2 (if up then codeUp (ok b) c else codeDown (ok b) c)

/-- Trip thresholds and input limit of a channel (classes 6 and 7). -/
def State.clampChan (s : State) (k : Nat) : State :=
  match (s.chan k).body, s.limits with
  | some b, some c =>
    let amps := fun (off : Nat) (b : List Byte) (v : Nat) => decide (codeAmps (putField b off 2 v) off ≤ certChanImax c k)
    let s1 := s.clampCode k 6 (amps 6) false
    let s2 := s1.clampCode k 8 (amps 8) true
    let s3 := if 2 ≤ k && k ≤ 4 then s2.clampCode k 0xA (amps 0xA) true else s2
    let s4 := s3.clampCode k 4 (fun b v => v * 1800 * fieldAt b 0x18 4 / (1024 * 1000) ≤ certChanVmax c k) false
    let (p, s5) := s4.clampMax 6 (fieldAt b 0x1C 4) fun _ => certChanImax c k
    let s6 := s5.putChan k 0x1C 4 p
    if 4 ≤ k then s6
    else
      let (i, s7) := s6.clampMax 7 (fieldAt b 0x2C 4) fun _ => certSource c k
      s7.putChan k 0x2C 4 i
  | _, _ => s

/-- Link voltages of the power path, and the keep-alive voltage of its record (class 5). -/
def State.clampPath (s : State) : State :=
  let s1 := match s.path.body with
    | some b =>
      let (v, t) := s.clampTo 5 (fieldAt b 0x0C 4) fun c => (certLinkMin c, certLinkMax c)
      t.modPath fun p => { p with body := some (putField b 0x0C 4 v.toNat) }
    | none => s
  if s1.path.linkTarget = 0 then s1
  else
    let (v, t) := s1.clampTo 5 s1.path.linkTarget fun c => (certLinkMin c, certLinkMax c)
    t.modPath fun p => { p with linkTarget := v.toNat }

/-- The request of a Clasp record: its current by the tie's source limit, its range by the link's (classes 5 and 7). -/
def State.clampClasp (s : State) (i : Nat) : State :=
  match (s.port i).body with
  | some b =>
    let (a, s1) := s.clampMax 7 (fieldAt b 4 4) fun c => certSource c (tieOf i)
    let (lo, s2) := s1.clampTo 5 (fieldAt b 8 4) fun c => (certLinkMin c, certLinkMax c)
    let (hi, s3) := s2.clampTo 5 (fieldAt b 0xC 4) fun c => (certLinkMin c, certLinkMax c)
    s3.modPort i fun p => { p with body := some (putField (putField (putField b 4 4 a) 8 4 lo.toNat) 0xC 4 hi.toNat) }
  | none => s

/-- The slew code of the stored setpoint (class 0x0C), then its target. -/
def State.clampSetpoint (s : State) : State :=
  let (v, s1) := if s.pendant.stored then s.clampMax 0x0C s.pendant.slew certSlew else (s.pendant.slew, s)
  (s1.modPendant fun p => { p with slew := v }).clampPendant

/-- The charge window of a strand narrows to the intersection where it is used; a window that lies beyond is one clamp
(class 0x0A). -/
def State.clampWindow (s : State) (n : Nat) : State :=
  match (s.strand n).body, s.limits with
  | some b, some c =>
    let own := if fieldAt b 0x3A 2 = 0x7FFF then chemWindow (byteAt b 0) else (sfieldAt b 0x3A 2, sfieldAt b 0x3C 2)
    let w := certWindow c (byteAt b 0)
    if own.1 < w.1 || w.2 < own.2 then s.countClamps 0x0A 1 else s
  | _, _ => s

/-- Every actuator value in force against the limits in force. -/
def State.clampAll (s : State) : State :=
  let s1 := (List.range 4).foldl (fun s k => (s.clampLaneProfile k).clampLaneValues k) s
  let s2 := (List.range 6).foldl State.clampChan s1
  let s3 := (List.range 16).foldl State.clampWindow s2
  ((s3.clampPath.clampClasp 0).clampClasp 1).clampSetpoint

/-! ### CERT_LOAD (R102) -/

/-- BUSY at receipt: a flash operation, a verification, or a certificate held for another boundary. -/
def certBusy (s : State) (f : Flight) : Bool :=
  s.flash.op != .none || s.geode.checking.isSome || s.geode.heldCert.any fun h => h.epoch ≠ f.epoch

/-- At its boundary: the window of R90, then the certificate takes effect and its writing begins. -/
def runCertLoad (s : State) (f : Flight) : State × Option Answer :=
  match s.geode.heldCert with
  | some h =>
    if !(h.by_ == f.key) then answer s stSuperseded
    else
      let s1 := s.modGeode fun g => { g with heldCert := none }
      if !s.flashTemp then answer s1 stTempForbidden
      else later ((s1.modGeode fun g => { g with cert := some h.bytes, certBuiltin := false }).clampAll.modFlash fun y =>
        { y with op := .certWrite f.key h.bytes })
  | none => answer s stSuperseded

def opCertLoad : OpSpec :=
  { code := 0x0D05, sched := .scheduled, bcast := true, block := some .geode
    check := fun s f => firstOf [inState s [.develop, .field], needLength f 384, need (!certBusy s f) stBusy]
    accept := fun s f => (s.modFlight f.key fun g => { g with phase := .working }).modGeode fun g =>
      { g with checking := some { by_ := f.key, bytes := f.payload, epoch := f.epoch } }
    run := runCertLoad }

def execCertLoad (h : Hdr) (p : List Byte) (s : State) : Host.Outcome State Fault Refusal :=
  .next (receive opCertLoad h p s)

/-- Less than 10 us remain before the boundary that opens epoch `e`, or it is past. -/
def State.pastCutoff (s : State) (e : Nat) : Bool :=
  let d := (e + 2 ^ 32 - s.time.epoch) % 2 ^ 32
  d = 0 || 2 ^ 31 ≤ d || (d = 1 && s.ticksLeft < 10 * Config.ticksPerUs)

/-- The certificate passes: it is held, and one held for the same boundary is superseded. -/
def State.holdCert (s : State) (h : HeldCert) (f : Flight) : State :=
  let s1 := match s.geode.heldCert with
    | some old => s.finishKey old.by_ [stSuperseded]
    | none => s
  (((s1.modGeode fun g => { g with heldCert := some h }).modFlight f.key fun g => { g with phase := .waiting }).answerAccepted
    { f with phase := .waiting })

/-- The verification ends: ACCEPTED, or the first failure of R102. -/
def execCertVerified (s : State) : Host.Outcome State Fault Refusal :=
  match s.geode.checking with
  | none => .next s
  | some h =>
    let s1 := s.modGeode fun g => { g with checking := none }
    match s.findFlight h.by_ with
    | none => .next s1
    | some f =>
      .next (if s.pastCutoff h.epoch then s1.finish f [stTooLate]
        else match certCheck s h.bytes false with
          | some a => s1.finish f a
          | none => s1.holdCert h f)

/-- The erase of a copy begins: until it is done the copy is partly erased (R102, step 4). -/
def Flash.eraseCopy (f : Flash) (a : Bool) : Flash :=
  if f.copy a == CertCopy.blank then { f with op := .none } else { f.setCopy a .partErased with op := .certErase }

/-- The copy is written and committed: the version is recorded, OK is sent, and the erase of the other copy begins. Outside
the window the copy stays uncommitted (R395). -/
def execCertCommitted (s : State) : Host.Outcome State Fault Refusal :=
  match s.flash.op with
  | .certWrite k b =>
    let a := s.flash.writesA
    .next (if s.flashTemp then
        ((s.modFlash fun f =>
          { f.setCopy a (.committed b) with certHighest := Nat.max f.certHighest (certVersion b) }).finishKey k [stOk]).modFlash
            fun f => f.eraseCopy (!a)
      else (s.modFlash fun f => { f.setCopy a .uncommitted with op := .none }).finishKey k [stTempForbidden])
  | _ => .next s

def CertCopy.erased (c : CertCopy) : CertCopy := if c == .partErased then .blank else c

/-- The erase completes. -/
def execCertEraseDone (s : State) : Host.Outcome State Fault Refusal :=
  match s.flash.op with
  | .certErase =>
    .next ((s.modFlash fun f => { f with certA := f.certA.erased, certB := f.certB.erased, jOtherBlank := true }).flashIdle)
  | _ => .next s

/-! ### CERT_READ and FENCE_STATUS -/

def notScrapped : List LcState := [.blank, .develop, .field, .ret]

def opCertRead : OpSpec :=
  { code := 0x0D06, sched := .unscheduled, bcast := false, block := some .geode
    check := fun s f => firstOf [inState s notScrapped, needLength f 0]
    run := fun s _ => match s.geode.cert with
      | some b => okayWith s b
      | none => answer s stNotReady }

def opFenceStatus : OpSpec :=
  { code := 0x0D07, sched := .unscheduled, bcast := false, block := some .geode
    check := fun s f => firstOf [inState s notScrapped, needLength f 1, need (byteAt f.payload 0 < 2) stBadParam]
    run := fun s f =>
      okayWith (if bitAt f.payload 0 0 then s.modGeode fun g => { g with clampCount := 0, lastClass := 0, discards := 0 } else s)
        (le 4 s.geode.fenceReg) }

def execCertRead (h : Hdr) (p : List Byte) (s : State) : Host.Outcome State Fault Refusal := .next (receive opCertRead h p s)

def execFenceStatus (h : Hdr) (p : List Byte) (s : State) : Host.Outcome State Fault Refusal :=
  .next (receive opFenceStatus h p s)

/-! ### The application core's writes (R11, R74, R97) -/

/-- A lane's voltage and current setpoint: the host's where a host has set one, the plan's otherwise (R185). -/
def Lane.aim (l : Lane) (v i : Nat) : Lane :=
  if l.host.isSome then { l with host := some (v, i) } else { l with plan := some (v, i) }

/-- The class and the limit of a lane's current. -/
def State.clampAmps (s : State) (k i : Nat) : Nat × State :=
  if (s.lane k).fn == .boost then s.clampMax 3 i fun b => certIboost b k else s.clampMax 2 i fun b => certIcharge b k

/-- The places of a channel's thresholds in its record, with their sizes. -/
def thresholdSize (off : Nat) : Nat :=
  if off = 4 || off = 6 || off = 8 || off = 0xA then 2 else if off = 0x1C then 4 else 0

/-- An actuator value that the application core writes for lane, channel or strand `k`, through the fence: a value beyond its field is replaced by the limit, and the
clamp is counted (R97, Table 05-5). -/
def State.writeActuator (s : State) (k : Nat) : Actuator → State
  | .laneTarget mv ma =>
    let (v, s1) := s.clampMax 1 mv fun b => certVout b k
    let (i, s2) := s1.clampAmps k ma
    s2.modLane k fun l => l.aim v i
  | .laneShare ma =>
    let (i, s1) := s.clampAmps k ma
    s1.modLane k fun l => { l with share := some i }
  | .lanePeriod p => ((s.modLane k fun l => l.askPeriod p).replan k).clampLaneProfile k
  | .linkHold mv =>
    let (v, s1) := s.clampTo 5 mv fun b => (certLinkMin b, certLinkMax b)
    s1.modLane k fun l => { l with linkHold := v.toNat }
  | .threshold off code =>
    if thresholdSize off = 0 then s else (s.putChan k off (thresholdSize off) code).clampChan k
  | .sourceLimit ma => if 4 ≤ k then s else (s.putChan k 0x2C 4 ma).clampChan k
  | .coeffs boost l =>
    let (v, s1) := s.clampSet k (bit boost) (l.take 7)
    s1.modLane k fun x => if boost then { x with boost := v } else { x with buck := v }
  | .drop mv =>
    let (d, s1) := s.clampMax 9 mv fun b => certCv b * (((s.lane k).plan.map (·.1)).getD 0 - (s.lane k).drop) / 10000
    s1.modLane k fun l => { l with drop := d }
  | .window lo hi =>
    (s.modStrand k fun x =>
      { x with body := x.body.map fun b => putField (putField b 0x3A 2 (unsigned 16 lo)) 0x3C 2 (unsigned 16 hi) }).clampWindow k
  | .extended on => (s.modLane k fun l => { l with extended := on }).clampLaneProfile k
  | .pendant mv slew => (s.modPendant fun p => { p with stored := true, target := mv, slew := slew }).clampSetpoint
  | .boost =>
    if s.limits.isSome && !s.boostPermitted then (s.countClamps 0x0D 1).stopLane k else s.runIn k .boost

/-- A write to a fence, key or life-cycle register is discarded, counted, and raises a fence event (R11, R99). -/
def State.discardWrite (s : State) : State :=
  s.modGeode fun g => { g with discards := satAdd 255 g.discards 1, epDiscard := true }

/-- A write by the application core to a register of the window: one to a stopped block stalls the core, one to the Geode's registers
is discarded, one to any other register takes effect. -/
def State.coreRegister (s : State) (address data : Nat) : State :=
    let a := windowAddress address
    match blockOf (a / 2 ^ 16) with
    | none => s
    | some .geode => s.discardWrite
    | some b =>
      if s.fused b then s
      else if !s.blockRuns b then
        (s.modSys fun y => { y with coreHung := some { block := b, address := a, write := some (data % 2 ^ 32) } }).modGeode
          fun g => { g with stalled := true }
      else (s.writeReg b (a % 2 ^ 16) (data % 2 ^ 32)).getD s

/-- A write by the application core: to a register of the window, or of an actuator value of Table 05-5, which passes the fence. The
spec gives the actuator registers no addresses, so the write names its class and its lane, channel or strand (log 44). -/
def execAppCoreActuatorWrite (place : Nat) (write : CoreWrite) (s : State) : Host.Outcome State Fault Refusal :=
  if !s.coreRuns then .next s
  else match write with
    | .register data => .next (s.coreRegister place data)
    | .actuator value => .next (s.writeActuator place value)

end Sys2Proof.Machine
end

