-- ==== Sys2Proof/Machine/HostPackets.lean ====
section
/-!
DEFINITION. Command handling (06): the CAN FD binding (R142 to R144), packets that fail the first checks (R121, R122), and the
opcodes of Table 06-12.
-/
namespace Sys2Proof.Machine

/-! ### The CAN FD binding (R142 to R144) -/

/-- A CAN binding record that satisfies Table 06-6. -/
def canBodyOk (b : List Byte) : Bool :=
  byteAt b 0 ≤ 1 && byteAt b 1 ≤ 2 && byteAt b 2 ≤ 3 && byteAt b 3 ≤ 254 && fieldAt b 4 2 < 2 ^ 13 && byteAt b 6 ≤ 254
    && zeroAt b 7 5

def CanCtl.ownNode (x : CanCtl) : Nat := match x.body with
  | some b => byteAt b 3
  | none => 0

def CanCtl.base (x : CanCtl) : Nat := match x.body with
  | some b => fieldAt b 4 2
  | none => 0

/-- The padding that a frame of `n` bytes can hold: less than the step from the CAN FD data length below. -/
def canPadding (n : Nat) : Nat :=
  if n ≤ 8 then 0 else if n ≤ 24 then 3 else if n ≤ 32 then 7 else 15

/-- The packet of a complete reassembly, without the padding of its last frame, which is ignored whatever it holds: the Length field
gives its end. -/
def canTrim (bytes : List Byte) (last : Nat) : List Byte :=
  let n := 16 + fieldAt bytes 6 2
  if n ≤ bytes.length && bytes.length ≤ n + canPadding last then bytes.take n else bytes

/-! ### Frames that the die sends -/

/-- The next CAN FD data length. -/
def canLength (n : Nat) : Nat := if n ≤ 8 then n else ([12, 16, 20, 24, 32, 48, 64].find? (n ≤ ·)).getD 64

/-- The frames of a packet of `n` bytes. -/
def canCount (n : Nat) : Nat := ceilDiv n 63

/-- Frame `i` of a packet: the segment header, up to 63 bytes of the packet, and the padding (R144). -/
def canData (packet : List Byte) (i : Nat) : List Byte :=
  let d := slice packet (63 * i) 63
  BitVec.ofNat 8 (128 * bit (i == 0) + 64 * bit (i + 1 == canCount packet.length) + i % 64) :: d
    ++ zeros (canLength (d.length + 1) - (d.length + 1))

/-- The identifier of a frame to a node (R143). -/
def CanCtl.identTo (x : CanCtl) (node : Nat) : Nat := x.base * 2 ^ 16 + x.ownNode * 2 ^ 8 + node

/-- The next frame of a packet is sent. -/
def CanCtl.send (x : CanCtl) (o : OutItem) : CanCtl :=
  { x with sent := x.sent + 1, frame := some { ident := x.identTo o.node, bytes := canData o.pkt.bytes x.sent } }

/-- A reassembly is discarded and counted. -/
def State.canDiscard (s : State) (i node : Nat) : State :=
  (s.modCmd fun c => c.setCan i { c.can i with reass := (c.can i).reass.filter fun r => r.node != node }).modCmd Cmd.countFraming

/-- The origin of a controller. -/
def canOrigin (i : Nat) : Origin := if i = 0 then .can0 else .can1

/-- A reassembly has grown by a frame of `len` bytes; with its last segment the packet is complete. -/
def State.canStore (s : State) (i : Nat) (r : Reass) (isLast : Bool) (len : Nat) : State :=
  let rest := fun (x : CanCtl) => x.reass.filter fun y => y.node != r.node
  if isLast then
    s.modCmd fun c =>
      { c.setCan i { c.can i with reass := rest (c.can i) } with
        inbox := c.inbox ++ [{ origin := canOrigin i, node := r.node, bytes := canTrim r.bytes len }] }
  else s.modCmd fun c => c.setCan i { c.can i with reass := rest (c.can i) ++ [r] }

/-- A segment from a source (R144). -/
def State.canSegment (s : State) (i node : Nat) (hd : Byte) (data : List Byte) : State :=
  let isFirst := hd.getLsbD 7
  let isLast := hd.getLsbD 6
  let num := hd.toNat % 64
  let len := data.length + 1
  match (s.cmd.can i).reass.find? (fun r => r.node == node), isFirst with
  | none, false => s
  | some r, false =>
    if num = r.next then s.canStore i { r with next := (num + 1) % 64, bytes := r.bytes ++ data } isLast len
    else s.canDiscard i node
  | old, true =>
    let s1 := if old.isSome then s.canDiscard i node else s
    if num ≠ 0 || 4 ≤ (s1.cmd.can i).reass.length then s1.modCmd Cmd.countFraming
    else s1.canStore i { node := node, next := 1, bytes := data } isLast len

/-- A frame of the binding, addressed to this node (R143). -/
def CanCtl.accepts (x : CanCtl) (ident : Nat) : Bool :=
  ident / 2 ^ 16 % 2 ^ 13 == x.base && ident % 256 == x.ownNode

def execCanFrameReceived (controller ident : Nat) (fd : Bool) (bytes : List Byte) (s : State) :
    Host.Outcome State Fault Refusal :=
  match bytes with
  | [] => .next s
  | hd :: data =>
    .next (if controller < 2 && s.isReady .cmd && s.canOn controller && fd && (s.cmd.can controller).accepts ident then
        s.canSegment controller (ident / 256 % 256) hd data
      else s)

def execCanReassemblyTimeout (controller node : Nat) (s : State) : Host.Outcome State Fault Refusal :=
  .next (if controller < 2 && (s.cmd.can controller).reass.any (fun r => r.node == node) then s.canDiscard controller node
    else s)

def execCanBusOff (controller : Nat) (s : State) : Host.Outcome State Fault Refusal :=
  .next (if controller < 2 && s.canOn controller then
      s.modCmd fun c => c.setCan controller { c.can controller with busOff := true }
    else s)

def execCanBusOffRecovery (controller : Nat) (s : State) : Host.Outcome State Fault Refusal :=
  .next (if controller < 2 && (s.cmd.can controller).busOff then
      (s.modCmd fun c => c.setCan controller { c.can controller with busOff := false }).modCmd Cmd.countFraming
    else s)

/-- A CAN_CONFIG for this die that came over the controller it configures (R149). -/
def Flight.ownController (f : Flight) : Bool :=
  f.opcode == 0x0004 && f.target == 0 && !f.key.chain && f.key.origin.iface == some (byteAt f.payload 0 + 1)

def State.canConfigure (s : State) (p : List Byte) : State :=
  s.modCmd fun c => c.setCan (byteAt p 0) { c.can (byteAt p 0) with body := some (p.drop 4) }

/-- The reply of such a CAN_CONFIG has left: the new settings take effect where this die accepted them. -/
def State.canReconfigure (s : State) (x : OutItem) : State :=
  match x.frees.bind s.findFlight with
  | some f =>
    let own := if f.bcast then f.answers.any fun a => a.1 == 0 && granted a.2 else byteAt x.pkt.payload 0 == 0
    if f.ownController && own then s.canConfigure f.payload else s
  | none => s

/-- The oldest packet has left the controller with its last frame (R124, R149). -/
def State.canSent (s : State) (i : Nat) (x : OutItem) (rest : List OutItem) : State :=
  let s1 := s.modCmd fun c => (c.setOut (i + 1) rest).setCan i { c.can i with sent := 0 }
  ((s1.canReconfigure x).leftDie x).eventsLost (i + 1)

/-- A frame of the oldest packet leaves the controller; the frames of one packet are not interleaved with another's (R144). -/
def execCanFrameTransmitted (controller : Nat) (s : State) : Host.Outcome State Fault Refusal :=
  if controller < 2 && s.canOn controller then
    match s.cmd.out (controller + 1) with
    | x :: r =>
      let s1 := s.modCmd fun c => c.setCan controller ((c.can controller).send x)
      .next (if canCount x.pkt.bytes.length ≤ (s1.cmd.can controller).sent then s1.canSent controller x r else s1)
    | [] => .next s
  else .next s

/-! ### Packets that fail checks 1 to 3 (R121, R122) -/

/-- A packet can reach the engine from an origin. -/
def State.hears (s : State) (o : Origin) : Bool :=
  s.isReady .cmd && (match o with
    | .can0 => s.canOn 0
    | .can1 => s.canOn 1
    | _ => true)

/-- The reply to a damaged packet copies the header as it was received (R122). -/
def damagedReply (bytes : List Byte) (status : Byte) : Packet :=
  { Packet.ofBytes bytes with flags := getAt bytes 1 0 ||| 0x80, payload := [status] }

/-- Sends such a reply; it holds no tag. -/
def State.replyDamaged (s : State) (o : Origin) (node : Nat) (bytes : List Byte) (status : Byte) : State :=
  match o.iface with
  | some i => s.modCmd fun c =>
      c.setOut i (c.out i ++ [{ pkt := damagedReply bytes status, node := node, isEvent := false, frees := none }])
  | none => s

/-- Checks 1 to 3 of Table 06-2. A packet that passes them is left to its own row. -/
def execMalformedPacket (origin : Origin) (node : Nat) (bytes : List Byte) (s : State) : Host.Outcome State Fault Refusal :=
  let s1 := s.modCmd fun c => { c with inbox := c.inbox.erase { origin := origin, node := node, bytes := bytes } }
  if !s.hears origin then .next s1
  else if bytes.length < 16 || getAt bytes 0 0 ≠ 0xA7 then .next (s1.modCmd Cmd.countFraming)
  else if fieldAt bytes 6 2 + 16 ≠ bytes.length then .next (s1.replyDamaged origin node bytes stBadLength)
  else if !crc32Good bytes then
    .next ((s1.replyDamaged origin node bytes stBadCrc).modCmd fun c => { c with crcErr := satAdd 255 c.crcErr 1 })
  else .next s

/-! ### Opcodes of Table 06-12 -/

/-- DESIGN CHOICE (log 105): the reply to 1,024 bytes, whose payload is one byte longer than R118 lets a packet carry, is sent whole. -/
def opEcho : OpSpec :=
  { code := 0x0000, sched := .unscheduled, bcast := false
    check := fun _ _ => none
    run := fun s f => okayWith s f.payload }

def opDieInfo : OpSpec :=
  { code := 0x0001, sched := .unscheduled, bcast := false
    check := fun _ f => needLength f 0
    run := fun s _ => okayWith s
      ((s.otp.dieId ++ zeros 8).take 8 ++ le 4 s.sys.strapsReg ++ le 4 s.sys.readyReg ++ le 4 s.geodeReg ++ le 4 s.geode.build) }

/-- A scheduled command that its boundary has not applied yet (R129). -/
def Flight.isPending (g : Flight) (epoch : Nat) : Bool :=
  let d := (g.epoch + 2 ^ 32 - epoch) % 2 ^ 32
  g.sched && (g.phase == .waiting || g.phase == .forwarded) && d ≠ 0 && d < 2 ^ 31

/-- Fewer than 10 us remain before the command's boundary. -/
def State.cancelLate (s : State) (g : Flight) : Bool :=
  (g.epoch + 2 ^ 32 - s.time.epoch) % 2 ^ 32 == 1 && s.ticksLeft < 10 * Config.ticksPerUs

/-- The address that a CANCEL names: this die is 0. -/
def State.cancelTarget (s : State) (f : Flight) : Nat :=
  if s.isWorker && s.slolos.address ≠ 0 && byteAt f.payload 0 = s.slolos.address then 0 else byteAt f.payload 0

/-- The command that a CANCEL names by its target and its tag, within its own origin; a broadcast's target is 0. -/
def State.cancelNamed (s : State) (f : Flight) : Option Flight :=
  s.cmd.flights.find? fun g =>
    g.key == { f.key with tag := byteAt f.payload 1 } && g.isPending s.time.epoch
      && g.target == s.cancelTarget f

/-- Cancels this die's part of a command; a held certificate goes with its CERT_LOAD (R102). -/
def State.supersede (s : State) (g : Flight) : State :=
  let s1 := match s.geode.heldCert with
    | some h => if h.by_ == g.key then s.modGeode fun y => { y with heldCert := none } else s
    | none => s
  (s1.modFlight g.key fun x => { x with phase := .working }).finish g [stSuperseded]

/-- CANCEL (R129). A command forwarded to a worker is cancelled there; a broadcast on every die. -/
def runCancel (s : State) (f : Flight) : State × Option Answer :=
  match s.cancelNamed f with
  | none => answer s stBadParam
  | some g =>
    if g.bcast then
      if s.cancelLate g then answer s stTooLate
      else
        let s1 := g.queues.foldl
          (fun s k => s.sendDown (.packet (packetFrame k f.key.origin
            ({ f with payload := [0, BitVec.ofNat 8 g.key.tag] }.bytes 0)))) s
        okay (if g.phase == .waiting then s1.supersede g else s1)
    else if g.phase == .forwarded then
      later ((s.modFlight f.key fun x => { x with phase := .forwarded }).sendDown
        (.packet (packetFrame g.target f.key.origin (f.bytes g.target))))
    else if s.cancelLate g then answer s stTooLate
    else okay (s.supersede g)

def opCancel : OpSpec :=
  { code := 0x0002, sched := .unscheduled, bcast := true
    check := fun _ f => firstOf
      [needLength f 2, need (byteAt f.payload 0 < 64 && 0 < byteAt f.payload 1 && byteAt f.payload 1 < 128) stBadParam]
    run := runCancel }

def opEventRoute : OpSpec :=
  { code := 0x0003, sched := .unscheduled, bcast := true
    check := fun s f => firstOf
      [needLength f 12, need (byteAt f.payload 0 < (if s.otp.partWq then 1 else 3) && zeroAt f.payload 1 3) stBadParam]
    run := fun s f => okay (s.modCmd fun c =>
      { c with routes := setAt c.routes (byteAt f.payload 0) (BitVec.ofNat 64 (fieldAt f.payload 4 8)) }) }

def opCanConfig : OpSpec :=
  { code := 0x0004, sched := .unscheduled, bcast := true, mqOnly := true
    check := fun _ f => firstOf
      [needLength f 16, need (byteAt f.payload 0 < 2 && zeroAt f.payload 1 3 && canBodyOk (f.payload.drop 4)) stBadParam]
    run := fun s f => okay (if f.ownController then s else s.canConfigure f.payload) }

def opCmdStats : OpSpec :=
  { code := 0x0005, sched := .unscheduled, bcast := false
    check := fun _ f => firstOf [needLength f 1, need (byteAt f.payload 0 < 2) stBadParam]
    run := fun s f =>
      okayWith (if bitAt f.payload 0 0 then s.modCmd Cmd.clearErrors else s) (le 4 s.cmdStatusReg ++ le 4 s.cmd.errorsReg) }

def execEcho (h : Hdr) (p : List Byte) (s : State) : Host.Outcome State Fault Refusal := .next (receive opEcho h p s)

def execDieInfo (h : Hdr) (p : List Byte) (s : State) : Host.Outcome State Fault Refusal := .next (receive opDieInfo h p s)

def execCancel (h : Hdr) (p : List Byte) (s : State) : Host.Outcome State Fault Refusal := .next (receive opCancel h p s)

def execEventRoute (h : Hdr) (p : List Byte) (s : State) : Host.Outcome State Fault Refusal :=
  .next (receive opEventRoute h p s)

def execCanConfig (h : Hdr) (p : List Byte) (s : State) : Host.Outcome State Fault Refusal :=
  .next (receive opCanConfig h p s)

def execCmdStats (h : Hdr) (p : List Byte) (s : State) : Host.Outcome State Fault Refusal :=
  .next (receive opCmdStats h p s)

end Sys2Proof.Machine
end

