-- ==== Sys2Proof/Machine/Journal.lean ====
section
/-!
DEFINITION. The configuration journal (05, R109 to R112): the blob, its checks, JOURNAL_WRITE, JOURNAL_COMMIT, JOURNAL_READ,
JOURNAL_REMOVE, and FLASH_STATUS.
-/
namespace Sys2Proof.Machine

/-! ### The blob (R109, step 1 of R112) -/

/-- `n` records that fill the bytes exactly: type, instance, body. -/
def parseRecs : Nat → List Byte → Option (List (Nat × Nat × List Byte))
  | 0, b => if b.isEmpty then some [] else none
  | n + 1, b =>
    let len := fieldAt b 4 4
    if b.length < 8 || len % 4 ≠ 0 || b.length < 8 + len then none
    else (parseRecs n (b.drop (8 + len))).map fun r => (fieldAt b 0 2, fieldAt b 2 2, slice b 8 len) :: r

/-- The records of a blob that is whole. -/
def parseBlob (b : List Byte) : Option (List (Nat × Nat × List Byte)) :=
  if 20 ≤ b.length && b.take 4 == [0x49, 0x58, 0x42, 0x31] && fieldAt b 4 2 == 1 && fieldAt b 8 4 == b.length
      && crc32Good b then
    parseRecs (fieldAt b 6 2) (slice b 16 (b.length - 20))
  else none

/-- The number of instances of a record type that a chapter defines (step 2 of R112). -/
def recInstances : Nat → Nat
  | 0x0006 => 2 | 0x0007 => 1 | 0x0010 => 4 | 0x0011 => 1 | 0x0020 => 16 | 0x0030 => 6 | 0x0031 => 1
  | 0x0040 => 1 | 0x0050 => 1 | 0x0060 => 2 | 0x0070 => 4 | 0x0071 => 1 | 0x0080 => 1 | 0x0090 => 1
  | _ => 0

/-! ### The bodies, judged against the journal once the blob is committed (step 3 of R112) -/

/-- An epoch record: a length that R150 permits for no workers (R152). -/
def epochBodyOk (b : List Byte) : Bool :=
  b.length == 4 && fieldAt b 0 2 % 50 == 0 && 250 ≤ fieldAt b 0 2 && fieldAt b 0 2 ≤ 10000 && zeroAt b 2 2

/-- A lane that has a profile, or none, and nothing else. -/
def Lane.ofRecord : Option (List Byte) → Lane
  | some b => { Lane.reset with body := some b, legs := BitVec.ofNat 16 (fieldAt b 0 2) }
  | none => Lane.reset

/-- The configuration that a boot with these records would load, whatever runs now. -/
def State.withRecords (s : State) (l : List JRec) : State :=
  let body := bootBody l
  { s with
    flash := { s.flash with jRecs := l }
    conv := { s.conv with lanes := (List.range 4).map fun k => Lane.ofRecord (body 0x0010 k) }
    path := { s.path with
      body := body 0x0031 0
      chans := (List.range 6).map fun k => { Chan.reset with body := body 0x0030 k } }
    charge := { s.charge with strands := (List.range 16).map fun n => { Strand.reset with body := body 0x0020 n } }
    meas := { s.meas with
      modes := body 0x0071 0
      adcs := (List.range 4).map fun k => { Adc.reset with body := body 0x0070 k } }
    therm := { s.therm with body := body 0x0080 0 } }

/-- The check of one body; `j` is the state of `withRecords`. A record that conflicts with another gets the code that its
chapter names for a record, and BAD_PARAM otherwise (log 48). -/
def recordCheck (j : State) (type inst : Nat) (b : List Byte) : Option Answer :=
  match type with
  | 0x0006 => need (b.length == 12 && canBodyOk b) stBadParam
  | 0x0007 => need (epochBodyOk b) stBadParam
  | 0x0010 => firstOf
      [ need (profileOk b && !j.legConflict inst (BitVec.ofNat 16 (fieldAt b 0 2)) && j.bz4StrandOk inst (byteAt b 2)) stBadParam,
        j.profileFence inst b ]
  | 0x0011 => need (protBodyOk b) stBadParam
  | 0x0020 => firstOf [need (strandBodyOk b) stBadParam, j.strandFence b, need (j.accsFree 0x0020 b) 0xC1]
  | 0x0030 => firstOf
      [need (chanBodyOk inst b && j.chanRecordOk inst b) stBadParam, need (j.accsFree 0x0030 b) 0xC1, j.chanFence inst b]
  | 0x0031 => firstOf [need (pathBodyOk b) stBadParam, need (j.accsFree 0x0031 b) 0xC1, j.pathFence b]
  | 0x0040 => need (j.pendantBodyOk b) stBadParam
  | 0x0050 => need (chainBodyOk b) stBadParam
  | 0x0060 => firstOf [need (claspBodyOk b) stBadParam, j.claspFence inst (fieldAt b 4 4) (fieldAt b 8 4) (fieldAt b 0xC 4)]
  | 0x0070 => firstOf [need (tabBodyOk inst b) stBadParam, need (gainsOk j.meas.tables) 0xC0]
  | 0x0071 => firstOf [need (modesBodyOk b) stBadParam, need (j.namedAccs.all fun a => !modeRunning (some b) a) 0xC1]
  | 0x0080 => firstOf
      [need (thermBodyOk b) stBadParam, need (j.accsFree 0x0080 b) 0xC1]
  | 0x0090 => need (b.length == 16 && memiBodyOk b) stBadParam
  | _ => some [stBadParam]

/-- Numbers records from the next sequence number on. -/
def numberRecs (n : Nat) (l : List (Nat × Nat × List Byte)) : List JRec :=
  (l.zipIdx).map fun x => { type := x.1.1, inst := x.1.2.1, seqNo := (n + 1 + x.2) % 2 ^ 32, body := x.1.2.2, whole := true }

/-- The records of a commit, the blob-end record last. -/
def State.blobRecs (s : State) (l : List (Nat × Nat × List Byte)) : List JRec :=
  numberRecs s.flash.jSeq (l ++ [(0xF004, 0, [])])

/-- Steps 1 to 4 of R112. -/
def commitCheck (s : State) (b : List Byte) : Option Answer :=
  match parseBlob b with
  | none => some [stBadParam]
  | some l =>
    let new := s.blobRecs l
    let j := s.withRecords (s.flash.jRecs ++ new)
    firstOf
      [ need (l.all fun r => r.2.1 < recInstances r.1) stBadParam,
        firstOf (l.map fun r => recordCheck j r.1 r.2.1 r.2.2),
        need s.flashTemp stTempForbidden,
        need (s.flash.fits new || s.flash.fitsCompacted new) stJournalFull ]

/-! ### JOURNAL_WRITE and JOURNAL_COMMIT -/

def opJournalWrite : OpSpec :=
  { code := 0x0C10, sched := .unscheduled, bcast := true, block := some .geode
    check := fun s f => firstOf
      [ inState s [.develop, .field], need (5 ≤ f.payload.length && f.payload.length ≤ 1020) stBadLength,
        need (fieldAt f.payload 0 4 + (f.payload.length - 4) ≤ stagingSize) stBadParam ]
    run := fun s f => okay (s.modFlash fun y =>
      { y with staging := Memory.store y.staging (fieldAt f.payload 0 4) (f.payload.drop 4) }) }

/-- The blob of a JOURNAL_COMMIT: the bytes of the staging buffer that its length names. -/
def State.stagedBlob (s : State) (f : Flight) : List Byte := Memory.load s.flash.staging 0 (fieldAt f.payload 0 4)

def opJournalCommit : OpSpec :=
  { code := 0x0C11, sched := .unscheduled, bcast := true, block := some .geode
    check := fun s f => firstOf
      [ inState s [.develop, .field], needLength f 4, need (!s.flashBusy) stBusy,
        need (fieldAt f.payload 0 4 ≤ stagingSize) stBadParam, commitCheck s (s.stagedBlob f) ]
    run := fun s f =>
      let new := s.blobRecs ((parseBlob (s.stagedBlob f)).getD [])
      later (s.modFlash fun y => { y with op := .commit f.key new (!y.fits new) }) }

/-- The commit is done: all records and the blob-end record stand, and OK is sent. Outside the window of R90 no blob-end
record is written, so the records that were are ignored (R395). -/
def execJournalCommitDone (s : State) : Host.Outcome State Fault Refusal :=
  match s.flash.op with
  | .commit k l compact =>
    .next (if s.flashTemp then ((s.modFlash fun y => y.commitRecs l compact).finishKey k [stOk]).flashIdle
      else ((s.cutAppend (recsSize l - recSize 0) compact).finishKey k [stTempForbidden]).flashIdle)
  | _ => .next s

/-! ### JOURNAL_READ and JOURNAL_REMOVE -/

/-- The record of a pair that boot would load, of the chapters' types. DESIGN CHOICE (log 106): R110 keeps the types from
0xF000 up for the Geode itself and does not say whether JOURNAL_READ and JOURNAL_REMOVE reach them; here no record of such
a type is found, so both answer BAD_PARAM. -/
def Flash.configRec (f : Flash) (p : List Byte) : Option (List Byte) :=
  if fieldAt p 0 2 < 0xF000 then bootBody f.jRecs (fieldAt p 0 2) (fieldAt p 2 2) else none

def opJournalRead : OpSpec :=
  { code := 0x0C12, sched := .unscheduled, bcast := false, block := some .geode
    check := fun s f => firstOf [inState s [.develop, .field, .ret], needLength f 8]
    run := fun s f => match s.flash.configRec f.payload with
      | some b =>
        if fieldAt f.payload 4 4 < b.length then
          okayWith s (le 4 b.length ++ slice b (fieldAt f.payload 4 4) 1019)
        else answer s stBadParam
      | none => answer s stBadParam }

/-- The tombstone of a pair (R110). -/
def State.tombstone (s : State) (type inst : Nat) : JRec :=
  { type := 0xF002, inst := 0, seqNo := (s.flash.jSeq + 1) % 2 ^ 32, body := le 2 type ++ le 2 inst, whole := true }

def removeCheck (s : State) (p : List Byte) : Option Answer :=
  let t := s.tombstone (fieldAt p 0 2) (fieldAt p 2 2)
  firstOf
    [ need (s.flash.configRec p).isSome stBadParam,
      need s.flashTemp stTempForbidden,
      need (s.flash.fits [t] || s.flash.fitsCompacted [t]) stJournalFull ]

def opJournalRemove : OpSpec :=
  { code := 0x0C13, sched := .unscheduled, bcast := true, block := some .geode
    check := fun s f => firstOf
      [inState s [.develop, .field], needLength f 4, need (!s.flashBusy) stBusy, removeCheck s f.payload]
    run := fun s f =>
      let t := s.tombstone (fieldAt f.payload 0 2) (fieldAt f.payload 2 2)
      later (s.modFlash fun y =>
        { y with op := .tombstone f.key (fieldAt f.payload 0 2) (fieldAt f.payload 2 2) (!y.fits [t]) }) }

def execTombstoneCommitted (s : State) : Host.Outcome State Fault Refusal :=
  match s.flash.op with
  | .tombstone k t i compact =>
    .next (if s.flashTemp then
        ((s.modFlash fun y => y.commitRecs [s.tombstone t i] compact).finishKey k [stOk]).flashIdle
      else ((s.cutAppend 48 compact).finishKey k [stTempForbidden]).flashIdle)
  | _ => .next s

/-! ### FLASH_STATUS (R436) -/

/-- The operation in progress: 0 none, 1 program, 2 erase, 3 compaction. -/
def FlashOp.code : FlashOp → Nat
  | .none => 0
  | .updateErase _ => 2
  | .chunk _ _ _ _ => 1
  | .commit _ _ c => if c then 3 else 1
  | .tombstone _ _ _ c => if c then 3 else 1
  | .otp _ => 1
  | .lcWipe _ => 2
  | .certWrite _ _ => 1
  | .certErase => 2
  | .bootWipe => 2

def opFlashStatus : OpSpec :=
  { code := 0x0C00, sched := .unscheduled, bcast := false, block := some .geode
    check := fun s f => firstOf [inState s notScrapped, needLength f 0]
    run := fun s _ => okayWith s (le 1 s.flash.op.code ++ zeros 3 ++ le 4 s.flash.jFill ++ le 4 s.flash.jGen) }

def execFlashStatus (h : Hdr) (p : List Byte) (s : State) : Host.Outcome State Fault Refusal :=
  .next (receive opFlashStatus h p s)

def execJournalWrite (h : Hdr) (p : List Byte) (s : State) : Host.Outcome State Fault Refusal :=
  .next (receive opJournalWrite h p s)

def execJournalCommit (h : Hdr) (p : List Byte) (s : State) : Host.Outcome State Fault Refusal :=
  .next (receive opJournalCommit h p s)

def execJournalRead (h : Hdr) (p : List Byte) (s : State) : Host.Outcome State Fault Refusal :=
  .next (receive opJournalRead h p s)

def execJournalRemove (h : Hdr) (p : List Byte) (s : State) : Host.Outcome State Fault Refusal :=
  .next (receive opJournalRemove h p s)

end Sys2Proof.Machine
end

