-- ==== Sys2Proof/Machine/Firmware.lean ====
section
/-!
DEFINITION. Firmware images and their update (05, R103 to R108).
-/
namespace Sys2Proof.Machine

/-! ### Images (R92, R96, R103, R104) -/

/-- The signature of a header verifies against an active vendor slot. -/
def headerSigned (s : State) (h : List Byte) : Bool :=
  byteAt h 6 < 4 && !s.otp.vRevoked.getLsbD (byteAt h 6) && signedBy (getAt s.otp.vkeys (byteAt h 6) []) (slice h 0x38 64)
    (h.take 0xC0) (slice h 0xC0 64)

/-- The part mask includes this part. -/
def partIncluded (s : State) (h : List Byte) : Bool := bitAt h 0x14 (bit s.otp.partWq)

/-- The chunks of a body. -/
def bodyChunks (h : List Byte) : Nat := fieldAt h 0xC 4 / 512

/-- Body length, security version and reserved bytes of a header (Table 05-9). DESIGN CHOICE (log 102): a reserved byte that is not
zero, or a security version above 256, is answered BAD_PARAM with the part mask and the length. -/
def headerFieldsOk (h : List Byte) : Bool :=
  fieldAt h 0xC 4 % 512 == 0 && fieldAt h 0xC 4 ≤ 1572352 && zeroAt h 7 1 && zeroAt h 0x78 72 && fieldAt h 8 4 ≤ 256

/-- The header is one of an Eupefen image in the layout of Table 05-9; a patch image is LOCKED. DESIGN CHOICE (log 102): a wrong magic,
header version or image type is tested first and answered BAD_PARAM. -/
def headerCheck (s : State) (h : List Byte) : Option Answer :=
  firstOf
    [ need (h.take 4 == [0x45, 0x55, 0x50, 0x46] && byteAt h 4 == 1 && (byteAt h 5 == 1 || byteAt h 5 == 2)) stBadParam,
      need (byteAt h 5 == 1) stLocked,
      need (headerSigned s h) stBadSignature,
      need (s.otp.rollback ≤ fieldAt h 8 4) stRollback,
      need (partIncluded s h && headerFieldsOk h) stBadParam ]

/-- The body of a slot: its committed chunks. -/
def Slot.image (x : Slot) : List Byte := x.chunks.flatten

/-- The body is whole and its hash is the header's. -/
def Slot.hashOk (x : Slot) : Bool := x.chunks.length == bodyChunks x.header && sha256 x.image == slice x.header 0x18 32

/-- A slot is bootable (R96). -/
def State.bootable (s : State) (i : SlotId) : Bool :=
  let x := s.flash.slot i
  headerSigned s x.header && x.hashOk && s.otp.rollback ≤ x.version && partIncluded s x.header

def SlotId.other : SlotId → SlotId
  | .a => .b | .b => .a

/-- The target of an update: the slot that is not running; where none runs, the one that is not ACTIVE (R104). -/
def State.target (s : State) : SlotId := (s.geode.slotRunning.getD s.flash.active).other

/-! ### FW_UPDATE_BEGIN (R104, R106) -/

/-- The session of a header with the same signature. -/
def Flash.resumes (f : Flash) (h : List Byte) : Option Session :=
  match f.session with
  | some x => if x.erased && slice x.header 0xC0 64 == slice h 0xC0 64 then some x else none
  | none => none

/-- A new session number: a free value that is not the last one (log 46). -/
def State.newSession (s : State) : Nat × State :=
  let (n, s1) := s.takeNat
  let m := n % 65536
  (if m = s.flash.lastSession then (m + 1) % 65536 else m, s1)

/-- The states of Table 05-12 for the update commands. -/
def updateStates : List LcState := [.develop, .field, .ret]

def opFwUpdateBegin : OpSpec :=
  { code := 0x0C01, sched := .unscheduled, bcast := false, block := some .geode
    check := fun s f => firstOf
      [ inState s updateStates, needLength f 256,
        need ((s.flash.resumes f.payload).isSome || !s.flashBusy) stBusy,
        headerCheck s f.payload,
        need ((s.flash.resumes f.payload).isSome || s.flashTemp) stTempForbidden ]
    run := fun s f => match s.flash.resumes f.payload with
      | some x => okayWith s (le 2 x.number ++ le 2 x.next)
      | none =>
        let (n, s1) := s.newSession
        okayWith (s1.modFlash fun y =>
          { y.setSlot s.target Slot.blank with
            session := some { number := n, header := f.payload, target := s.target, next := 0, erased := false }
            lastSession := n
            op := .updateErase n })
          (le 2 n ++ le 2 0) }

/-- The Geode appends a record of its own to the journal. -/
def State.appendOwn (s : State) (type : Nat) : State :=
  let (r, s1) := s.ownRecord type
  s1.modFlash fun f => f.commitRecs [r] (!f.fits [r])

/-- The target slot is erased: the header is written, then the session record. -/
def execUpdateEraseDone (s : State) : Host.Outcome State Fault Refusal :=
  match s.flash.op with
  | .updateErase n =>
    .next (match s.flash.session with
      | some x =>
        if x.number = n && !x.erased then
          if s.flashTemp then
            ((s.modFlash fun f =>
              { f.setSlot x.target { Slot.blank with header := x.header } with
                session := some { x with erased := true } }).appendOwn 0xF001).flashIdle
          else (s.modFlash fun f => { f with session := none }).flashIdle
        else s.flashIdle
      | none => s.flashIdle)
  | _ => .next s

/-! ### FW_UPDATE_CHUNK (R105, R106) -/

/-- The session that a payload names. -/
def Flash.named (f : Flash) (p : List Byte) : Option Session :=
  match f.session with
  | some x => if x.erased && x.number = fieldAt p 0 2 then some x else none
  | none => none

/-- OUT_OF_ORDER with the index expected. -/
def outOfOrder (x : Session) : Answer := stOutOfOrder :: le 2 x.next

def chunkCheck (s : State) (p : List Byte) : Option Answer :=
  match s.flash.named p with
  | none => some [stNoSession]
  | some x =>
    if fieldAt p 2 2 = x.next && x.next < bodyChunks x.header then need s.flashTemp stTempForbidden
    else some (outOfOrder x)

/-- A chunk begins: its units are programmed, but never more than twice between erases (R89); after that they are only read back. -/
def Slot.program (x : Slot) : Slot := { x with programs := Nat.min 2 (x.programs + 1) }

def opFwUpdateChunk : OpSpec :=
  { code := 0x0C02, sched := .unscheduled, bcast := true, block := some .geode
    check := fun s f => firstOf
      [inState s updateStates, needLength f 516, need (!s.flashBusy) stBusy, chunkCheck s f.payload]
    run := fun s f => match s.flash.session with
      | some x =>
        let d := f.payload.drop 4
        later (s.modFlash fun y =>
          { y.setSlot x.target (y.slot x.target).program with
            op := .chunk f.key x.next d (((y.slot x.target).part.getD d) == d) })
      | none => answer s stNoSession }

/-- The chunk stands with its progress record. -/
def State.commitChunk (s : State) (x : Session) (data : List Byte) : State :=
  (s.modFlash fun f =>
    { f.setSlot x.target { f.slot x.target with chunks := (f.slot x.target).chunks ++ [data], part := none, programs := 0 } with
      session := some { x with next := x.next + 1 } }).appendOwn 0xF003

/-- The chunk's units have been read back. Units that hold other data from before an interruption never hold the chunk's; whether others
do, if need be after a second program of the same data (R105), the spec leaves open: a free bit (log 123). -/
def execChunkCommitted (s : State) : Host.Outcome State Fault Refusal :=
  match s.flash.op with
  | .chunk k i data readsBack =>
    match s.flash.session with
    | some x =>
      if x.next ≠ i || !x.erased then .next (s.finishKey k [stNoSession]).flashIdle
      else if !s.flashTemp then .next ((s.modFlash fun f => f.keepPart data).finishKey k [stTempForbidden]).flashIdle
      else
        let (equal, s1) := s.takeBit
        .next (if readsBack && equal then ((s1.commitChunk x data).finishKey k [stOk]).flashIdle
          else ((s1.modFlash fun f => { f with session := none }).finishKey k [stFlashFail]).flashIdle)
    | none => .next (s.finishKey k [stNoSession]).flashIdle
  | _ => .next s

/-! ### FW_UPDATE_FINISH and FW_UPDATE_ABORT (R107) -/

def finishCheck (s : State) (p : List Byte) : Option Answer :=
  match s.flash.named p with
  | none => some [stNoSession]
  | some x => if x.next = bodyChunks x.header then need s.flashTemp stTempForbidden else some (outOfOrder x)

def opFwUpdateFinish : OpSpec :=
  { code := 0x0C03, sched := .unscheduled, bcast := true, block := some .geode
    check := fun s f => firstOf
      [ inState s updateStates, needLength f 2, need (!s.flashBusy && s.geode.hashing.isNone) stBusy,
        finishCheck s f.payload ]
    run := fun s f => later (s.modGeode fun g => { g with hashing := some (f.key, fieldAt f.payload 0 2) }) }

/-- The hash is known: the slot is marked complete, or HASH_MISMATCH; the session is discarded either way. The slot record is written
when no other flash operation runs (R89), and only in the window of R90: outside it the session stays, and the answer is
TEMP_FORBIDDEN. -/
def execBodyHashDone (s : State) : Host.Outcome State Fault Refusal :=
  match s.geode.hashing with
  | none => .next s
  | some (k, n) =>
    let s1 := s.modGeode fun g => { g with hashing := none }
    if s.flash.op != .none then .next s
    else if !s.flashTemp then .next (s1.finishKey k [stTempForbidden])
    else .next (match s.flash.session with
      | some x =>
        if x.number ≠ n || !x.erased then s1.finishKey k [stNoSession]
        else
          let y := s.flash.slot x.target
          if y.hashOk then
            (s1.modFlash fun f => { f.setSlot x.target { y with complete := true } with session := none }).finishKey k [stOk]
          else (s1.modFlash fun f => { f with session := none }).finishKey k [stHashMismatch]
      | none => s1.finishKey k [stNoSession])

/-- The session that FW_UPDATE_ABORT names exists, erased or not. -/
def Flash.aborts (f : Flash) (p : List Byte) : Bool := f.session.any fun x => x.number = fieldAt p 0 2

def opFwUpdateAbort : OpSpec :=
  { code := 0x0C06, sched := .unscheduled, bcast := true, block := some .geode
    check := fun s f => firstOf [inState s updateStates, needLength f 2, need (s.flash.aborts f.payload) stNoSession]
    run := fun s _ => okay (s.modFlash fun y => { y with session := none }) }

/-! ### FW_ACTIVATE and FW_CONFIRM (R107, R108) -/

/-- The new slot: the one that an update fills, marked complete. -/
def State.newSlotReady (s : State) : Bool := (s.flash.slot s.target).complete

/-- Quiescence as R81 has it, then the window of R90. -/
def activateCheck (s : State) : Option Answer :=
  firstOf
    [ need s.newSlotReady stBadParam,
      (if s.quiescence = 0 || s.geode.stage == .recovery then none else some [stNotQuiescent, BitVec.ofNat 8 s.quiescence]),
      need s.flashTemp stTempForbidden ]

/-- The slot record is written and a SOFT reset follows; in RECOVERY the slot becomes ACTIVE at once (R107). -/
def State.activate (s : State) : State :=
  if s.geode.stage == .recovery then
    (((s.modOtp fun o => { o with rollback := Nat.max o.rollback (s.flash.slot s.target).version }).modFlash fun f =>
      { f with active := s.target, trial := none }).modSys fun y => { y with hint := 0 }).trigger causeSoft
  else ((s.modFlash fun f => { f with trial := some s.target }).modSys fun y => { y with hint := 1 }).trigger causeSoft

def opFwActivate : OpSpec :=
  { code := 0x0C04, sched := .either, bcast := true, block := some .geode
    check := fun s f => firstOf
      [ inState s updateStates, needLength f 4, need (fieldAt f.payload 0 4 == 0x4AC71E05) stBadParam,
        need (!s.flashBusy) stBusy, activateCheck s ]
    run := fun s f =>
      if f.sched then
        match activateCheck s with
        | some a => (s, some a)
        | none => later (s.dropFlight f.key).activate
      else okay s.activate }

/-- The slot on trial runs (R95). -/
def State.onTrial (s : State) : Bool := s.flash.trial.isSome && s.flash.trial == s.geode.slotRunning

/-- The trial slot becomes ACTIVE. -/
def State.confirm (s : State) : State :=
  match s.flash.trial with
  | some i => (s.modFlash fun f => { f with active := i, trial := none }).modSys fun y => { y with hint := 0 }
  | none => s

def opFwConfirm : OpSpec :=
  { code := 0x0C05, sched := .unscheduled, bcast := true, block := some .geode
    check := fun s f => firstOf
      [ inState s updateStates, needLength f 0, need s.onTrial stBadParam, need (!s.flashBusy) stBusy,
        need s.flashTemp stTempForbidden ]
    run := fun s f =>
      if s.runningVersion ≤ s.otp.rollback then okay s.confirm
      else later (s.modFlash fun y => { y with op := .otp f.key }) }

def execFwUpdateBegin (h : Hdr) (p : List Byte) (s : State) : Host.Outcome State Fault Refusal :=
  .next (receive opFwUpdateBegin h p s)

def execFwUpdateChunk (h : Hdr) (p : List Byte) (s : State) : Host.Outcome State Fault Refusal :=
  .next (receive opFwUpdateChunk h p s)

def execFwUpdateFinish (h : Hdr) (p : List Byte) (s : State) : Host.Outcome State Fault Refusal :=
  .next (receive opFwUpdateFinish h p s)

def execFwActivate (h : Hdr) (p : List Byte) (s : State) : Host.Outcome State Fault Refusal :=
  .next (receive opFwActivate h p s)

def execFwConfirm (h : Hdr) (p : List Byte) (s : State) : Host.Outcome State Fault Refusal :=
  .next (receive opFwConfirm h p s)

def execFwUpdateAbort (h : Hdr) (p : List Byte) (s : State) : Host.Outcome State Fault Refusal :=
  .next (receive opFwUpdateAbort h p s)

end Sys2Proof.Machine
end

