-- ==== Sys2Proof/Machine/LifeCycle.lean ====
section
/-!
DEFINITION. Life cycle, key slots and OTP options (05, R113 to R116).
-/
namespace Sys2Proof.Machine

def opLcStatus : OpSpec :=
  { code := 0x0D00, sched := .unscheduled, bcast := false, block := some .geode
    check := fun _ f => needLength f 0
    run := fun s _ => okayWith s (le 4 s.geodeReg ++ (s.otp.dieId ++ zeros 8).take 8) }

/-! ### LC_ADVANCE (R113, R114, Table 05-11) -/

/-- The state that a target code names. -/
def lcOf : Nat → Option LcState
  | 2 => some .field | 3 => some .ret | 4 => some .scrapped | _ => none

/-- The transitions that LC_ADVANCE makes. -/
def transition (a b : LcState) : Bool :=
  (a == .develop && b == .field) || (a == .field && b == .ret) || (a == .ret && b == .scrapped)
    || (a == .develop && b == .scrapped)

/-- A return token for this die, signed by an active integrator slot (R114). -/
def tokenOk (s : State) (t : List Byte) : Bool :=
  t.take 8 == s.otp.dieId && s.otp.ikeyActive (byteAt t 8) && zeroAt t 9 3
    && signedBy (s.otp.ikey (byteAt t 8)) (slice t 12 64) (t.take 88) (slice t 88 64)

/-- Authority, then quiescence and the window of R90. -/
def advanceCheck (s : State) (f : Flight) : Option Answer :=
  match lcOf (byteAt f.payload 0) with
  | none => some [stLocked]
  | some t =>
    firstOf
      [ need (transition s.lc t) stLocked,
        needLength f (if t == .ret then 160 else 8),
        need (zeroAt f.payload 1 3) stBadParam,
        need (fieldAt f.payload 4 4 == 0x1C0DE5A7) stLocked,
        need (t != .field || (List.range 4).any s.otp.ikeyActive) stLocked,
        need (t != .ret || tokenOk s (f.payload.drop 8)) stBadSignature,
        need (!s.flashBusy) stBusy,
        (if s.quiescence = 0 then none else some [stNotQuiescent, BitVec.ofNat 8 s.quiescence]),
        need s.flashTemp stTempForbidden ]

/-- OK, then step 1 of R113; the wipe is in progress. -/
def opLcAdvance : OpSpec :=
  { code := 0x0D01, sched := .unscheduled, bcast := true, block := some .geode
    check := advanceCheck
    run := fun s f =>
      let t := (lcOf (byteAt f.payload 0)).getD .scrapped
      okay (((s.modOtp fun o => { o with lcState := o.lcState.program t.mask }).modFlash fun y =>
        { y with op := .lcWipe t }).modGeode fun g => { g with wipePending := true, lcTarget := some t }) }

/-- Journal and certificate area erased; the generation of the new sector header is a free value (log 46). -/
def State.eraseConfig (s : State) : State :=
  let (n, s1) := s.takeNat
  s1.modFlash fun f =>
    { f with
      jRecs := [], jFill := sectorHeader, jOtherBlank := true, jGen := n % 2 ^ 32, session := none,
      certA := .blank, certB := .blank }

/-- The key slots that the entry of a state revokes. -/
def Otp.revokeFor (o : Otp) (t : LcState) : Otp :=
  if t == .ret then { o with iRevoked := 0xF } else if t == .scrapped then { o with iRevoked := 0xF, vRevoked := 0xF } else o

/-- The revocations, then the mark that the entry wipe is complete. -/
def State.markWiped (s : State) (t : LcState) : State :=
  s.modOtp fun o => { o.revokeFor t with lcWiped := o.lcWiped.program t.mask }

/-- Steps 2 to 4 of R113. The always-on retention stays wiped through the reset that completes the change (R86). Outside the window
of R90 the mark stays out, and the next boot completes the wipe (R395). -/
def execLcWipeDone (s : State) : Host.Outcome State Fault Refusal :=
  match s.flash.op with
  | .lcWipe t =>
    let s1 := (s.eraseConfig.modFlash fun f => { f with op := .none }).modSys fun y =>
      { y.forget with forgetting := true }
    .next ((if s.flashTemp then (s1.markWiped t).modGeode fun g => { g with wipePending := false, lcTarget := none } else s1).trigger
      causeSoft)
  | _ => .next s

/-! ### Key slots and options (R115) -/

/-- What an OTP program needs before it starts. -/
def otpReady (s : State) : Option Answer := firstOf [need (!s.flashBusy) stBusy, need s.flashTemp stTempForbidden]

/-- The program starts; its reply follows it. -/
def startOtp (s : State) (f : Flight) : State × Option Answer := later (s.modFlash fun y => { y with op := .otp f.key })

/-- Another active integrator slot signs a hash; in DEVELOP the signature bytes are zero. -/
def slotAuthority (s : State) (n : Nat) (hash sig : List Byte) : Option Answer :=
  if s.lc == .develop then need (sig.all (· == 0)) stBadParam
  else need ((List.range 4).any fun k => k ≠ n && s.otp.ikeyActive k && signedByHash (s.otp.ikey k) hash sig) stBadSignature

/-- The slot byte and its zeros. -/
def slotArg (p : List Byte) : Bool := byteAt p 0 < 4 && zeroAt p 1 3

def opKeyProgram : OpSpec :=
  { code := 0x0D02, sched := .unscheduled, bcast := true, block := some .geode
    check := fun s f => firstOf
      [ inState s [.develop, .field], needLength f 100,
        need (slotArg f.payload && !s.otp.iProgrammed.getLsbD (byteAt f.payload 0)) stBadParam,
        slotAuthority s (byteAt f.payload 0) (slice f.payload 4 32) (slice f.payload 36 64), otpReady s ]
    run := startOtp }

/-- DESIGN CHOICE (log 100): in FIELD the signature of KEY_REVOKE is over the stored hash of the slot to be revoked. -/
def opKeyRevoke : OpSpec :=
  { code := 0x0D03, sched := .unscheduled, bcast := true, block := some .geode
    check := fun s f => firstOf
      [ inState s [.develop, .field], needLength f 68, need (slotArg f.payload) stBadParam,
        need (s.lc != .field || (List.range 4).any fun k => k ≠ byteAt f.payload 0 && s.otp.ikeyActive k) stLocked,
        slotAuthority s (byteAt f.payload 0) (s.otp.ikey (byteAt f.payload 0)) (slice f.payload 4 64), otpReady s ]
    run := startOtp }

def opOtpOption : OpSpec :=
  { code := 0x0D08, sched := .unscheduled, bcast := true, block := some .geode
    check := fun s f => firstOf
      [ inState s [.develop], needLength f 4,
        need (byteAt f.payload 0 < 8 && byteAt f.payload 1 < 2 && byteAt f.payload 3 == 0) stBadParam, otpReady s ]
    run := startOtp }

/-- The program completes and its reply is sent; FW_CONFIRM then makes the trial slot ACTIVE (R108). -/
def execOtpProgramDone (s : State) : Host.Outcome State Fault Refusal :=
  match s.flash.op with
  | .otp k =>
    .next (match s.findFlight k with
      | some f =>
        if s.flashTemp then
          let s1 := s.programOtp f
          ((if f.opcode = 0x0C05 then s1.confirm else s1).finish f [stOk]).flashIdle
        else (s.finish f [stTempForbidden]).flashIdle
      | none => s.flashIdle)
  | _ => .next s

/-- KEY_STATUS (Table 05-2). -/
def Otp.keyStatus (o : Otp) : Nat := o.iRevoked.toNat * 2 ^ 16 + o.iProgrammed.toNat * 2 ^ 8 + o.vRevoked.toNat

def opKeyStatusRead : OpSpec :=
  { code := 0x0D04, sched := .unscheduled, bcast := false, block := some .geode
    check := fun s f => firstOf [inState s notScrapped, needLength f 0]
    run := fun s _ => okayWith s (le 4 s.otp.keyStatus ++ s.otp.ikeys.flatten ++ s.otp.vkeys.flatten) }

def execLcStatus (h : Hdr) (p : List Byte) (s : State) : Host.Outcome State Fault Refusal := .next (receive opLcStatus h p s)

def execLcAdvance (h : Hdr) (p : List Byte) (s : State) : Host.Outcome State Fault Refusal := .next (receive opLcAdvance h p s)

def execKeyProgram (h : Hdr) (p : List Byte) (s : State) : Host.Outcome State Fault Refusal := .next (receive opKeyProgram h p s)

def execKeyRevoke (h : Hdr) (p : List Byte) (s : State) : Host.Outcome State Fault Refusal := .next (receive opKeyRevoke h p s)

def execKeyStatusRead (h : Hdr) (p : List Byte) (s : State) : Host.Outcome State Fault Refusal :=
  .next (receive opKeyStatusRead h p s)

def execOtpOption (h : Hdr) (p : List Byte) (s : State) : Host.Outcome State Fault Refusal := .next (receive opOtpOption h p s)

end Sys2Proof.Machine
end

