-- ==== Sys2Proof/Machine/Boot.lean ====
section
/-!
DEFINITION. The boot stages of the Geode (05, R93 to R96, R102, R117), the load of the journal (R86, code J), and EXEC_FAULT.
-/
namespace Sys2Proof.Machine

def State.setStage (s : State) (g : BootStage) : State := s.modGeode fun y => { y with stage := g }

/-- BOOT_REPORT goes out on every host interface that is ready, whatever its routes, and upstream from a worker (R117, R134). -/
def State.bootReport (s : State) : State :=
  let k := s.eventPacket 0x7F11 (le 4 s.geodeReg ++ [s.sys.lastFault.code] ++ zeros 3)
  (s.deliver true k).eventUp k

/-! ### Patch check and pending wipe (Table 05-3, steps 2 to 4) -/

/-- LC_WIPED lags LC_STATE: the entry wipe of the state in force is not marked. -/
def State.wipeLags (s : State) : Bool := s.lc.mask &&& s.otp.lcWiped.value ≠ s.lc.mask

/-- Past the pending wipe: a die in SCRAPPED stops, any other selects its slot. -/
def State.afterWipe (s : State) : State :=
  if s.lc == .scrapped then (s.setStage .scrapped).bootReport else s.setStage .image

/-- The size of the patch area (Table 05-1). -/
def patchSize : Nat := 32768

/-- The patch area holds an image of the patch type that an active vendor slot has signed (R93 step 2, Table 05-9; log 84). -/
def State.patchOk (s : State) : Bool :=
  let h := s.flash.patch.take 256
  let body := s.flash.patch.drop 256
  s.flash.patch.length ≤ patchSize && h.take 4 == [0x45, 0x55, 0x50, 0x46] && byteAt h 4 == 1 && byteAt h 5 == 2
    && body.length == fieldAt h 0xC 4 && headerSigned s h && sha256 body == slice h 0x18 32

/-- The patch area has been hashed and its signature checked: the Geode is ready and SAFE_N is released. Otherwise, and where the area
does not read as it is programmed (log 84): GEODE_SAFE, code 0x80. -/
def execPatchCheckDone (intact : Bool) (s : State) : Host.Outcome State Fault Refusal :=
  if s.geode.stage == .patch && s.sys.clk == .running && !s.sys.held then
    if !(intact && s.patchOk) then .next (s.geodeSafe 0x80)
    else
      let s1 := (s.setReady .geode true).modSys fun y => { y with safeLow := false }
      .next (if s1.wipeLags then
          ((s1.setStage .wipe).modGeode fun g => { g with wipePending := true }).modFlash fun f => { f with op := .bootWipe }
        else s1.afterWipe)
  else .next s

/-- The erase is done: the always-on retention is wiped too (R86), the revocations, LC_WIPED, and the next stage. Outside the window
of R90 the die waits here. -/
def execPendingWipeDone (s : State) : Host.Outcome State Fault Refusal :=
  match s.flash.op with
  | .bootWipe =>
    .next (if s.flashTemp then
        (((((s.eraseConfig.modFlash fun f => { f with op := .none }).modSys Sys.forget).markWiped s.lc).modGeode fun g =>
          { g with wipePending := false }).afterWipe)
      else s)
  | _ => .next s

/-! ### Slot selection (R95, R96) -/

/-- Sets HINT. -/
def State.setHint (s : State) (v : BitVec 2) : State := s.modSys fun y => { y with hint := v }

/-- A slot boots. -/
def State.bootSlot (s : State) (i : SlotId) : State :=
  (s.modGeode fun g => { g with slotRunning := some i, build := fieldAt (s.flash.slot i).header 0x10 4 }).setStage .cert

/-- HINT 0b11 counts as no trial (R95), and clears once a slot passes. -/
def State.clearRecovery (s : State) : State := if s.sys.hint = 3 then s.setHint 0 else s

/-- The Geode rewrites the slot record: only in the window of R90. DESIGN CHOICE (log 101): outside it the record stands, and the boot
goes on with the slot found. -/
def State.writeRecord (s : State) (f : Flash → Flash) : State := if s.flashTemp then s.modFlash f else s

/-- The selected slot, then the other; without either the die enters RECOVERY (R96). -/
def State.trySlots (s : State) (i : SlotId) : State :=
  if s.bootable i then s.clearRecovery.bootSlot i
  else
    let s1 := s.recordFault 0x81 0x0F []
    if s.bootable i.other then (s1.writeRecord fun f => { f with active := i.other }).clearRecovery.bootSlot i.other
    else (((s1.recordFault 0x82 0x0F []).setHint 3).setStage .recovery).bootReport

def execSlotSelectionDone (s : State) : Host.Outcome State Fault Refusal :=
  if s.geode.stage == .image then
    .next (match s.flash.trial with
      | some i =>
        if s.sys.hint = 1 then (s.setHint 2).trySlots i
        else
          (((s.writeRecord fun f => { f with trial := none }).recordFault 0x83 0x0F []).setHint (if s.sys.hint = 3 then 3 else 0)).trySlots
            s.flash.active
      | none => s.trySlots s.flash.active)
  else .next s

/-! ### The certificate (step 6) -/

/-- The bytes of a copy that boot may load. -/
def State.loadable (s : State) (c : CertCopy) : Option (List Byte) :=
  match c with
  | .committed b => if (certCheck s b true).isNone then some b else none
  | _ => none

/-- The loadable copy with the higher version. -/
def State.bootCert (s : State) : Option (List Byte) :=
  match s.loadable s.flash.certA, s.loadable s.flash.certB with
  | some a, some b => if certVersion a < certVersion b then some b else some a
  | some a, none => some a
  | none, b => b

def execBootCertLoaded (s : State) : Host.Outcome State Fault Refusal :=
  if s.geode.stage == .cert then
    let c := s.bootCert
    let bad := c.isNone && !(s.flash.certA == CertCopy.blank && s.flash.certB == CertCopy.blank)
    let s1 := if bad then s.recordFault 0x84 0x0F [] else s
    .next ((s1.modGeode fun g =>
      { g with cert := c, certBuiltin := c.isNone && (s.lc == .develop || s.lc == .ret) }).setStage .journal)
  else .next s

/-! ### The journal load (step 7, R3, R86) -/

/-- Loads the record of a type and instance, where the journal has one. -/
def State.loadRec (s : State) (type inst : Nat) (f : State → List Byte → State) : State :=
  match bootBody s.flash.jRecs type inst with
  | some b => f s b
  | none => s

/-- Loads the records of all instances of a type. -/
def State.loadAll (s : State) (type : Nat) (f : State → Nat → List Byte → State) : State :=
  (List.range (recInstances type)).foldl (fun s i => s.loadRec type i fun s b => f s i b) s

/-- The records that every die loads. -/
def State.loadCommon (s : State) : State :=
  let s1 := s.loadAll 0x0010 State.loadLane
  let s2 := s1.loadAll 0x0011 fun s _ b => s.modProt fun p => { p with body := some b }
  let s3 := s2.loadAll 0x0030 fun s k b => if s.drives k then s.loadChan k b else s
  let s4 := s3.loadAll 0x0070 fun s k b => s.modMeas fun m => m.modAdc k fun _ => Adc.load b
  let s5 := s4.loadAll 0x0071 fun s _ b => s.modMeas fun m => m.setModes b
  let s6 := s5.loadAll 0x0080 fun s _ b => s.modTherm fun t => { t with body := some b }
  s6.loadAll 0x0090 fun s _ b => s.modMemi fun m => m.config b

/-- The records that only the home die uses. A worker keeps of a strand record the drop settings (R252, log 41). -/
def State.loadHome (s : State) : State :=
  if s.isWorker then s.loadAll 0x0020 fun s n b => s.modStrand n fun x => { x with dropSet := dropOfRecord b }
  else
    let s1 := s.loadAll 0x0007 fun s _ b => s.modTime fun t => { t with length := fieldAt b 0 2, prevLength := fieldAt b 0 2 }
    let s2 := s1.loadAll 0x0020 fun s n b => s.modStrand n fun x => x.load b
    let s3 := s2.loadAll 0x0031 fun s _ b => s.modPath fun p => { p with body := some b }
    if s3.isManager then s3.loadAll 0x0050 fun s _ b => s.modSlolos fun y => y.config b else s3

/-- The records that a SL1663-WQ never loads (R3). -/
def State.loadMq (s : State) : State :=
  if s.otp.partWq then s
  else
    let s1 := s.loadAll 0x0006 fun s i b => s.modCmd fun c => c.setCan i { c.can i with body := some b }
    let s2 := s1.loadAll 0x0040 fun s _ b => s.modPendant fun p => { p with body := some b }
    if s.isWorker then s2 else s2.loadAll 0x0060 State.loadPort

/-- Copies that are neither blank nor in force are left to be erased (Table 05-3, step 6). -/
def State.dropCopies (s : State) : State :=
  let keep := fun (c : CertCopy) =>
    if c == CertCopy.blank then c
    else match s.geode.cert with
      | some b => if c == CertCopy.committed b then c else .partErased
      | none => .partErased
  s.modFlash fun f => { f with certA := keep f.certA, certB := keep f.certB }

/-- Eupefen runs: the records are in force, within the limits. -/
def execEupefenRunning (s : State) : Host.Outcome State Fault Refusal :=
  if s.geode.stage == .journal then
    let s1 := s.loadCommon.loadHome.loadMq.clampAll.dropCopies.setStage .running
    .next (if s1.flash.op == .none then s1.bootReport.flashIdle else s1.bootReport)
  else .next s

/-- Eupefen fetched an instruction from outside its slot (R117). -/
def execExecFault (s : State) : Host.Outcome State Fault Refusal :=
  .next (if s.eupefen && s.sys.clk == .running then s.geodeSafe 0x86 else s)

end Sys2Proof.Machine
end

