-- ==== Sys2Proof/Machine/EpochCommands.lean ====
section
/-!
DEFINITION. The epoch commands (07, R152, R162, R164) and POLICY_LATE.
-/
namespace Sys2Proof.Machine

def opEpochStatus : OpSpec :=
  { code := 0x0100, sched := .unscheduled, bcast := false, block := some .time
    check := fun _ f => needLength f 0
    run := fun s _ => okayWith s (le 4 s.time.epoch ++ le 4 s.time.tick ++ le 4 s.epochCfgReg ++ le 4 s.time.promiseReg) }

/-- Another EPOCH_SET_LENGTH for the same epoch is applied later and stands (R128). -/
def State.laterLength (s : State) (f : Flight) : Bool :=
  s.cmd.flights.any fun g =>
    g.opcode == 0x0101 && g.phase == .waiting && g.epoch == f.epoch && !(g.key == f.key) && g.target == 0

/-- Checked at receipt only (R164). -/
def opEpochSetLength : OpSpec :=
  { code := 0x0101, sched := .scheduled, bcast := false, block := some .time
    check := fun s f =>
      let l := fieldAt f.payload 0 2
      firstOf
        [ need (!s.isWorker) 0x81, needLength f 4, need (zeroAt f.payload 2 2 && l % 50 == 0 && l ≤ 10000) stBadParam,
          need (minLength s.slolos.workers ≤ l) 0x80 ]
    run := fun s f =>
      if s.laterLength f then answer s stSuperseded
      else okay (s.modTime fun t => { t with length := fieldAt f.payload 0 2 }) }

def execEpochStatus (h : Hdr) (p : List Byte) (s : State) : Host.Outcome State Fault Refusal :=
  .next (receive opEpochStatus h p s)

def execEpochSetLength (h : Hdr) (p : List Byte) (s : State) : Host.Outcome State Fault Refusal :=
  .next (receive opEpochSetLength h p s)

/-- Eupefen has not handed over its decisions 20 us before the boundary: that boundary reapplies those before (R162). -/
def execPolicyLate (s : State) : Host.Outcome State Fault Refusal :=
  .next (if s.eupefen && s.sys.clk == .running && !s.sys.held then s.modTime fun t => { t with policyLate := true } else s)

end Sys2Proof.Machine
end

