-- ==== Sys2Proof/Machine/Opcodes.lean ====
section
/-!
DEFINITION. The request opcodes (R148): every OpSpec by its number, and the commands that a stall has held.
-/
namespace Sys2Proof.Machine

/-- Command handling, system and low power (Tables 06-12, 04-17): 0x00. -/
def ops00 : List OpSpec :=
  [opEcho, opDieInfo, opCancel, opEventRoute, opCanConfig, opCmdStats, opEnterStandby, opEnterHibernate,
   opSetWake, opSoftReset]

/-- Epochs: 0x01. -/
def ops01 : List OpSpec :=
  [opEpochStatus, opEpochSetLength]

/-- Lanes: 0x02. -/
def ops02 : List OpSpec :=
  [opLaneConfig, opLaneStart, opLaneStop, opSetLaneTarget, opSetLaneCoeffs, opSetLaneProfile, opSetBurst,
   opTuningControl, opLanePhaseLock, opLaneLegs, opLaneStatus]

/-- Protection: 0x03. -/
def ops03 : List OpSpec :=
  [opProtConfig, opProtClear, opProtLogRead, opEchoRead, opEchoClear]

/-- Charging: 0x04. -/
def ops04 : List OpSpec :=
  [opStrandConfig, opChargeStart, opChargeStop, opChargeEqualise, opStrandStatus, opBmsLimits, opStrandPlan]

/-- Power path: 0x05. -/
def ops05 : List OpSpec :=
  [opBezelConfig, opPathConfig, opSourceInhibit, opBezelClear, opPathStatus, opPeerPower]

/-- Measurement: 0x06. -/
def ops06 : List OpSpec :=
  [opMeasTable, opMeasAccConfig, opMeasClear, opMeasSnapshotRead, opMeasTableStatus]

/-- Thermal: 0x07. -/
def ops07 : List OpSpec :=
  [opThermConfig, opThermStatus, opThermPeakClear]

/-- Chain: 0x08. -/
def ops08 : List OpSpec :=
  [opChainStatus, opChainWorker, opChainEnumerate, opChainReset, opChainConfig]

/-- Clasp: 0x09. -/
def ops09 : List OpSpec :=
  [opClaspConfig, opClaspStatus, opClaspRequest, opClaspSwapJs, opClaspHold, opClaspDetach]

/-- Pendant: 0x0A. -/
def ops0A : List OpSpec :=
  [opPendantConfig, opPendantStatus]

/-- Timers: 0x0B. -/
def ops0B : List OpSpec :=
  [opTimerConfig, opTimerStatus, opTimerCaptures, opTimeRead]

/-- Firmware and journal: 0x0C. -/
def ops0C : List OpSpec :=
  [opFlashStatus, opFwUpdateBegin, opFwUpdateChunk, opFwUpdateFinish, opFwActivate, opFwConfirm,
   opFwUpdateAbort, opJournalWrite, opJournalCommit, opJournalRead, opJournalRemove]

/-- Life cycle, keys and certificate: 0x0D. -/
def ops0D : List OpSpec :=
  [opLcStatus, opLcAdvance, opKeyProgram, opKeyRevoke, opKeyStatusRead, opCertLoad, opCertRead, opFenceStatus,
   opOtpOption]

/-- Memory integrity: 0x0E. -/
def ops0E : List OpSpec :=
  [opMemiConfig, opMemiRead, opMemiInject]

/-- Every request opcode. -/
def allOps : List OpSpec :=
  ops00 ++ ops01 ++ ops02 ++ ops03 ++ ops04 ++ ops05 ++ ops06 ++ ops07 ++ ops08 ++ ops09 ++ ops0A ++ ops0B ++
    ops0C ++ ops0D ++ ops0E

/-- The opcode's OpSpec; none where no part defines it. -/
def opSpec (code : Nat) : Option OpSpec := allOps.find? fun o => o.code == code

/-- The opcode is defined on this part (step 7 of Table 06-2, R3). -/
def State.defines (s : State) (code : Nat) : Bool :=
  match opSpec code with
  | some o => !(o.mqOnly && s.otp.partWq)
  | none => false

/-- Executes a command in flight. -/
def State.executeFlight (s : State) (f : Flight) : State :=
  match opSpec f.opcode with
  | some o => o.execute s f
  | none => s.finish f [stBadOpcode]

/-- The application core runs again: the commands that it holds are handled (R435). -/
def State.runHeld (s : State) : State :=
  (s.cmd.heldFlights s.time.epoch).foldl (fun s f =>
    let e := if f.sched then f.accEpoch else s.time.epoch
    (s.modFlight f.key fun g => { g with phase := .working, accEpoch := e }).executeFlight { f with phase := .working, accEpoch := e }) s

end Sys2Proof.Machine
end

