-- ==== Sys2Proof/Machine/CommandEngine.lean ====
section
/-!
DEFINITION. Undefined opcodes (R148), packet frames of the chain (R145, R319, R328), accesses that waited on a stopped block
(R70 to R74), and debug halt (R407).
-/
namespace Sys2Proof.Machine

/-! ### Undefined opcodes -/

/-- Steps 4 to 7 of Table 06-2 for an opcode that this part does not define. A broadcast that fits step 5 but for its opcode
is answered at step 7. -/
def undefinedAnswer (h : Hdr) (s : State) : Answer :=
  (firstOf
    [ need (!badHeader h) stBadParam,
      need (!(h.flags.getLsbD 5 && !h.chain && !(s.isManager && h.target == 0))) stBadParam,
      need (!absentTarget h s) stTargetAbsent ]).getD [stBadOpcode]

/-- A request with an undefined opcode is refused. -/
def receiveUndefined (h : Hdr) (code : Nat) (p : List Byte) (s0 : State) : State :=
  let s := s0.modCmd fun c => c.takeInbound h code p
  if receives h s then s.refuse (mkFlight s h code p) (undefinedAnswer h s) else s

/-- A packet whose opcode is defined belongs to its own row. -/
def execUndefinedOpcode (h : Hdr) (opcode : Nat) (p : List Byte) (s : State) : Host.Outcome State Fault Refusal :=
  .next (if s.defines opcode then s else receiveUndefined h opcode p s)

/-! ### Packet frames -/

/-- Source or destination address, origin and packet of a packet frame. -/
def frameAddress (b : List Byte) : Nat := byteAt b 0
def frameOrigin (b : List Byte) : Origin := Origin.ofRank (byteAt b 1)
def framePacket (b : List Byte) : List Byte := (b.drop 2).take (b.length - 6)

/-- A frame that travels upstream carries a reply or an event. -/
def frameGoesUp (b : List Byte) : Bool := bitAt (framePacket b) 1 7 || bitAt (framePacket b) 1 4

/-- The header of a packet that a chain frame brought. -/
def frameHdr (b : List Byte) : Hdr :=
  let k := Packet.ofBytes (framePacket b)
  { origin := frameOrigin b, node := 0, chain := true, flags := k.flags, target := k.target, tag := k.tag, epoch := k.epoch }

/-- The reply to a damaged packet goes back upstream. -/
def State.damagedUp (s : State) (b : List Byte) (status : Byte) : State :=
  s.sendUp (.packet (packetFrame s.slolos.address (frameOrigin b) (damagedReply (framePacket b) status).bytes))

/-- A worker checks and takes the packet that a frame brings it (R121, R328). -/
def State.takePacket (s : State) (b : List Byte) : State :=
  let x := framePacket b
  let k := Packet.ofBytes x
  if !s.isReady .cmd then s
  else if x.length < 16 || getAt x 0 0 ≠ 0xA7 then s.modCmd Cmd.countFraming
  else if fieldAt x 6 2 + 16 ≠ x.length then s.damagedUp b stBadLength
  else if !crc32Good x then (s.damagedUp b stBadCrc).modCmd fun c => { c with crcErr := satAdd 255 c.crcErr 1 }
  else match opSpec k.opcode with
    | some o => receive o (frameHdr b) k.payload s
    | none => receiveUndefined (frameHdr b) k.opcode k.payload s

/-- The command in flight that a worker's reply belongs to. -/
def State.repliedFlight (s : State) (address : Nat) (o : Origin) (tag : Nat) : Option Flight :=
  s.cmd.flights.find? fun f =>
    f.key == { origin := o, chain := false, tag := tag }
      && (if f.bcast then f.awaited.contains address
          else f.phase == .forwarded && (f.target == address || f.opcode == 0x0002))

/-- The manager returns a worker's reply: ACCEPTED leaves the command in flight, any other ends it (R127, R328). -/
def State.workerReply (s : State) (address : Nat) (o : Origin) (k : Packet) : State :=
  match s.repliedFlight address o k.tag.toNat with
  | none => s
  | some f =>
    if f.bcast then s.dieAnswer f.key address k.payload
    else
      let s1 := s.planAnswered f (getAt k.payload 0 0)
      if f.sched && !f.accepted && getAt k.payload 0 0 == stAccepted then
        (s1.sendBack f k none).modFlight f.key fun g => { g with accepted := true }
      else
        let s2 := s1.sendBack f k (some f.key)
        if f.key.origin == .internal then s2.dropFlight f.key else s2.modFlight f.key fun g => { g with phase := .replied }

/-- The manager forwards a worker's event on its routes; BOOT_REPORT goes on every one (R117, R134). -/
def State.workerEvent (s : State) (k : Packet) : State := s.deliver (k.opcode == 0x7F11) k

/-- A packet frame: relayed, taken by its worker, or returned by the manager. -/
def execPacketFrame (frame : Received) (s : State) : Host.Outcome State Fault Refusal :=
  let bytes := frame.bytes
  let harm := frame.harm
  let f := carriedOn harm (.packet bytes)
  if !s.portsRun then .next s
  else if s.isWorker then
    if frameGoesUp bytes then .next (if s.chainActs then (s.hearFrame harm).relayBulk f else s)
    else if s.slolos.address = 0 || frameAddress bytes ≠ s.slolos.address then
      let s1 := s.repeatDown f
      .next (if s.chainActs then s1.hearFrame harm else s1)
    else if !s.chainActs then .next s
    else if harm != .none || !crc32Good bytes then .next (s.badFrame harm)
    else .next (s.takePacket bytes)
  else if !s.chainActs then .next s
  else if harm != .none || !crc32Good bytes then .next (s.badFrame harm)
  else
    let k := Packet.ofBytes (framePacket bytes)
    .next (if k.flags.getLsbD 4 then s.workerEvent k
      else if k.flags.getLsbD 7 then s.workerReply (frameAddress bytes) (frameOrigin bytes) k
      else s)

/-! ### Waiting accesses (R70 to R74) -/

/-- An access that waited is carried out; the data of a read is discarded. In SCRAPPED a write is refused (R146). -/
def State.completeAccess (s : State) (h : Hung) : State :=
  match h.write with
  | none => (s.readReg h.block (h.address % 2 ^ 16)).2
  | some v => if s.lc == .scrapped then s.refuseWrite else (s.writeReg h.block (h.address % 2 ^ 16) v).getD s.refuseWrite

/-- The clock of a block has returned: that of every block but Slolos with the clocks, that of Slolos with its ports (R71). -/
def State.clockReturned (s : State) (b : Block) : Bool := b != .slolos || s.blockRuns b

/-- The application core goes on, unless it is halted. -/
def State.unstall (s : State) : State :=
  let s1 := s.modGeode fun g => { g with stalled := s.time.debugHalt }
  if s1.geode.stalled then s1 else s1.runHeld

/-- An access that waits on a block whose clock has returned. -/
def State.completable (s : State) (h : Option Hung) : Option Hung := h.filter fun x => s.clockReturned x.block

/-- The block's clock has returned without a restart: the SPI access that waits ends, or else the core's (R72). -/
def execHungAccessComplete (s : State) : Host.Outcome State Fault Refusal :=
  if s.sys.clk != .running || s.sys.held then .next s
  else match s.completable s.sys.hung, s.completable s.sys.coreHung with
    | some h, _ => .next ((s.completeAccess h).modSys fun y => { y with hung := none })
    | none, some h => .next ((s.completeAccess h).modSys fun y => { y with coreHung := none }).unstall
    | none, none => .next s

/-- An access of a list waits on a block. -/
def waitsOn (h : Option Hung) (b : Block) : Bool := h.any fun x => x.block == b

/-- A block restart: its READY bit clears, its clock stops, for Slolos with its ports, and the accesses that wait on it end, reads
with zero (R70, R71). SYS is served by the always-on domain. -/
def execBlockRestart (block : Block) (s : State) : Host.Outcome State Fault Refusal :=
  if block == .sys || s.sys.clk != .running || s.sys.held then .next s
  else
    let s0 := s.setReady block false
    let s1 := if block == .slolos then (s0.modSlolos Slolos.halt).repliesGone
      else if block == .clasp then s0.claspStart
      else if block == .meas then s0.modMeas Meas.halt
      else if block == .therm then s0.modTherm Therm.start else s0
    let s2 := if waitsOn s.sys.hung block then s1.modSys fun y => { y with hung := none } else s1
    .next (if waitsOn s.sys.coreHung block then (s2.modSys fun y => { y with coreHung := none }).unstall else s2)

/-! ### Debug (R407) -/

/-- The application core is halted, or resumes; in DEVELOP and RETURN only. -/
def execDebugHalt (halt : Bool) (s : State) : Host.Outcome State Fault Refusal :=
  if !(s.lc == .develop || s.lc == .ret) || s.sys.clk != .running || s.sys.held then .next s
  else if halt then
    .next ((s.modTime fun t => { t with debugHalt := true, wordNow := t.wordNow ||| 0x20 }).modGeode fun g => { g with stalled := true })
  else
    let s1 := s.modTime fun t => { t with debugHalt := false }
    .next (if s.sys.coreHung.isSome then s1 else s1.unstall)

end Sys2Proof.Machine
end

