-- ==== Sys2Proof/Machine/Epoch.lean ====
section
/-!
DEFINITION. The epoch boundary: the six steps of R18, the promise word (R160 to R163), overruns and the events of the epoch
that closes.
-/
namespace Sys2Proof.Machine

/-! ### The epoch that closes -/

/-- The events that waited for the boundary. -/
def State.flushDue (s : State) : State :=
  s.cmd.due.foldl (fun s d => s.event d.opcode d.payload) (s.modCmd fun c => { c with due := [] })

/-- Events and step 1 of R18: the snapshot, the lane records and the reports of epoch `closing`. What is sent on the boundary
tick belongs to the epoch that the boundary opens (R155, log 52). -/
def State.closeEpoch (s : State) (closing : Nat) : State :=
  let s1 := ((((s.flushDue.fenceEvent closing).timerEvents closing).dripEvents closing).saturatedEvents closing).freezeReports
  (s1.modMeas fun m => m.freeze closing).closeLanes

/-! ### The promise word (R160, R163, R165) -/

/-- The die performs all of R18: Eupefen runs and its decisions are in time, and CMD and CONV are ready. -/
def State.performsAll (s : State) : Bool :=
  s.eupefen && !s.geode.stalled && !s.time.policyLate && s.isReady .cmd && s.isReady .conv

/-- Eupefen's decisions do not reach the boundary (R162): late, or the core is stalled and has computed none. -/
def State.decisionsLate (s : State) : Bool := s.eupefen && (s.time.policyLate || (s.geode.stalled && s.path.decided.isNone))

/-- An overrun of a cause concerns an epoch. -/
def Time.overran (y : Time) (cause e : Nat) : Bool := y.overruns.any fun o => o.cause == cause && o.epoch == e

/-- The word of the epoch that a boundary opens: RESUME, DEBUG, OVERRUN and the flags of the commands applied (Table 07-3). -/
def State.openingWord (s : State) (new : Nat) : BitVec 8 :=
  let l := s.cmd.scheduledFor new
  BitVec.ofNat 8
    (64 * bit (s.time.wordNow.getLsbD 6 && !s.performsAll) + 32 * bit s.time.debugHalt
      + 8 * bit (s.decisionsLate || s.time.overran 1 new)
      + 2 * bit (l.any (·.shortMargin)) + bit (l.any (·.shortLead)))

/-- The bits that the workers' telemetry carries (Table 13-3). -/
def State.telemetryWord (s : State) : BitVec 8 :=
  s.slolos.actives.foldl (fun w k => w ||| BitVec.ofNat 8 (byteAt (s.slolos.ctx k).telemetry 109 % 128)) 0

/-- The domain word that the boundary opening `new` makes known, with its epoch: of the epoch just closed on a standalone die,
of the one before on a manager, none on a worker. -/
def State.domainWord (s : State) (new : Nat) : Option (Nat × BitVec 8) :=
  if s.isWorker then none
  else if s.isStandalone then some ((new + 2 ^ 32 - 1) % 2 ^ 32, s.time.wordNow)
  else if s.time.boundaries = 0 then none
  else
    let e := (new + 2 ^ 32 - 2) % 2 ^ 32
    some (e, s.time.wordLast ||| s.telemetryWord ||| (if s.time.overran 3 e then 8 else 0))

/-- EPOCH_OVERRUN of what has been detected since the last boundary (R165). -/
def State.overrunEvents (s : State) : State :=
  (s.time.overruns.foldl (fun s o => s.event 0x7F21 (le 4 o.epoch ++ le 1 o.cause ++ le 1 o.address ++ zeros 2)) s).modTime
    fun t => { t with overruns := [] }

/-- PROMISE_LOST where a domain word is not zero and differs from the one before. -/
def State.promiseEvent (s : State) (d : Option (Nat × BitVec 8)) (before : BitVec 8) : State :=
  match d with
  | some (e, w) => if w ≠ 0 && w ≠ before then s.event 0x7F20 (le 4 e ++ [w] ++ zeros 3) else s
  | none => s

/-- The epoch `new` opens, with its length on a worker, and the words move on. -/
def State.openEpoch (s : State) (new : Nat) (length : Option Nat) : State :=
  let d := s.domainWord new
  let w := s.openingWord new
  let late := s.decisionsLate
  s.modTime fun t =>
    let lost : BitVec 8 := match d with
      | some x => x.2
      | none => if s.isWorker then t.wordNow else 0
    { t with
      epoch := new
      hasEpoch := true
      tick := 0
      prevLength := t.length
      length := length.getD t.length
      wordNow := w
      wordLast := t.wordNow
      domain := match d with
        | some x => x.2
        | none => t.domain
      broken := if lost ≠ 0 then satAdd 65535 t.broken 1 else t.broken
      boundaries := Nat.min 2 (t.boundaries + 1)
      policyLate := false
      overruns := if late then t.overruns ++ [{ epoch := new, cause := 2, address := s.slolos.address }] else t.overruns }

/-! ### Steps 1 to 6 of R18 in the epoch that opens -/

/-- Inputs that enter at the boundary, and what the frozen snapshot gives: thermal state, source qualification, retry
and precharge clocks (R19, R23, R270, R272, R273, R387). -/
def State.enterInputs (s : State) : State :=
  let us := s.time.prevLength
  let s1 := s.modPath fun p => (p.epoch us).prechargeTick us
  let s2 := ((s1.modProt Prot.closeEcho).modTherm Therm.freeze).enterLimits.enterPeer.qualifyTick
  s2.modMeas fun m => { m with throttled := 2 ≤ s.therm.frozen.junction }

/-- A certificate that is not verified by its boundary (R102). -/
def State.dropUnverified (s : State) (new : Nat) : State :=
  match s.geode.checking with
  | some h =>
    if h.epoch == new then (s.modGeode fun g => { g with checking := none }).finishKey h.by_ [stTooLate] else s
  | none => s

/-- Step 2: the scheduled commands, in ascending tag order (R128). -/
def State.applyCommands (s : State) (new : Nat) : State :=
  (s.cmd.scheduledFor new).foldl (fun s f =>
    (s.modFlight f.key fun g => { g with phase := .working }).executeFlight { f with phase := .working }) s

/-- Step 3: the fixed consequences of the reports, and the HICCUP retries. -/
def State.applyConsequences (s : State) (l : List Report) : State := ((byClass l).foldl State.consequence s).retries

/-- Step 4: charge phases, plans and coefficients. Where the decisions are late, those before stand (R162): the plans were handed over
at an earlier boundary. -/
def State.applyPolicy (s : State) (late : Bool) (old : List ChargePhase) (l : List Report) : State :=
  let s1 := if late then s.dropMachines else s.applyMachines
  (s1.applyPlans.autoStart late).tuneLanes late old l

/-- Step 5: the allotment, which is this die's own computation or comes in a frame. -/
def State.applyShares (s : State) : State := if s.isWorker then s.applyAllotment else s.applyDecided

/-- Steps 4 to 6; every value passes the fence where it is written. -/
def State.applyDecisions (s : State) (late : Bool) (old : List ChargePhase) (l : List Report) : State :=
  let s1 := if s.eupefen then (s.applyPolicy late old l).applyShares else if s.isWorker then s.applyAllotment else s
  (s1.decideHolder.samplePendant.freezePath.claspBoundary s1.path.holder).checkLocks.showStrands

/-- Continuous tuning breaks the promise of the epochs in which it runs (R203). -/
def State.tuningBit (s : State) : State :=
  if s.continuousTuning then s.modTime fun t => { t with wordNow := t.wordNow ||| 0x10 } else s

/-- A low-power entry stands at the boundary that opens `new` (R369). -/
def Cmd.lowPowerAt (c : Cmd) (new : Nat) : Bool := (c.scheduledFor new).any fun f => f.opcode == 0x0010 || f.opcode == 0x0011

/-- The Filigree tables of the epoch that opens; a refused low-power entry delays them by 50 cycles. -/
def State.startTables (s : State) (refused : Bool) : State :=
  if s.sys.entering.isSome then s.modMeas Meas.stopTables
  else s.modMeas fun m => m.startTables s.time.epoch s.time.length (if refused then 50 else 0)

/-- The boundary that opens epoch `new`; a worker takes its length from the marker. -/
def State.boundary (s : State) (new : Nat) (length : Option Nat) : State :=
  let closing := (new + 2 ^ 32 - 1) % 2 ^ 32
  let late := s.decisionsLate
  let old := s.charge.strands.map (·.mach.phase)
  let reports := s.prot.reports
  let before := s.time.domain
  let lost := s.domainWord new
  let low := s.cmd.lowPowerAt new
  let s1 := ((s.enterDrops.openEpoch new length).closeEpoch closing).enterInputs.dropUnverified new
  let s2 := (s1.endWaiting (fun f => f.epoch ≠ new && (new + 2 ^ 32 - f.epoch) % 2 ^ 32 < 2 ^ 31) stTargetTimeout).applyCommands new
  let s3 := (s2.evalThermal.applyConsequences reports).applyDecisions late old reports
  let s4 := ((s3.tuningBit.startTables low).phaseEvents old).echoEvents
  let s5 := (s4.overrunEvents.promiseEvent lost before).chainBoundary.cutOffBz4
  s5.sendPeer.enterLowPower

/-- The count of epochs of a die that is leaving STANDBY: no boundary acts before CMD and CONV are ready, and the commands whose
epoch it passes end TOO_LATE (R83). The words move on, and a domain word that becomes known is reported (R165). -/
def State.countEpoch (s : State) (new : Nat) (length : Option Nat) : State :=
  ((s.openEpoch new length).promiseEvent (s.domainWord new) s.time.domain).endPast.chainBoundary

/-- The boundary that opens `new`, of a die that may be leaving STANDBY. -/
def State.reach (s : State) (new : Nat) (length : Option Nat) : State :=
  if s.sys.power == .leaving then s.countEpoch new length else s.boundary new length

/-- An epoch boundary: a worker's comes from its marker, any other die's when its length has passed (R153, R154). -/
def execEpochBoundary (s : State) : Host.Outcome State Fault Refusal :=
  if s.sys.held || s.sys.clk != .running || s.asleep then .next s
  else if s.isWorker then
    match s.slolos.marker with
    | some (e, l) => .next (s.reach e (some l))
    | none => .next s
  else
    let s1 := s.pass s.ticksLeft (!s.time.lfrcStep)
    .next (s1.reach ((s1.time.epoch + 1) % 2 ^ 32) none)

end Sys2Proof.Machine
end

