-- ==== Sys2Proof/Machine/Dispatch.lean ====
section
/-!
DEFINITION. One arm per command: its meaning, or its refusal by name.
-/
namespace Sys2Proof.Machine
open Sys2Proof

/-- The effect of a command on everything but the queue. -/
def exec (i : Instr) (s : State) : Host.Outcome State Fault Refusal :=
  match i with
  | .vaonRise => Sys2Proof.Machine.execVaonRise s
  | .supplyMonitorTrip supply => Sys2Proof.Machine.execSupplyMonitorTrip supply s
  | .supplyMonitorRelease => Sys2Proof.Machine.execSupplyMonitorRelease s
  | .nrstLow ns => Sys2Proof.Machine.execNrstLow ns s
  | .nrstRise straps => Sys2Proof.Machine.execNrstRise straps s
  | .resetEntry => Sys2Proof.Machine.execResetEntry s
  | .resetEnd straps => Sys2Proof.Machine.execResetEnd straps s
  | .referenceCheck edges => Sys2Proof.Machine.execReferenceCheck edges s
  | .pllLock => Sys2Proof.Machine.execPllLock s
  | .pllLockTimeout => Sys2Proof.Machine.execPllLockTimeout s
  | .pllRetryRestart => Sys2Proof.Machine.execPllRetryRestart s
  | .clockStart => Sys2Proof.Machine.execClockStart s
  | .blockReady block => Sys2Proof.Machine.execBlockReady block s
  | .blockRestart block => Sys2Proof.Machine.execBlockRestart block s
  | .pllLoss => Sys2Proof.Machine.execPllLoss s
  | .refLoss edges => Sys2Proof.Machine.execRefLoss edges s
  | .lfrcMeasUpdate ticks => Sys2Proof.Machine.execLfrcMeasUpdate ticks s
  | .patchCheckDone intact => Sys2Proof.Machine.execPatchCheckDone intact s
  | .pendingWipeDone => Sys2Proof.Machine.execPendingWipeDone s
  | .slotSelectionDone => Sys2Proof.Machine.execSlotSelectionDone s
  | .bootCertLoaded => Sys2Proof.Machine.execBootCertLoaded s
  | .eupefenRunning => Sys2Proof.Machine.execEupefenRunning s
  | .execFault => Sys2Proof.Machine.execExecFault s
  | .appCoreActuatorWrite place write => Sys2Proof.Machine.execAppCoreActuatorWrite place write s
  | .writePacket transaction => Sys2Proof.Machine.execWritePacket transaction s
  | .readPacket count => Sys2Proof.Machine.execReadPacket count s
  | .windowRead address count => Sys2Proof.Machine.execWindowRead address count s
  | .windowWrite address data => Sys2Proof.Machine.execWindowWrite address data s
  | .status => Sys2Proof.Machine.execStatus s
  | .hungAccessComplete => Sys2Proof.Machine.execHungAccessComplete s
  | .hsCsnWake => Sys2Proof.Machine.execHsCsnWake s
  | .cmdErrorsRead => Sys2Proof.Machine.execCmdErrorsRead s
  | .pendantCountRead => Sys2Proof.Machine.execPendantCountRead s
  | .slolosErrorsRead => Sys2Proof.Machine.execSlolosErrorsRead s
  | .claspCountRead port => Sys2Proof.Machine.execClaspCountRead port s
  | .memiStatusRead => Sys2Proof.Machine.execMemiStatusRead s
  | .memiCorrRead mem => Sys2Proof.Machine.execMemiCorrRead mem s
  | .timerCapstatRead timer => Sys2Proof.Machine.execTimerCapstatRead timer s
  | .timerCaptureRead timer => Sys2Proof.Machine.execTimerCaptureRead timer s
  | .timeSysLoRead => Sys2Proof.Machine.execTimeSysLoRead s
  | .timerCountLatchRead timer => Sys2Proof.Machine.execTimerCountLatchRead timer s
  | .timeEpochNumRead => Sys2Proof.Machine.execTimeEpochNumRead s
  | .timerCompareWrite timer value => Sys2Proof.Machine.execTimerCompareWrite timer value s
  | .timerPeriodWrite timer value => Sys2Proof.Machine.execTimerPeriodWrite timer value s
  | .timerCountWrite timer value => Sys2Proof.Machine.execTimerCountWrite timer value s
  | .measViewHoldWrite hold => Sys2Proof.Machine.execMeasViewHoldWrite hold s
  | .wdgService key => Sys2Proof.Machine.execWdgService key s
  | .wdgWindowWrite value => Sys2Proof.Machine.execWdgWindowWrite value s
  | .malformedPacket origin node bytes => Sys2Proof.Machine.execMalformedPacket origin node bytes s
  | .undefinedOpcode h opcode p => Sys2Proof.Machine.execUndefinedOpcode h opcode p s
  | .canFrameReceived controller ident fd bytes => Sys2Proof.Machine.execCanFrameReceived controller ident fd bytes s
  | .canReassemblyTimeout controller node => Sys2Proof.Machine.execCanReassemblyTimeout controller node s
  | .canBusOff controller => Sys2Proof.Machine.execCanBusOff controller s
  | .canBusOffRecovery controller => Sys2Proof.Machine.execCanBusOffRecovery controller s
  | .echo h p => Sys2Proof.Machine.execEcho h p s
  | .dieInfo h p => Sys2Proof.Machine.execDieInfo h p s
  | .cancel h p => Sys2Proof.Machine.execCancel h p s
  | .eventRoute h p => Sys2Proof.Machine.execEventRoute h p s
  | .canConfig h p => Sys2Proof.Machine.execCanConfig h p s
  | .cmdStats h p => Sys2Proof.Machine.execCmdStats h p s
  | .enterStandby h p => Sys2Proof.Machine.execEnterStandby h p s
  | .enterHibernate h p => Sys2Proof.Machine.execEnterHibernate h p s
  | .setWake h p => Sys2Proof.Machine.execSetWake h p s
  | .softReset h p => Sys2Proof.Machine.execSoftReset h p s
  | .wakeInput input high => Sys2Proof.Machine.execWakeInput input high s
  | .wakeTimerExpired => Sys2Proof.Machine.execWakeTimerExpired s
  | .standbyWake => Sys2Proof.Machine.execStandbyWake s
  | .hibWake => Sys2Proof.Machine.execHibWake s
  | .serviceWake => Sys2Proof.Machine.execServiceWake s
  | .serviceWakeReturn => Sys2Proof.Machine.execServiceWakeReturn s
  | .epochStatus h p => Sys2Proof.Machine.execEpochStatus h p s
  | .epochSetLength h p => Sys2Proof.Machine.execEpochSetLength h p s
  | .epochBoundary => Sys2Proof.Machine.execEpochBoundary s
  | .policyLate => Sys2Proof.Machine.execPolicyLate s
  | .markerSend => Sys2Proof.Machine.execMarkerSend s
  | .marker fromB frame => Sys2Proof.Machine.execMarker fromB frame s
  | .markerMissed => Sys2Proof.Machine.execMarkerMissed s
  | .telemetrySlot => Sys2Proof.Machine.execTelemetrySlot s
  | .telemetryFrame address frame => Sys2Proof.Machine.execTelemetryFrame address frame s
  | .sumDeadline => Sys2Proof.Machine.execSumDeadline s
  | .allotmentComputed => Sys2Proof.Machine.execAllotmentComputed s
  | .allotmentFrame frame => Sys2Proof.Machine.execAllotmentFrame frame s
  | .allotmentMissed => Sys2Proof.Machine.execAllotmentMissed s
  | .frameStart lane => Sys2Proof.Machine.execFrameStart lane s
  | .legTurnOn leg => Sys2Proof.Machine.execLegTurnOn leg s
  | .decimatorOutput modulator sum => Sys2Proof.Machine.execDecimatorOutput modulator sum s
  | .brakeEnd lane => Sys2Proof.Machine.execBrakeEnd lane s
  | .comparatorCrossing cmp upper beyond brief => Sys2Proof.Machine.execComparatorCrossing cmp upper beyond brief s
  | .crowbarBlankEnd lane => Sys2Proof.Machine.execCrowbarBlankEnd lane s
  | .crowbarClose lane => Sys2Proof.Machine.execCrowbarClose lane s
  | .crowbarTimeout lane => Sys2Proof.Machine.execCrowbarTimeout lane s
  | .dfltInputChange leg high => Sys2Proof.Machine.execDfltInputChange leg high s
  | .driverFault leg => Sys2Proof.Machine.execDriverFault leg s
  | .faultFrame fromB frame => Sys2Proof.Machine.execFaultFrame fromB frame s
  | .laneConfig h p => Sys2Proof.Machine.execLaneConfig h p s
  | .laneStart h p => Sys2Proof.Machine.execLaneStart h p s
  | .laneStop h p => Sys2Proof.Machine.execLaneStop h p s
  | .setLaneTarget h p => Sys2Proof.Machine.execSetLaneTarget h p s
  | .setLaneCoeffs h p => Sys2Proof.Machine.execSetLaneCoeffs h p s
  | .setLaneProfile h p => Sys2Proof.Machine.execSetLaneProfile h p s
  | .setBurst h p => Sys2Proof.Machine.execSetBurst h p s
  | .tuningControl h p => Sys2Proof.Machine.execTuningControl h p s
  | .lanePhaseLock h p => Sys2Proof.Machine.execLanePhaseLock h p s
  | .laneLegs h p => Sys2Proof.Machine.execLaneLegs h p s
  | .laneStatus h p => Sys2Proof.Machine.execLaneStatus h p s
  | .protConfig h p => Sys2Proof.Machine.execProtConfig h p s
  | .protClear h p => Sys2Proof.Machine.execProtClear h p s
  | .protLogRead h p => Sys2Proof.Machine.execProtLogRead h p s
  | .echoRead h p => Sys2Proof.Machine.execEchoRead h p s
  | .echoClear h p => Sys2Proof.Machine.execEchoClear h p s
  | .strandConfig h p => Sys2Proof.Machine.execStrandConfig h p s
  | .chargeStart h p => Sys2Proof.Machine.execChargeStart h p s
  | .chargeStop h p => Sys2Proof.Machine.execChargeStop h p s
  | .chargeEqualise h p => Sys2Proof.Machine.execChargeEqualise h p s
  | .strandStatus h p => Sys2Proof.Machine.execStrandStatus h p s
  | .bmsLimits h p => Sys2Proof.Machine.execBmsLimits h p s
  | .strandPlan h p => Sys2Proof.Machine.execStrandPlan h p s
  | .bezelConfig h p => Sys2Proof.Machine.execBezelConfig h p s
  | .pathConfig h p => Sys2Proof.Machine.execPathConfig h p s
  | .sourceInhibit h p => Sys2Proof.Machine.execSourceInhibit h p s
  | .bezelClear h p => Sys2Proof.Machine.execBezelClear h p s
  | .pathStatus h p => Sys2Proof.Machine.execPathStatus h p s
  | .peerPower h p => Sys2Proof.Machine.execPeerPower h p s
  | .bezelComparatorCrossing comparator crossed => Sys2Proof.Machine.execBezelComparatorCrossing comparator crossed s
  | .bezelTrip comparator => Sys2Proof.Machine.execBezelTrip comparator s
  | .slowOcNoSample channel => Sys2Proof.Machine.execSlowOcNoSample channel s
  | .bzFbQualified channel => Sys2Proof.Machine.execBzFbQualified channel s
  | .bzCloseTimeout channel => Sys2Proof.Machine.execBzCloseTimeout channel s
  | .bzOpenTimeout channel => Sys2Proof.Machine.execBzOpenTimeout channel s
  | .bzRetryReset channel => Sys2Proof.Machine.execBzRetryReset channel s
  | .pendantSetpointFrame word => Sys2Proof.Machine.execPendantSetpointFrame word s
  | .pendantStatusFrame word => Sys2Proof.Machine.execPendantStatusFrame word s
  | .pendantGapDiscard => Sys2Proof.Machine.execPendantGapDiscard s
  | .pendantAnswerReady => Sys2Proof.Machine.execPendantAnswerReady s
  | .pendantAnswerRead => Sys2Proof.Machine.execPendantAnswerRead s
  | .pendantAnswerTimeout => Sys2Proof.Machine.execPendantAnswerTimeout s
  | .pendantSlewStep => Sys2Proof.Machine.execPendantSlewStep s
  | .pendantDone => Sys2Proof.Machine.execPendantDone s
  | .pendantNotSettled => Sys2Proof.Machine.execPendantNotSettled s
  | .pendantConfig h p => Sys2Proof.Machine.execPendantConfig h p s
  | .pendantStatus h p => Sys2Proof.Machine.execPendantStatus h p s
  | .linkUp port => Sys2Proof.Machine.execLinkUp port s
  | .linkDownDetected loss => Sys2Proof.Machine.execLinkDownDetected loss s
  | .delayMeasured port delay down up => Sys2Proof.Machine.execDelayMeasured port delay down up s
  | .echoFrame port answer harm received sent => Sys2Proof.Machine.execEchoFrame port answer harm received sent s
  | .enum fromB harm nextAddr prevAddr delay mode => Sys2Proof.Machine.execEnum fromB harm nextAddr prevAddr delay mode s
  | .enumAnswer harm dieId partRole address delay => Sys2Proof.Machine.execEnumAnswer harm dieId partRole address delay s
  | .enumEnd harm address roleConflict => Sys2Proof.Machine.execEnumEnd harm address roleConflict s
  | .enumNoWorkerTimeout => Sys2Proof.Machine.execEnumNoWorkerTimeout s
  | .appendRetry => Sys2Proof.Machine.execAppendRetry s
  | .join harm => Sys2Proof.Machine.execJoin harm s
  | .joinTimer => Sys2Proof.Machine.execJoinTimer s
  | .unassign harm => Sys2Proof.Machine.execUnassign harm s
  | .resetFrame harm mask => Sys2Proof.Machine.execResetFrame harm mask s
  | .linkDown harm address port => Sys2Proof.Machine.execLinkDown harm address port s
  | .packetFrame frame => Sys2Proof.Machine.execPacketFrame frame s
  | .slolosWakeDetected => Sys2Proof.Machine.execSlolosWakeDetected s
  | .chainStatus h p => Sys2Proof.Machine.execChainStatus h p s
  | .chainWorker h p => Sys2Proof.Machine.execChainWorker h p s
  | .chainEnumerate h p => Sys2Proof.Machine.execChainEnumerate h p s
  | .chainReset h p => Sys2Proof.Machine.execChainReset h p s
  | .chainConfig h p => Sys2Proof.Machine.execChainConfig h p s
  | .claspSenseChange port lineB band => Sys2Proof.Machine.execClaspSenseChange port lineB band s
  | .claspAttachTimer port => Sys2Proof.Machine.execClaspAttachTimer port s
  | .claspToggle port => Sys2Proof.Machine.execClaspToggle port s
  | .claspTryTimeout port => Sys2Proof.Machine.execClaspTryTimeout port s
  | .claspDetachDetected port => Sys2Proof.Machine.execClaspDetachDetected port s
  | .caps port fromB seqNo answers payload => Sys2Proof.Machine.execCaps port fromB seqNo answers payload s
  | .request port fromB seqNo answers payload => Sys2Proof.Machine.execRequest port fromB seqNo answers payload s
  | .accept port fromB seqNo answers payload => Sys2Proof.Machine.execAccept port fromB seqNo answers payload s
  | .reject port fromB seqNo answers payload => Sys2Proof.Machine.execReject port fromB seqNo answers payload s
  | .ready port fromB seqNo answers payload => Sys2Proof.Machine.execReady port fromB seqNo answers payload s
  | .swapJs port fromB seqNo answers payload => Sys2Proof.Machine.execSwapJs port fromB seqNo answers payload s
  | .hold port fromB seqNo answers payload => Sys2Proof.Machine.execHold port fromB seqNo answers payload s
  | .detach port fromB seqNo answers payload => Sys2Proof.Machine.execDetach port fromB seqNo answers payload s
  | .claspBadMessage port => Sys2Proof.Machine.execClaspBadMessage port s
  | .claspCollision port => Sys2Proof.Machine.execClaspCollision port s
  | .claspRetryIdle port => Sys2Proof.Machine.execClaspRetryIdle port s
  | .claspAnswerTimeout port => Sys2Proof.Machine.execClaspAnswerTimeout port s
  | .claspTransitionTimeout port => Sys2Proof.Machine.execClaspTransitionTimeout port s
  | .claspHoldTimeout port => Sys2Proof.Machine.execClaspHoldTimeout port s
  | .claspSwapDelay port => Sys2Proof.Machine.execClaspSwapDelay port s
  | .claspRecoveryEnd port => Sys2Proof.Machine.execClaspRecoveryEnd port s
  | .claspConfig h p => Sys2Proof.Machine.execClaspConfig h p s
  | .claspStatus h p => Sys2Proof.Machine.execClaspStatus h p s
  | .claspRequest h p => Sys2Proof.Machine.execClaspRequest h p s
  | .claspSwapJs h p => Sys2Proof.Machine.execClaspSwapJs h p s
  | .claspHold h p => Sys2Proof.Machine.execClaspHold h p s
  | .claspDetach h p => Sys2Proof.Machine.execClaspDetach h p s
  | .conversionDone converter code => Sys2Proof.Machine.execConversionDone converter code s
  | .measCalibrationDone => Sys2Proof.Machine.execMeasCalibrationDone s
  | .measTable h p => Sys2Proof.Machine.execMeasTable h p s
  | .measAccConfig h p => Sys2Proof.Machine.execMeasAccConfig h p s
  | .measClear h p => Sys2Proof.Machine.execMeasClear h p s
  | .measSnapshotRead h p => Sys2Proof.Machine.execMeasSnapshotRead h p s
  | .measTableStatus h p => Sys2Proof.Machine.execMeasTableStatus h p s
  | .thermalReadStart => Sys2Proof.Machine.execThermalReadStart s
  | .thermalReadDone readings => Sys2Proof.Machine.execThermalReadDone readings s
  | .thermalHeldRead readings => Sys2Proof.Machine.execThermalHeldRead readings s
  | .thermConfig h p => Sys2Proof.Machine.execThermConfig h p s
  | .thermStatus h p => Sys2Proof.Machine.execThermStatus h p s
  | .thermPeakClear h p => Sys2Proof.Machine.execThermPeakClear h p s
  | .timerOverflow timer => Sys2Proof.Machine.execTimerOverflow timer s
  | .timerMatch timer => Sys2Proof.Machine.execTimerMatch timer s
  | .captureEdge input edge => Sys2Proof.Machine.execCaptureEdge input edge s
  | .lfrcStepSwitch => Sys2Proof.Machine.execLfrcStepSwitch s
  | .debugHalt halt => Sys2Proof.Machine.execDebugHalt halt s
  | .wdgExpire => Sys2Proof.Machine.execWdgExpire s
  | .wdgClkmon => Sys2Proof.Machine.execWdgClkmon s
  | .lfrcResume => Sys2Proof.Machine.execLfrcResume s
  | .timerConfig h p => Sys2Proof.Machine.execTimerConfig h p s
  | .timerStatus h p => Sys2Proof.Machine.execTimerStatus h p s
  | .timerCaptures h p => Sys2Proof.Machine.execTimerCaptures h p s
  | .timeRead h p => Sys2Proof.Machine.execTimeRead h p s
  | .scrubVisit mem uses found tagged rewritten => Sys2Proof.Machine.execScrubVisit mem uses found tagged rewritten s
  | .dripLeak mem => Sys2Proof.Machine.execDripLeak mem s
  | .memiConfig h p => Sys2Proof.Machine.execMemiConfig h p s
  | .memiRead h p => Sys2Proof.Machine.execMemiRead h p s
  | .memiInject h p => Sys2Proof.Machine.execMemiInject h p s
  | .flashStatus h p => Sys2Proof.Machine.execFlashStatus h p s
  | .fwUpdateBegin h p => Sys2Proof.Machine.execFwUpdateBegin h p s
  | .updateEraseDone => Sys2Proof.Machine.execUpdateEraseDone s
  | .fwUpdateChunk h p => Sys2Proof.Machine.execFwUpdateChunk h p s
  | .chunkCommitted => Sys2Proof.Machine.execChunkCommitted s
  | .fwUpdateFinish h p => Sys2Proof.Machine.execFwUpdateFinish h p s
  | .fwActivate h p => Sys2Proof.Machine.execFwActivate h p s
  | .fwConfirm h p => Sys2Proof.Machine.execFwConfirm h p s
  | .fwUpdateAbort h p => Sys2Proof.Machine.execFwUpdateAbort h p s
  | .journalWrite h p => Sys2Proof.Machine.execJournalWrite h p s
  | .journalCommit h p => Sys2Proof.Machine.execJournalCommit h p s
  | .journalCommitDone => Sys2Proof.Machine.execJournalCommitDone s
  | .journalRead h p => Sys2Proof.Machine.execJournalRead h p s
  | .journalRemove h p => Sys2Proof.Machine.execJournalRemove h p s
  | .lcStatus h p => Sys2Proof.Machine.execLcStatus h p s
  | .lcAdvance h p => Sys2Proof.Machine.execLcAdvance h p s
  | .lcWipeDone => Sys2Proof.Machine.execLcWipeDone s
  | .keyProgram h p => Sys2Proof.Machine.execKeyProgram h p s
  | .keyRevoke h p => Sys2Proof.Machine.execKeyRevoke h p s
  | .keyStatusRead h p => Sys2Proof.Machine.execKeyStatusRead h p s
  | .certLoad h p => Sys2Proof.Machine.execCertLoad h p s
  | .certVerified => Sys2Proof.Machine.execCertVerified s
  | .certCommitted => Sys2Proof.Machine.execCertCommitted s
  | .certEraseDone => Sys2Proof.Machine.execCertEraseDone s
  | .certRead h p => Sys2Proof.Machine.execCertRead h p s
  | .fenceStatus h p => Sys2Proof.Machine.execFenceStatus h p s
  | .otpOption h p => Sys2Proof.Machine.execOtpOption h p s
  | .jtagInstruction cells => Sys2Proof.Machine.execJtagInstruction cells s
  | .bzFbChange channel closed => Sys2Proof.Machine.execBzFbChange channel closed s
  | .slolosPortStart port => Sys2Proof.Machine.execSlolosPortStart port s
  | .claspLineIdle port => Sys2Proof.Machine.execClaspLineIdle port s
  | .claspMessageSent port => Sys2Proof.Machine.execClaspMessageSent port s
  | .canFrameTransmitted controller => Sys2Proof.Machine.execCanFrameTransmitted controller s
  | .otpProgramDone => Sys2Proof.Machine.execOtpProgramDone s
  | .tombstoneCommitted => Sys2Proof.Machine.execTombstoneCommitted s
  | .bodyHashDone => Sys2Proof.Machine.execBodyHashDone s

end Sys2Proof.Machine
end

