-- ==== Sys2Proof/Machine/Balls.lean ====
section
/-!
DEFINITION. The balls (02): what the die does at each signal of Table 02-7, derived from the state. A level that an owning block
sets is its value while the block is configured; any other state is the reset state of the table, which a ball keeps until its
block takes it over (R29).
-/
namespace Sys2Proof.Machine

/-- The signals of Table 02-7; `port` 0 is the front Clasp port or SLA, 1 the rear port or SLB. -/
inductive Signal where
  | pwmh (n : Nat) | pwml (n : Nat) | dflt (n : Nat) | mdat (n : Nat) | mclk (n : Nat) | cmpin (n : Nat)
  | hsSclk | hsMosi | hsMiso | hsCsn | hsIntn
  | canTx (n : Nat) | canRx (n : Nat)
  | pndClk | pndDat | pndAlrtn
  | slTx (port : Nat) | slRx (port : Nat)
  | clSen (port : Nat) | clDr (port : Nat) | clTxd (port : Nat) | clRxd (port : Nat)
  | bzDrv (n : Nat) | bzFb (n : Nat) | bzVs (n : Nat) | bzIs (n : Nat)
  | ain (n : Nat) | adcref (n : Nat) | gpio (n : Nat)
  | tck | tms | tdi | tdo | trstn | testen
  | mode (n : Nat) | nrst | safeN | wake (n : Nat) | xsel | xin | xout
deriving DecidableEq, Repr

/-- What the die does at a ball. -/
inductive Level where
  /-- Driven low or high. -/
  | low | high
  /-- The pulses of R172, the modulator clock (Table 04-1), and characters, frames or messages being sent. -/
  | pulses | clock | sending
  /-- Not driven: high impedance, an open drain released, a differential pair without transitions; undriven without its supply. -/
  | highZ | released | idle | undriven
  /-- A Clasp termination (R339). -/
  | source | sink
  /-- An input that is read, and one that is ignored. -/
  | input | ignored
  /-- An analogue function that is off, or on. -/
  | off | on
deriving DecidableEq, Repr

/-- The supply of a signal (Table 02-7). -/
def Signal.supply : Signal → Supply
  | .cmpin _ | .slTx _ | .slRx _ | .bzVs _ | .bzIs _ | .ain _ | .adcref _ => .vana
  | .nrst | .safeN | .wake _ => .vaon
  | .xin | .xout => .vpll
  | _ => .vio

/-- A level as driven. -/
def Level.driven (b : Bool) : Level := if b then .high else .low

/-- A level of an owning block, which is that of reset while a reset is held or the block has not started. -/
def State.owned (s : State) (b : Block) (reset mine : Level) : Level := if s.sys.held || !s.isReady b then reset else mine

/-- A gate ball of a leg (R172, R220). -/
def Leg.gate (l : Leg) (high : Bool) : Level :=
  match l.drive with
  | .low => .low
  | .pulses => if high then (if l.highOmitted then .low else .pulses) else if l.lowHeldOff || l.lowOmitted then .low else .pulses
  | .lowOn => if high then .low else .high
  | .ending => if high && !l.highOmitted then .pulses else .low

/-- The GPIO that a port's record has drive its jumper supply, and whether it is on (Table 14-2, R354). -/
def State.jumperGpio (s : State) (n : Nat) : Option Bool :=
  if !s.isReady .clasp || s.otp.partWq || s.sys.held then none
  else if (s.port 0).body.isSome && (s.port 0).prof 2 1 = n then some (s.port 0).js
  else if (s.port 1).body.isSome && (s.port 1).prof 2 1 = n then some (s.port 1).js
  else none

/-- A termination (R339). -/
def Term.level : Term → Level
  | .opened => .highZ | .source => .source | .sink => .sink

/-- A port sends a message. -/
def Port.sends (p : Port) : Bool := (p.out.any fun x => x.state == .sending) || p.answerState == some .sending

/-- The oscillator runs: not in STANDBY or HIBERNATE (R82, R85). -/
def Sys.oscillates (y : Sys) : Bool := y.clk != .stopped

/-- What the die does at a ball whose supply is present. -/
def State.level (s : State) : Signal → Level
  | .pwmh n => match s.sys.cells with
    | some c => .driven (c.pwmh.getLsbD n)
    | none => s.owned .conv .low ((s.conv.leg n).gate true)
  | .pwml n => match s.sys.cells with
    | some c => .driven (c.pwml.getLsbD n)
    | none => s.owned .conv .low ((s.conv.leg n).gate false)
  | .bzDrv n => match s.sys.cells with
    | some c => .driven (c.bz.getLsbD n)
    | none => s.owned .bezel .low (.driven (s.chan n).drv)
  | .dflt _ => if s.isReady .conv && s.isReady .prot then .input else .ignored
  | .mdat n => s.owned .conv .ignored (if s.conv.used n then .input else .ignored)
  | .mclk n => s.owned .conv .low (if s.sys.clk == .running && s.conv.mclk n then .clock else .low)
  | .cmpin n => s.owned .prot .off (if s.prot.cmpRole n = 0 then .off else .on)
  | .hsSclk | .hsMosi | .hsCsn => .input
  | .hsMiso => .highZ
  | .hsIntn => s.owned .cmd .released (if s.cmd.interrupts then .low else .released)
  | .canTx _ => .high
  | .canRx n => if s.canOn n then .input else if s.otp.partWq then .ignored else .input
  | .pndClk => if s.pendantOn then .input else .ignored
  | .pndDat => if s.pendantOn && s.pendant.ready then .low else .highZ
  | .pndAlrtn => if s.pendantOn && s.pendant.alert then .low else .released
  | .slTx p => if s.portsRun && !(if p = 0 then s.slolos.txA else s.slolos.txB).isEmpty then .sending else .idle
  | .slRx p => if s.portsRun && s.slolos.port p != .off then .input else .off
  | .clSen p => if s.claspOn p && (s.port p).enabled then .on else .off
  | .clDr p => if s.claspOn p then (s.port p).term.level else .highZ
  | .clTxd p => if s.claspOn p && (s.port p).sends then .sending else .low
  | .clRxd p => if s.claspOn p && (s.port p).enabled then .input else .ignored
  | .bzFb n => s.owned .bezel .ignored (if (s.chan n).body.isSome then .input else .ignored)
  | .bzVs n | .bzIs n => s.owned .bezel .off (if (s.chan n).body.isSome then .on else .off)
  | .ain _ => s.owned .meas .off .on
  | .adcref _ => s.owned .meas .off .on
  | .gpio n => match s.jumperGpio n with
    | some on => .driven on
    | none => .input
  | .tck | .tms | .tdi | .trstn => if s.sys.tapOn then .input else .ignored
  | .tdo => .highZ
  | .testen => if s.lc == .blank then .input else .ignored
  | .mode _ | .xsel | .nrst => .input
  | .safeN => if s.sys.safeLow then .low else .released
  | .wake n => if s.sys.wake.enable.getLsbD n then .input else .ignored
  | .xin => if s.sys.oscillates then .on else .off
  | .xout => if s.sys.oscillates && !s.sys.xsel then .on else .off

/-- The supply of a signal is above its threshold. -/
def State.supplied (s : State) (x : Signal) : Bool := s.sys.supplies.getLsbD (supplyBit x.supply)

/-- What the die does at a ball: undriven while its supply is absent (R30). A command runs between two bit times, so HS_MISO and TDO
are seen at high impedance, as between transactions. -/
def State.ball (s : State) (x : Signal) : Level := if s.supplied x then s.level x else .undriven

end Sys2Proof.Machine
end

