-- ==== Sys2Proof/Safety.lean ====
section
/-!
DEFINITION. What counts as a sound state of the block, and the terms in which the claims speak of a command: the packet that
a request row carries is admitted, is executed at once, or waits for its boundary.
-/
namespace Sys2Proof.Machine

/-! ### Sound states -/

/-- The command engine holds its routes and loss counts, at most eight commands of this die wait (R125), no origin uses a
tag twice (R124), the SPI target holds at most two packets (R139), and an interface at most 32 events (R135). -/
structure Cmd.Sound (c : Cmd) : Prop where
  routes : c.routes.length = 3
  lost : c.lost.length = 3
  queue : c.depth 0 ≤ Config.queueEntries
  tags : (c.flights.map fun f => (f.key.origin, f.key.tag)).Nodup
  spi : c.spiHeld ≤ Config.spiBuffers
  events0 : c.eventCount 0 ≤ Config.eventSpace
  events1 : c.eventCount 1 ≤ Config.eventSpace
  events2 : c.eventCount 2 ≤ Config.eventSpace

/-- Sixteen timers (R400), each with a capture queue of at most four entries (R406), and a 32-bit epoch number (R151). -/
structure Time.Sound (y : Time) : Prop where
  timers : y.timers.length = 16
  captures : ∀ t ∈ y.timers, t.captures.length ≤ 4
  epoch : y.epoch < 2 ^ 32

/-- The watchdog count stops at CLOSE (R409). -/
structure Wdg.Sound (w : Wdg) : Prop where
  count : w.count ≤ w.closeTick

/-- Four protected memories, and no drip count above its ceiling (R420). -/
structure Memi.Sound (m : Memi) : Prop where
  rams : m.rams.length = 4
  drip : ∀ r ∈ m.rams, r.count ≤ r.ceiling

/-- Four lanes, sixteen legs and twenty decimators (R1, R169). -/
structure Conv.Sound (c : Conv) : Prop where
  lanes : c.lanes.length = 4
  legs : c.legs.length = 16
  decims : c.decims.length = 20

/-- Thirty-two echo records (R230) of which each lane's crowbar has a place. -/
structure Prot.Sound (p : Prot) : Prop where
  echo : p.echo.length = 32
  crowbars : p.crowbars.length = 4

/-- Six Bezel channels and sixteen shares (R262, R276). -/
structure Path.Sound (p : Path) : Prop where
  chans : p.chans.length = 6
  shares : p.shares.length = 16

/-- Sixteen strands (R236). -/
structure Charge.Sound (c : Charge) : Prop where
  strands : c.strands.length = 16

/-- Sixty-three worker contexts (Table 13-6), and a 32-bit epoch number in the marker held (R322). -/
structure Slolos.Sound (y : Slolos) : Prop where
  ctxs : y.ctxs.length = 63
  marker : ∀ m, y.marker = some m → m.1 < 2 ^ 32

/-- Two Clasp ports (R338). -/
structure Clasp.Sound (c : Clasp) : Prop where
  ports : c.ports.length = 2

/-- Four converters, 64 accumulators and 32 trackers (R362, R371, R374). -/
structure Meas.Sound (m : Meas) : Prop where
  adcs : m.adcs.length = 4
  accs : m.accs.length = 64
  trks : m.trks.length = 32

/-- Eight external channels and sixteen strands (R391, R392). -/
structure Therm.Sound (t : Therm) : Prop where
  ext : t.ext.length = 8
  batt : t.batt.length = 16

/-- The staging buffer is in its canonical form (R112). -/
structure Flash.Sound (f : Flash) : Prop where
  staging : Memory.wf f.staging = true

/-- SYS is ready whenever the die is powered: the always-on domain serves it (R71, Table 04-5). -/
structure Sys.Sound (y : Sys) : Prop where
  ready : y.ready.getLsbD 0 = true

/-- A sound state. -/
structure State.Inv (s : State) : Prop where
  sys : s.sys.Sound
  flash : s.flash.Sound
  cmd : s.cmd.Sound
  time : s.time.Sound
  wdg : s.wdg.Sound
  memi : s.memi.Sound
  conv : s.conv.Sound
  prot : s.prot.Sound
  path : s.path.Sound
  slolos : s.slolos.Sound
  charge : s.charge.Sound
  clasp : s.clasp.Sound
  meas : s.meas.Sound
  therm : s.therm.Sound

/-- The bits of a triple that some copy has lost. -/
def Triple.keeps (old new : Triple) : Prop :=
  old.a &&& ~~~new.a = 0 ∧ old.b &&& ~~~new.b = 0 ∧ old.c &&& ~~~new.c = 0

/-- OTP only ever gains: the fields programmed at the factory stand, programmed bits stay, and the rollback version does not
fall (R86, R91, R108). -/
structure Otp.Keeps (old new : Otp) : Prop where
  dieId : new.dieId = old.dieId
  trim : new.factoryTrim = old.factoryTrim
  part : new.partWq = old.partWq
  lc : old.lcState.keeps new.lcState
  wiped : old.lcWiped.keeps new.lcWiped
  rollback : old.rollback ≤ new.rollback
  keys : old.iProgrammed &&& ~~~new.iProgrammed = 0
  vRevoked : old.vRevoked &&& ~~~new.vRevoked = 0
  iRevoked : old.iRevoked &&& ~~~new.iRevoked = 0
  role : old.roleCfg &&& ~~~new.roleCfg = 0
  wdg : old.wdgCfg &&& ~~~new.wdgCfg = 0

/-! ### Requests -/

/-- The request of a row: its opcode, header and payload; a row that carries none has none. -/
def requestOf : Instr → Option (OpSpec × Hdr × List Byte)
  | .echo h p => some (opEcho, h, p)
  | .dieInfo h p => some (opDieInfo, h, p)
  | .cancel h p => some (opCancel, h, p)
  | .eventRoute h p => some (opEventRoute, h, p)
  | .canConfig h p => some (opCanConfig, h, p)
  | .cmdStats h p => some (opCmdStats, h, p)
  | .enterStandby h p => some (opEnterStandby, h, p)
  | .enterHibernate h p => some (opEnterHibernate, h, p)
  | .setWake h p => some (opSetWake, h, p)
  | .softReset h p => some (opSoftReset, h, p)
  | .epochStatus h p => some (opEpochStatus, h, p)
  | .epochSetLength h p => some (opEpochSetLength, h, p)
  | .laneConfig h p => some (opLaneConfig, h, p)
  | .laneStart h p => some (opLaneStart, h, p)
  | .laneStop h p => some (opLaneStop, h, p)
  | .setLaneTarget h p => some (opSetLaneTarget, h, p)
  | .setLaneCoeffs h p => some (opSetLaneCoeffs, h, p)
  | .setLaneProfile h p => some (opSetLaneProfile, h, p)
  | .setBurst h p => some (opSetBurst, h, p)
  | .tuningControl h p => some (opTuningControl, h, p)
  | .lanePhaseLock h p => some (opLanePhaseLock, h, p)
  | .laneLegs h p => some (opLaneLegs, h, p)
  | .laneStatus h p => some (opLaneStatus, h, p)
  | .protConfig h p => some (opProtConfig, h, p)
  | .protClear h p => some (opProtClear, h, p)
  | .protLogRead h p => some (opProtLogRead, h, p)
  | .echoRead h p => some (opEchoRead, h, p)
  | .echoClear h p => some (opEchoClear, h, p)
  | .strandConfig h p => some (opStrandConfig, h, p)
  | .chargeStart h p => some (opChargeStart, h, p)
  | .chargeStop h p => some (opChargeStop, h, p)
  | .chargeEqualise h p => some (opChargeEqualise, h, p)
  | .strandStatus h p => some (opStrandStatus, h, p)
  | .bmsLimits h p => some (opBmsLimits, h, p)
  | .strandPlan h p => some (opStrandPlan, h, p)
  | .bezelConfig h p => some (opBezelConfig, h, p)
  | .pathConfig h p => some (opPathConfig, h, p)
  | .sourceInhibit h p => some (opSourceInhibit, h, p)
  | .bezelClear h p => some (opBezelClear, h, p)
  | .pathStatus h p => some (opPathStatus, h, p)
  | .peerPower h p => some (opPeerPower, h, p)
  | .pendantConfig h p => some (opPendantConfig, h, p)
  | .pendantStatus h p => some (opPendantStatus, h, p)
  | .chainStatus h p => some (opChainStatus, h, p)
  | .chainWorker h p => some (opChainWorker, h, p)
  | .chainEnumerate h p => some (opChainEnumerate, h, p)
  | .chainReset h p => some (opChainReset, h, p)
  | .chainConfig h p => some (opChainConfig, h, p)
  | .claspConfig h p => some (opClaspConfig, h, p)
  | .claspStatus h p => some (opClaspStatus, h, p)
  | .claspRequest h p => some (opClaspRequest, h, p)
  | .claspSwapJs h p => some (opClaspSwapJs, h, p)
  | .claspHold h p => some (opClaspHold, h, p)
  | .claspDetach h p => some (opClaspDetach, h, p)
  | .measTable h p => some (opMeasTable, h, p)
  | .measAccConfig h p => some (opMeasAccConfig, h, p)
  | .measClear h p => some (opMeasClear, h, p)
  | .measSnapshotRead h p => some (opMeasSnapshotRead, h, p)
  | .measTableStatus h p => some (opMeasTableStatus, h, p)
  | .thermConfig h p => some (opThermConfig, h, p)
  | .thermStatus h p => some (opThermStatus, h, p)
  | .thermPeakClear h p => some (opThermPeakClear, h, p)
  | .timerConfig h p => some (opTimerConfig, h, p)
  | .timerStatus h p => some (opTimerStatus, h, p)
  | .timerCaptures h p => some (opTimerCaptures, h, p)
  | .timeRead h p => some (opTimeRead, h, p)
  | .memiConfig h p => some (opMemiConfig, h, p)
  | .memiRead h p => some (opMemiRead, h, p)
  | .memiInject h p => some (opMemiInject, h, p)
  | .flashStatus h p => some (opFlashStatus, h, p)
  | .fwUpdateBegin h p => some (opFwUpdateBegin, h, p)
  | .fwUpdateChunk h p => some (opFwUpdateChunk, h, p)
  | .fwUpdateFinish h p => some (opFwUpdateFinish, h, p)
  | .fwActivate h p => some (opFwActivate, h, p)
  | .fwConfirm h p => some (opFwConfirm, h, p)
  | .fwUpdateAbort h p => some (opFwUpdateAbort, h, p)
  | .journalWrite h p => some (opJournalWrite, h, p)
  | .journalCommit h p => some (opJournalCommit, h, p)
  | .journalRead h p => some (opJournalRead, h, p)
  | .journalRemove h p => some (opJournalRemove, h, p)
  | .lcStatus h p => some (opLcStatus, h, p)
  | .lcAdvance h p => some (opLcAdvance, h, p)
  | .keyProgram h p => some (opKeyProgram, h, p)
  | .keyRevoke h p => some (opKeyRevoke, h, p)
  | .keyStatusRead h p => some (opKeyStatusRead, h, p)
  | .certLoad h p => some (opCertLoad, h, p)
  | .certRead h p => some (opCertRead, h, p)
  | .fenceStatus h p => some (opFenceStatus, h, p)
  | .otpOption h p => some (opOtpOption, h, p)
  | _ => none

/-- The state once the engine has taken the packet out of the inbound buffer. -/
def State.heard (s : State) (o : OpSpec) (h : Hdr) (p : List Byte) : State := s.modCmd fun c => c.takeInbound h o.code p

/-- The command that a request is. -/
def flightOf (s : State) (o : OpSpec) (h : Hdr) (p : List Byte) : Flight := mkFlight s h o.code p

/-- The state in which a request executes: it holds its tag and its place in the queue. -/
def State.entered (s : State) (o : OpSpec) (h : Hdr) (p : List Byte) : State :=
  (s.heard o h p).modCmd fun c => { c with flights := c.flights ++ [flightOf s o h p] }

/-- The command of a scheduled request, which waits for its boundary. -/
def waitingOf (s : State) (o : OpSpec) (h : Hdr) (p : List Byte) : Flight := { flightOf s o h p with phase := .waiting }

/-- The state in which it waits. -/
def State.queued (s : State) (o : OpSpec) (h : Hdr) (p : List Byte) : State :=
  (s.heard o h p).modCmd fun c => { c with flights := c.flights ++ [waitingOf s o h p] }

/-- A request of this die passes Table 06-2 from step 4 on: the packet reaches the engine, and no step refuses it. -/
structure Admitted (o : OpSpec) (h : Hdr) (p : List Byte) (s : State) : Prop where
  hears : receives h s = true
  header : badHeader h = false
  single : (h.flags.getLsbD 5 && !h.chain) = false
  target : ownTarget h s = true
  part : (o.mqOnly && s.otp.partWq) = false
  tag : ∀ g ∈ s.cmd.flights, ¬(g.key.origin = h.origin ∧ g.key.tag = h.tag.toNat)
  room : noTag h s = false
  sched : badScheduling o h = false
  window : windowRefusal h s = none
  queue : s.cmd.depth 0 < Config.queueEntries
  check : ownCheck o (s.heard o h p) (flightOf s o h p) = none

/-- An admitted request that executes at once: it is not scheduled, its block is ready, and Eupefen runs where it is needed. -/
structure Runs (o : OpSpec) (h : Hdr) (p : List Byte) (s : State) : Prop where
  admitted : Admitted o h p s
  now : h.flags.getLsbD 6 = false
  ready : o.notReady s = false
  core : (o.eupefen && s.geode.stalled) = false

/-- An admitted request that waits for its boundary. -/
structure Waits (o : OpSpec) (h : Hdr) (p : List Byte) (s : State) : Prop where
  admitted : Admitted o h p s
  scheduled : h.flags.getLsbD 6 = true

/-- A command can execute at its boundary. -/
structure Executes (o : OpSpec) (f : Flight) (s : State) : Prop where
  opcode : f.opcode = o.code
  ready : o.notReady s = false
  core : (o.eupefen && s.geode.stalled) = false

/-- A row's request, executed at once, has the effect `e` and is answered with `a`. -/
def Performs (c : Hdr → List Byte → Instr) (o : OpSpec) (e : State → Flight → State) (a : State → Flight → Answer) : Prop :=
  ∀ h p s, Runs o h p s →
    exec (c h p) s = .next ((e (s.entered o h p) (flightOf s o h p)).finish (flightOf s o h p)
      (a (s.entered o h p) (flightOf s o h p)))

/-- No answer is sent yet: a command that waited is being worked on. -/
def State.unanswered (s : State) (f : Flight) : State :=
  s.modFlight f.key fun g => if g.phase == .waiting then { g with phase := .working } else g

/-- A row's request, executed at once, has the effect `e`; its answer comes with a later event. -/
def Starts (c : Hdr → List Byte → Instr) (o : OpSpec) (e : State → Flight → State) : Prop :=
  ∀ h p s, Runs o h p s → exec (c h p) s = .next ((e (s.entered o h p) (flightOf s o h p)).unanswered (flightOf s o h p))

/-- A row's scheduled request is answered ACCEPTED and waits for its boundary, where it has the effect `e` and is answered
with `a`. -/
def Applies (c : Hdr → List Byte → Instr) (o : OpSpec) (e : State → Flight → State) (a : State → Flight → Answer) : Prop :=
  (∀ h p s, Waits o h p s → exec (c h p) s = .next ((s.queued o h p).answerAccepted (waitingOf s o h p))) ∧
    ∀ s f, Executes o f s → s.executeFlight f = (e s f).finish f (a s f)

/-- A row's scheduled request is answered ACCEPTED and waits for its boundary, where it has the effect `e`; its completion
reply comes with a later event, or never. -/
def AppliesLater (c : Hdr → List Byte → Instr) (o : OpSpec) (e : State → Flight → State) : Prop :=
  (∀ h p s, Waits o h p s → exec (c h p) s = .next ((s.queued o h p).answerAccepted (waitingOf s o h p))) ∧
    ∀ s f, Executes o f s → s.executeFlight f = (e s f).unanswered f

end Sys2Proof.Machine
end

