-- ==== Sys2Proof/Certificates/Slice0/Obligations.lean ====
section
/-!
DEFINITION. The statements for the provers. Each is about every state that meets its premises; OBLIGATIONS.json cites the
rules it rests on.
-/
open Sys2Proof Sys2Proof.Machine

/-! ### The step, the queue, and what every command keeps -/

/-- A step takes the command at the front of the queue: it is `exec` of that command on the state with the rest. -/
def Obligations.StepRunsTheFront : Prop :=
  ∀ (c : Instr) (rest : List Instr) (s : State), s.pending = c :: rest → step s = exec c { s with pending := rest }

/-- With no command waiting, a step is the passing of time, and it keeps the queue empty. The meaning of an empty queue is the
model's choice (log 14). -/
def Obligations.StepIdles : Prop :=
  ∀ s : State, s.pending = [] → step s = .next s.idle ∧ (s.Inv → s.idle.pending = [])

/-- The state after reset is sound. -/
def Obligations.ResetIsSound : Prop := State.reset.Inv

/-- Every command answers a next state, in every state; in a sound one it leaves the queue of waiting commands as it is. -/
def Obligations.EveryCommandCompletes : Prop :=
  ∀ (c : Instr) (s : State), ∃ t : State, exec c s = .next t ∧ (s.Inv → t.pending = s.pending)

/-- Every step from a sound state leads to a sound state. -/
def Obligations.StepKeepsSound : Prop := ∀ s t : State, s.Inv → step s = .next t → t.Inv

/-- OTP only gains in a step: factory fields stand, programmed and revoked bits stay set, and the rollback version does not
fall. -/
def Obligations.OtpOnlyGains : Prop := ∀ s t : State, s.Inv → step s = .next t → s.otp.Keeps t.otp

/-- The registers read as their tables give them at reset: after a POR, with the straps open and OTP selecting CLK_CORE for
the watchdog. -/
def Obligations.ResetRegisters : Prop :=
  let r : Block → Nat → Nat := fun b o => (State.reset.readReg b o).1
  (∀ x ∈
    ([(.sys, 0x04, 0x00000001), (.sys, 0x08, 0x00000002), (.sys, 0x0C, 0x00010002), (.sys, 0x14, 0), (.sys, 0x20, 0),
      (.sys, 0x40, 0), (.sys, 0x44, 0), (.cmd, 0x0, 0), (.cmd, 0x4, 0), (.cmd, 0x8, 0x00000001),
      (.time, 0x800, 0), (.time, 0x804, 0), (.time, 0x808, 0x00FA03E8), (.time, 0x80C, 0x00000040),
      (.time, 0x0, 0), (.time, 0x4, 0), (.time, 0x8, 0), (.time, 0xC, 0),
      (.wdg, 0x0, 0), (.wdg, 0x4, 0x01F40064), (.wdg, 0x8, 0), (.wdg, 0xC, 0),
      (.conv, 0x0, 0x0000FFFF), (.conv, 0x4, 0), (.prot, 0x0, 0), (.prot, 0x4, 0), (.prot, 0x8, 0),
      (.meas, 0x0, 0), (.meas, 0x4, 0), (.meas, 0x8, 0), (.therm, 0x0, 0), (.therm, 0x4, 0), (.therm, 0x8, 0),
      (.bezel, 0x0, 0), (.bezel, 0x4, 0), (.bezel, 0x8, 0), (.bezel, 0xC, 0),
      (.slolos, 0x0, 0), (.slolos, 0x4, 0), (.slolos, 0x8, 0xFFFF0000),
      (.clasp, 0x0, 0), (.clasp, 0x4, 0), (.clasp, 0x10, 0), (.clasp, 0x14, 0),
      (.pendant, 0x0, 0), (.pendant, 0x4, 0), (.pendant, 0x8, 0), (.pendant, 0xC, 0),
      (.memi, 0x0, 0), (.geode, 0x0, 0), (.geode, 0x4, 0)] : List (Block × Nat × Nat)), r x.1 x.2.1 = x.2.2)
    ∧ (∀ n < 16, r .time (0x100 + 0x20 * n) = 0 ∧ r .time (0x104 + 0x20 * n) = 0 ∧ r .time (0x108 + 0x20 * n) = 0xFFFFFFFF
        ∧ r .time (0x10C + 0x20 * n) = 0 ∧ r .time (0x110 + 0x20 * n) = 0 ∧ r .time (0x114 + 0x20 * n) = 0
        ∧ r .time (0x118 + 0x20 * n) = 0 ∧ r .conv (0x100 + 4 * n) = 0)
    ∧ (∀ a < 64, r .meas (0x1000 + 0x10 * a) = 0 ∧ r .meas (0x1004 + 0x10 * a) = 0x00010000
        ∧ r .meas (0x1008 + 0x10 * a) = 0 ∧ r .meas (0x100C + 0x10 * a) = 0)
    ∧ (∀ t < 32, r .meas (0x1400 + 8 * t) = 0x0000FFFF ∧ r .meas (0x1404 + 8 * t) = 0x00000001)
    ∧ (∀ k < 63, r .slolos (0x104 + 4 * k) = 0)
    ∧ (∀ k < 4, r .therm (0x10 + 4 * k) = 0 ∧ r .memi (0x10 + 4 * k) = 0x00400000 ∧ r .memi (0x20 + 4 * k) = 0)

/-! ### Command packets: receipt, acceptance, answers (06) -/

/-- Table 06-2. A packet that fails check 1 is discarded and counted, one that fails check 2 or 3 gets its reply; an undefined
opcode is refused by steps 4 to 7; of a request that reaches the engine, the first of steps 4 to 12 that fails gives the only
reply; and step 13 refuses a command of this die that passes them. Nothing else changes. -/
def Obligations.ReceiptOrder : Prop :=
  (∀ (g : Origin) (n : Nat) (b : List Byte) (s : State), s.hears g = true →
    let t := s.modCmd fun c => { c with inbox := c.inbox.erase { origin := g, node := n, bytes := b } }
    (b.length < 16 ∨ getAt b 0 0 ≠ 0xA7 →
      exec (.malformedPacket g n b) s = .next (t.modCmd fun c => { c with framing := satAdd 255 c.framing 1 })) ∧
    (16 ≤ b.length → getAt b 0 0 = 0xA7 → fieldAt b 6 2 + 16 ≠ b.length →
      exec (.malformedPacket g n b) s = .next (t.replyDamaged g n b stBadLength)) ∧
    (16 ≤ b.length → getAt b 0 0 = 0xA7 → fieldAt b 6 2 + 16 = b.length → crc32Good b = false →
      exec (.malformedPacket g n b) s =
        .next ((t.replyDamaged g n b stBadCrc).modCmd fun c => { c with crcErr := satAdd 255 c.crcErr 1 }))) ∧
  (∀ (h : Hdr) (code : Nat) (p : List Byte) (s : State), s.defines code = false → receives h s = true →
    let t := s.modCmd fun c => c.takeInbound h code p
    exec (.undefinedOpcode h code p) s = .next (t.refuse (mkFlight s h code p)
      (if (h.flags &&& 0x9F) ≠ 0 ∨ 64 ≤ h.target.toNat ∨ 128 ≤ h.tag.toNat ∨ h.tag = 0 then [stBadParam]
        else if h.flags.getLsbD 5 = true ∧ h.chain = false ∧ ¬(s.isManager = true ∧ h.target = 0) then [stBadParam]
        else if absentTarget h s = true then [stTargetAbsent]
        else [stBadOpcode]))) ∧
  (∀ (c : Instr) (o : OpSpec) (h : Hdr) (p : List Byte) (s : State) (a : Byte), requestOf c = some (o, h, p) →
    receives h s = true →
    let f := flightOf s o h p
    let d := (h.epoch + 2 ^ 32 - s.time.epoch) % 2 ^ 32
    let later := h.flags.getLsbD 6
    (([(decide ((h.flags &&& 0x9F) ≠ 0) || decide (64 ≤ h.target.toNat) || decide (128 ≤ h.tag.toNat) || h.tag == 0, stBadParam),
       (h.flags.getLsbD 5 && !h.chain && !(s.isManager && h.target == 0 && o.bcast), stBadParam),
       (!ownTarget h s && !(s.isManager && s.enumerated h.target.toNat), stTargetAbsent),
       (o.mqOnly && s.otp.partWq, stBadOpcode),
       (s.cmd.flights.any fun g => g.key.origin == h.origin && g.key.tag == h.tag.toNat, stTagInUse),
       (noTag h s, stNoTag),
       ((o.sched == .unscheduled && later) || (o.sched == .scheduled && !later) || (!later && h.epoch != 0), stBadParam),
       (later && s.isWorker && !s.time.hasEpoch, stNotReady),
       (later && (d == 0 || decide (2 ^ 31 ≤ d)), stTooLate),
       (later && d == 1 && decide (s.ticksLeft < 10 * Config.ticksPerUs), stTooLate),
       (later && decide (2 ^ 20 < d), stTooEarly),
       (queueFull f s, stQueueFull)] : List (Bool × Byte)).find? (·.1)).map (·.2) = some a →
      exec c s = .next ((s.heard o h p).refuse f [a])) ∧
  (∀ (c : Instr) (o : OpSpec) (h : Hdr) (p : List Byte) (s : State) (a : Answer), requestOf c = some (o, h, p) →
    receives h s = true → receiptRefusal o h (flightOf s o h p) (s.heard o h p) = none →
    (flightOf s o h p).bcast = false → ownTarget h s = true → ownCheck o (s.heard o h p) (flightOf s o h p) = some a →
    exec c s = .next ((s.heard o h p).refuse (flightOf s o h p) a))

/-- An admitted scheduled request, a certificate apart, waits for its boundary and is answered ACCEPTED: SHORT_LEAD and
SHORT_MARGIN by the epochs and the time left, then the epoch in progress. -/
def Obligations.ScheduledRequestsAreAccepted : Prop :=
  ∀ (c : Instr) (o : OpSpec) (h : Hdr) (p : List Byte) (s : State), requestOf c = some (o, h, p) → Waits o h p s →
    o.code ≠ 0x0D05 →
    let d := (h.epoch + 2 ^ 32 - s.time.epoch) % 2 ^ 32
    exec c s = .next ((s.queued o h p).replyFirst (waitingOf s o h p)
      ([0x01, BitVec.ofNat 8 (bit (decide (d < 2)) + 2 * bit (d == 1 && decide (s.ticksLeft < 100 * Config.ticksPerUs)))]
        ++ le 4 s.time.epoch))

/-- A manager's command for an enumerated worker holds a tag and a place in that worker's queue, and travels down the chain in
a packet frame with its origin. A broadcast holds one tag and a place in queue 0 and in every enumerated worker's, goes down the chain once for every enumerated worker, and then is the
manager's own: refused by step 13, accepted, or executed. -/
def Obligations.RequestsReachTheWorkers : Prop :=
  (∀ (c : Instr) (o : OpSpec) (h : Hdr) (p : List Byte) (s : State), requestOf c = some (o, h, p) → receives h s = true →
    receiptRefusal o h (flightOf s o h p) (s.heard o h p) = none → (flightOf s o h p).bcast = false →
    ownTarget h s = false →
    let f := flightOf s o h p
    exec c s = .next
      (((s.heard o h p).modCmd fun x => { x with flights := x.flights ++ [{ f with phase := .forwarded }] }).sendDown
        (.packet (packetFrame h.target.toNat h.origin (f.bytes h.target.toNat))))) ∧
  ∀ (c : Instr) (o : OpSpec) (h : Hdr) (p : List Byte) (s : State), requestOf c = some (o, h, p) → receives h s = true →
    receiptRefusal o h (flightOf s o h p) (s.heard o h p) = none → (flightOf s o h p).bcast = true →
    let g : Flight := { flightOf s o h p with
      awaited := 0 :: s.workerList, queues := s.workerList, phase := if (flightOf s o h p).sched then .waiting else .working }
    let t := s.workerList.foldl
      (fun (t : State) k => t.sendDown (.packet (packetFrame k h.origin (g.bytes 0))))
      ((s.heard o h p).modCmd fun x => { x with flights := x.flights ++ [g] })
    exec c s = .next (match ownCheck o t g with
      | some a => (t.modFlight g.key fun x => { x with phase := .forwarded }).dieAnswer g.key 0 a
      | none => if g.sched then o.accept t g else o.execute t g)

/-- A request that cannot reach the engine (not ready, a CAN controller that is off, CAN on the smaller part) is dropped without a
reply. An admitted one whose block is not ready is answered NOT_READY, at receipt or at its boundary, and a stalled application
core holds what its handling needs. -/
def Obligations.RequestsThatDoNotExecute : Prop :=
  (∀ (c : Instr) (o : OpSpec) (h : Hdr) (p : List Byte) (s : State), requestOf c = some (o, h, p) → receives h s = false →
    exec c s = .next (s.heard o h p)) ∧
  (∀ (c : Instr) (o : OpSpec) (h : Hdr) (p : List Byte) (s : State), requestOf c = some (o, h, p) → Admitted o h p s →
    h.flags.getLsbD 6 = false →
    (o.notReady s = true → exec c s = .next ((s.entered o h p).finish (flightOf s o h p) [stNotReady])) ∧
    (o.notReady s = false → o.eupefen = true → s.geode.stalled = true →
      exec c s = .next ((s.entered o h p).modFlight (flightOf s o h p).key fun g => { g with phase := .held }))) ∧
  (∀ (o : OpSpec) (s : State) (f : Flight), opSpec f.opcode = some o →
    (o.notReady s = true → s.executeFlight f = s.finish f [stNotReady]) ∧
    (o.notReady s = false → o.eupefen = true → s.geode.stalled = true →
      s.executeFlight f = s.modFlight f.key fun g => { g with phase := .held }))

/-- A final answer to a command that is not a broadcast: on a host interface one packet joins the outbound queue, with the reply
flag, the request's scheduling and broadcast flags, its tag and opcode, this die's address, and the epoch; the command keeps its
tag until that packet has left. A reply over the chain leaves as a packet frame, and keeps the tag until the frame has left; a reply to
the die's own Eupefen frees it at once. -/
def Obligations.FinalAnswers : Prop :=
  ∀ (s : State) (f : Flight) (a : Answer), f.bcast = false →
    let k : Packet :=
      { flags := 0x80 ||| (f.flags &&& 0x60), target := BitVec.ofNat 8 s.slolos.address, tag := BitVec.ofNat 8 f.key.tag,
        opcode := f.opcode, epoch := if f.sched then f.epoch else f.accEpoch, payload := a }
    (∀ i, f.key.chain = false → f.key.origin.iface = some i →
      s.finish f a = (s.modCmd fun c =>
        c.setOut i (c.out i ++ [{ pkt := k, node := f.node, isEvent := false, frees := some f.key }])).modFlight f.key
          fun g => { g with phase := .replied }) ∧
    (f.key.chain = true →
      s.finish f a = (s.sendUp (.reply (packetFrame s.slolos.address f.key.origin k.bytes) f.key)).modFlight f.key
        fun g => { g with phase := .replied }) ∧
    (f.key.chain = false → f.key.origin = .internal → s.finish f a = s.dropFlight f.key) ∧
    (∀ x : OutItem, x.frees = some f.key → s.leftDie x = s.dropFlight f.key)

/-! ### What the requests do: command handling, system, epochs, timers, memory integrity, thermal -/

/-- ECHO, DIE_INFO, EVENT_ROUTE, CAN_CONFIG and CMD_STATS. A CAN_CONFIG that came over the controller it configures takes
effect with its reply. -/
def Obligations.CommandEngineOpcodes : Prop :=
  Performs .echo opEcho (fun t _ => t) (fun _ f => stOk :: f.payload) ∧
  Performs .dieInfo opDieInfo (fun t _ => t)
    (fun t _ => stOk :: ((t.otp.dieId ++ zeros 8).take 8 ++ le 4 t.sys.strapsReg ++ le 4 t.sys.readyReg ++ le 4 t.geodeReg
      ++ le 4 t.geode.build)) ∧
  Performs .eventRoute opEventRoute
    (fun t f => { t with cmd := { t.cmd with
      routes := setAt t.cmd.routes (byteAt f.payload 0) (BitVec.ofNat 64 (fieldAt f.payload 4 8)) } })
    (fun _ _ => [stOk]) ∧
  Performs .canConfig opCanConfig
    (fun t f => if f.ownController then t
      else t.modCmd fun c => c.setCan (byteAt f.payload 0) { c.can (byteAt f.payload 0) with body := some (f.payload.drop 4) })
    (fun _ _ => [stOk]) ∧
  Performs .cmdStats opCmdStats
    (fun t f => if bitAt f.payload 0 0 then
      { t with cmd := { t.cmd with framing := 0, crcErr := 0, eventsLost := 0, winRefused := 0 } } else t)
    (fun t _ => stOk :: (le 4 (t.cmd.flights.length * 2 ^ 16 + t.cmd.depth 0 * 2 ^ 8 + bit (t.canOn 1) * 4
        + bit (t.canOn 0) * 2 + bit (!t.cmd.outSpi.isEmpty))
      ++ le 4 (t.cmd.framing * 2 ^ 24 + t.cmd.crcErr * 2 ^ 16 + t.cmd.eventsLost * 2 ^ 8 + t.cmd.winRefused)))

/-- CANCEL: a pending command of the same origin ends SUPERSEDED unless 10 us or less remain before its boundary, when CANCEL is
answered TOO_LATE; none is BAD_PARAM. The cancel of a broadcast goes to every die that still owes its answer, and a command
forwarded to a worker is cancelled there. -/
def Obligations.CancelRemovesAPendingCommand : Prop :=
  ∀ (h : Hdr) (p : List Byte) (s : State), Runs opCancel h p s →
    let t := s.entered opCancel h p
    let f := flightOf s opCancel h p
    (t.cancelNamed f = none → exec (.cancel h p) s = .next (t.finish f [stBadParam])) ∧
    ∀ g, t.cancelNamed f = some g →
      (g.bcast = false → g.phase ≠ .forwarded → t.cancelLate g = true → exec (.cancel h p) s = .next (t.finish f [stTooLate])) ∧
      (g.bcast = false → g.phase ≠ .forwarded → t.cancelLate g = false →
        exec (.cancel h p) s = .next ((t.supersede g).finish f [stOk])) ∧
      (g.bcast = false → g.phase = .forwarded →
        exec (.cancel h p) s = .next (((t.modFlight f.key fun x => { x with phase := .forwarded }).sendDown
          (.packet (packetFrame g.target f.key.origin (f.bytes g.target)))).unanswered f)) ∧
      (g.bcast = true → t.cancelLate g = true → exec (.cancel h p) s = .next (t.finish f [stTooLate])) ∧
      (g.bcast = true → t.cancelLate g = false →
        let u := g.queues.foldl (fun (u : State) k => u.sendDown (.packet (packetFrame k f.key.origin
          ({ f with payload := [0, BitVec.ofNat 8 g.key.tag] }.bytes 0)))) t
        exec (.cancel h p) s = .next ((if g.phase = .waiting then u.supersede g else u).finish f [stOk]))

/-- SET_WAKE, SOFT_RESET and the low-power entries: an entry whose boundary finds the die quiescent is made once the boundary's
actions are done, any other ends with LOWPOWER_ABORTED and its reasons; none of them, nor a scheduled reset, has a completion
reply. -/
def Obligations.SystemOpcodes : Prop :=
  Performs .setWake opSetWake
    (fun t f => { t with sys := { t.sys with crossWake := some (240, t.sys.wake), wake :=
      { enable := BitVec.ofNat 4 (byteAt f.payload 0), level := BitVec.ofNat 4 (byteAt f.payload 1),
        csn := bitAt f.payload 2 0, slolos := bitAt f.payload 2 1, timer := bitAt f.payload 2 2,
        periods := fieldAt f.payload 4 4 } } })
    (fun _ _ => [stOk]) ∧
  Performs .softReset opSoftReset (fun t _ => t.trigger causeSoft) (fun _ _ => [stOk]) ∧
  (∀ s f, Executes opSoftReset f s → f.sched = true →
    s.executeFlight f = ((s.dropFlight f.key).trigger causeSoft).unanswered f) ∧
  AppliesLater .enterStandby opEnterStandby (fun s f =>
    if s.lowPowerReasons f = 0 then (s.dropFlight f.key).modSys fun y => { y with entering := some false }
    else (s.dropFlight f.key).event 0x7F01 ([BitVec.ofNat 8 (s.lowPowerReasons f)] ++ le 4 s.time.epoch)) ∧
  AppliesLater .enterHibernate opEnterHibernate (fun s f =>
    if s.lowPowerReasons f = 0 then (s.dropFlight f.key).modSys fun y => { y with entering := some true }
    else (s.dropFlight f.key).event 0x7F01 ([BitVec.ofNat 8 (s.lowPowerReasons f)] ++ le 4 s.time.epoch))

/-- EPOCH_STATUS and EPOCH_SET_LENGTH: the length of the epoch that the boundary opens; of several for one epoch the last applied
stands. TIMER_CONFIG sets all values of a timer at once, at receipt or at its boundary; TIMER_STATUS, TIMER_CAPTURES (which empties
the queue) and TIME_READ. -/
def Obligations.TimeOpcodes : Prop :=
  (Performs .epochStatus opEpochStatus (fun t _ => t)
    (fun t _ => stOk :: (le 4 t.time.epoch ++ le 4 t.time.tick
      ++ le 4 (minLength t.slolos.workers * 2 ^ 16 + t.time.length)
      ++ le 4 (t.time.broken * 2 ^ 16 + t.time.domain.toNat * 2 ^ 8 + t.time.wordLast.toNat))) ∧
  Applies .epochSetLength opEpochSetLength
    (fun s f => if s.laterLength f then s else { s with time := { s.time with length := fieldAt f.payload 0 2 } })
    (fun s f => if s.laterLength f then [stSuperseded] else [stOk])) ∧
  let config : State → Flight → State := fun t f => t.modTime fun y => y.setTimer (byteAt f.payload 0)
    { y.timer (byteAt f.payload 0) with
      filter := BitVec.ofNat 8 (fieldAt f.payload 4 4 / 2 ^ 12)
      edge := BitVec.ofNat 2 (fieldAt f.payload 4 4 / 2 ^ 10)
      capSel := BitVec.ofNat 3 (fieldAt f.payload 4 4 / 2 ^ 7)
      eventEn := (fieldAt f.payload 4 4).testBit 6
      wakeEn := (fieldAt f.payload 4 4).testBit 5
      armed := (fieldAt f.payload 4 4).testBit 4
      source := BitVec.ofNat 2 (fieldAt f.payload 4 4 / 4)
      count := fieldAt f.payload 8 4
      period := fieldAt f.payload 12 4
      compare := fieldAt f.payload 16 4 % (fieldAt f.payload 12 4 + 1)
      interval := fieldAt f.payload 20 4 }
  Performs .timerConfig opTimerConfig config (fun _ _ => [stOk]) ∧
  Applies .timerConfig opTimerConfig config (fun _ _ => [stOk]) ∧
  Performs .timerStatus opTimerStatus (fun t _ => t)
    (fun t f =>
      let x := t.time.timer (byteAt f.payload 0)
      stOk :: (le 4 x.ctl ++ le 4 x.count ++ le 4 x.period ++ le 4 x.compare ++ le 4 x.interval ++ le 4 x.capstat)) ∧
  Performs .timerCaptures opTimerCaptures
    (fun t f => t.modTime fun y => y.setTimer (byteAt f.payload 0) { y.timer (byteAt f.payload 0) with captures := [] })
    (fun t f =>
      let x := t.time.timer (byteAt f.payload 0)
      stOk :: (le 1 x.captures.length ++ zeros 3 ++ (x.captures.map (le 4)).flatten)) ∧
  Performs .timeRead opTimeRead (fun t _ => t)
    (fun t _ => stOk :: (le 8 t.time.sysTime ++ le 4 t.time.epoch ++ le 4 t.time.tick ++ le 4 t.wdg.count
      ++ le 4 (t.wdg.closeTick * 2 ^ 16 + t.wdg.openTick) ++ le 4 t.wdg.statusReg))

/-- MEMI_CONFIG (a count above its new ceiling becomes 0), MEMI_READ and MEMI_INJECT; THERM_CONFIG (checked again at its boundary),
THERM_STATUS and THERM_PEAK_CLEAR. -/
def Obligations.MemoryAndThermalOpcodes : Prop :=
  (Applies .memiConfig opMemiConfig
    (fun s f => { s with memi := { s.memi with rams := (s.memi.rams.zipIdx).map fun x =>
      { x.1 with
        ceiling := fieldAt (f.payload.drop 4) (4 * x.2) 2
        intervalMs := fieldAt (f.payload.drop 4) (4 * x.2 + 2) 2
        leakTicks := x.1.leakTicks % (fieldAt (f.payload.drop 4) (4 * x.2 + 2) 2 * 1000 * Config.ticksPerUs)
        count := if fieldAt (f.payload.drop 4) (4 * x.2) 2 < x.1.count then 0 else x.1.count } } })
    (fun _ _ => [stOk]) ∧
  Performs .memiRead opMemiRead (fun t _ => t)
    (fun t _ => stOk :: (le 4 t.memiStatus
      ++ (t.memi.rams.map fun r => le 4 (r.ceiling * 2 ^ 16 + r.count)).flatten
      ++ (t.memi.rams.map fun r => le 4 (r.overflows * 2 ^ 16 + r.corrected)).flatten)) ∧
  Performs .memiInject opMemiInject
    (fun t f => { t with memi := { t.memi with
      inject := some (byteAt f.payload 0, byteAt f.payload 1, fieldAt f.payload 4 4) } })
    (fun _ _ => [stOk])) ∧
  Applies .thermConfig opThermConfig
    (fun s f => if (thermConfigCheck s f.payload).isSome then s
      else { s with therm := { s.therm with body := some (f.payload.drop 4) } })
    (fun s f => (thermConfigCheck s f.payload).getD [stOk]) ∧
  Performs .thermStatus opThermStatus (fun t _ => t)
    (fun t _ => stOk :: (le 4 t.therm.statusReg ++ le 4 t.therm.junctionReg ++ le 4 t.therm.extReg
      ++ ((List.range 4).map fun k => le 4 (t.therm.sensorReg k)).flatten
      ++ (t.therm.ext.map fun x => le 2 (readingField x.reading)).flatten)) ∧
  Performs .thermPeakClear opThermPeakClear (fun t _ => { t with therm := { t.therm with peak := if t.therm.haveRead then some t.therm.reading else none } })
    (fun _ _ => [stOk])

/-! ### Firmware, journal, life cycle and certificate (05) -/

/-- FW_UPDATE_BEGIN: a session with the same signature is taken up again where it stood, with its number and next chunk;
otherwise a new session starts with a blank target slot, under a new number that is a free value (log 46). FW_UPDATE_ABORT ends
the session, and FLASH_STATUS tells the operation, the journal's fill and its generation. -/
def Obligations.UpdateSessions : Prop :=
  (∀ h p s x, Runs opFwUpdateBegin h p s → s.flash.resumes p = some x →
    exec (.fwUpdateBegin h p) s = .next ((s.entered opFwUpdateBegin h p).finish (flightOf s opFwUpdateBegin h p)
      (stOk :: (le 2 x.number ++ le 2 x.next)))) ∧
  (∀ h p s, Runs opFwUpdateBegin h p s → s.flash.resumes p = none →
    let t := s.entered opFwUpdateBegin h p
    ∃ n, n < 65536 ∧ n ≠ s.flash.lastSession ∧
      exec (.fwUpdateBegin h p) s = .next (({ t.takeNat.2 with flash := { s.flash.setSlot s.target Slot.blank with
          session := some { number := n, header := p, target := s.target, next := 0, erased := false }
          lastSession := n
          op := .updateErase n } }).finish (flightOf s opFwUpdateBegin h p) (stOk :: (le 2 n ++ le 2 0)))) ∧
  Performs .fwUpdateAbort opFwUpdateAbort (fun t _ => { t with flash := { t.flash with session := none } }) (fun _ _ => [stOk]) ∧
  Performs .flashStatus opFlashStatus (fun t _ => t)
    (fun t _ => stOk :: (le 1 t.flash.op.code ++ zeros 3 ++ le 4 t.flash.jFill ++ le 4 t.flash.jGen))

/-- FW_UPDATE_CHUNK starts the programming of its 512 bytes, and FW_UPDATE_FINISH the hash of the body. The events that follow:
the erase of the target writes the header and a session record; a chunk whose units read back is recorded and answered OK, a
chunk outside the temperature window or that does not read back (a free bit, log 123) is answered so; the hash, once no other flash operation runs, marks
the slot complete, or is answered HASH_MISMATCH, and ends the session; outside the window it is answered TEMP_FORBIDDEN. -/
def Obligations.UpdateProgress : Prop :=
  (∀ h p s x, Runs opFwUpdateChunk h p s → s.flash.session = some x →
    exec (.fwUpdateChunk h p) s = .next (((s.entered opFwUpdateChunk h p).modFlash fun y =>
      { y.setSlot x.target { y.slot x.target with programs := Nat.min 2 ((y.slot x.target).programs + 1) } with
        op := .chunk (flightOf s opFwUpdateChunk h p).key x.next (p.drop 4)
          (((y.slot x.target).part.getD (p.drop 4)) == p.drop 4) }).unanswered (flightOf s opFwUpdateChunk h p))) ∧
  Starts .fwUpdateFinish opFwUpdateFinish (fun t f =>
    { t with geode := { t.geode with hashing := some (f.key, fieldAt f.payload 0 2) } }) ∧
  (∀ (s : State) (x : Session) (n : Nat), s.flash.op = .updateErase n → s.flash.session = some x → x.number = n →
    x.erased = false → s.flashTemp = true →
    exec .updateEraseDone s = .next (((s.modFlash fun y =>
      { y.setSlot x.target { Slot.blank with header := x.header } with session := some { x with erased := true } }).appendOwn
        0xF001).flashIdle)) ∧
  (∀ (s : State) (x : Session) (k : FlightKey) (i : Nat) (d : List Byte) (same : Bool), s.flash.op = .chunk k i d same →
    s.flash.session = some x → x.erased = true → x.next = i →
    let t := s.takeBit.2
    (s.flashTemp = false → exec .chunkCommitted s = .next (((s.modFlash fun y => y.keepPart d).finishKey k
      [stTempForbidden]).flashIdle)) ∧
    (s.flashTemp = true → exec .chunkCommitted s = .next (
      if same = true ∧ s.takeBit.1 = true then (((t.modFlash fun y =>
        { y.setSlot x.target { y.slot x.target with chunks := (y.slot x.target).chunks ++ [d], part := none, programs := 0 } with
          session := some { x with next := i + 1 } }).appendOwn 0xF003).finishKey k [stOk]).flashIdle
      else ((t.modFlash fun y => { y with session := none }).finishKey k [stFlashFail]).flashIdle))) ∧
  (∀ (s : State) (x : Session) (k : FlightKey) (n : Nat), s.geode.hashing = some (k, n) → s.flash.session = some x →
    x.number = n → x.erased = true →
    let t := s.modGeode fun g => { g with hashing := none }
    (s.flash.op ≠ .none → exec .bodyHashDone s = .next s) ∧
    (s.flash.op = .none → s.flashTemp = false → exec .bodyHashDone s = .next (t.finishKey k [stTempForbidden])) ∧
    (s.flash.op = .none → s.flashTemp = true → (s.flash.slot x.target).hashOk = true → exec .bodyHashDone s =
      .next ((t.modFlash fun y => { y.setSlot x.target { s.flash.slot x.target with complete := true } with
        session := none }).finishKey k [stOk])) ∧
    (s.flash.op = .none → s.flashTemp = true → (s.flash.slot x.target).hashOk = false → exec .bodyHashDone s =
      .next ((t.modFlash fun y => { y with session := none }).finishKey k [stHashMismatch])))

/-- FW_ACTIVATE puts the new slot on trial and resets the die; in RECOVERY it becomes active at once and raises the rollback
version. FW_CONFIRM makes the slot on trial active: at once where the rollback version does not rise, and otherwise after its
OTP program. -/
def Obligations.FirmwareActivation : Prop :=
  let act : State → State := fun t =>
    if t.geode.stage = .recovery then
      (((t.modOtp fun o => { o with rollback := Nat.max o.rollback (t.flash.slot t.target).version }).modFlash fun y =>
        { y with active := t.target, trial := none }).modSys fun y =>
          { y with hint := 0 }).trigger causeSoft
    else ((t.modFlash fun y => { y with trial := some t.target }).modSys fun y => { y with hint := 1 }).trigger causeSoft
  Performs .fwActivate opFwActivate (fun t _ => act t) (fun _ _ => [stOk]) ∧
  (∀ s f, Executes opFwActivate f s → f.sched = true →
    s.executeFlight f = match activateCheck s with
      | some a => s.finish f a
      | none => (act (s.dropFlight f.key)).unanswered f) ∧
  (∀ h p s i, Runs opFwConfirm h p s → s.flash.trial = some i → s.runningVersion ≤ s.otp.rollback →
    exec (.fwConfirm h p) s = .next (((s.entered opFwConfirm h p).modFlash fun y =>
      { y with active := i, trial := none }).modSys (fun y => { y with hint := 0 }) |>.finish (flightOf s opFwConfirm h p) [stOk])) ∧
  (∀ h p s, Runs opFwConfirm h p s → s.otp.rollback < s.runningVersion →
    exec (.fwConfirm h p) s = .next (((s.entered opFwConfirm h p).modFlash fun y =>
      { y with op := .otp (flightOf s opFwConfirm h p).key }).unanswered (flightOf s opFwConfirm h p))) ∧
  (∀ (s : State) (k : FlightKey) (f : Flight), s.flash.op = .otp k → s.findFlight k = some f → f.opcode = 0x0C05 →
    s.flashTemp = true → exec .otpProgramDone s =
      .next (((s.modOtp fun o => { o with rollback := Nat.max o.rollback s.runningVersion }).confirm.finish f [stOk]).flashIdle))

/-- JOURNAL_WRITE stores its bytes in the staging buffer: every byte of the buffer outside them reads as before. -/
def Obligations.JournalWriteStoresItsBytes : Prop :=
  Performs .journalWrite opJournalWrite
    (fun t f => { t with flash := { t.flash with
      staging := Memory.store t.flash.staging (fieldAt f.payload 0 4) (f.payload.drop 4) } })
    (fun _ _ => [stOk]) ∧
  ∀ h p s t, s.Inv → Runs opJournalWrite h p s → exec (.journalWrite h p) s = .next t →
    ∀ a, Memory.read t.flash.staging a =
      if fieldAt p 0 4 ≤ a ∧ a < fieldAt p 0 4 + (p.length - 4) then getAt p (4 + (a - fieldAt p 0 4)) 0
      else Memory.read s.flash.staging a

/-- JOURNAL_COMMIT and JOURNAL_REMOVE start their appends, and the events that follow make the records stand and answer OK, or
answer TEMP_FORBIDDEN outside the temperature window; JOURNAL_READ answers the length and the body from its offset on. -/
def Obligations.JournalOpcodes : Prop :=
  Starts .journalCommit opJournalCommit (fun t f =>
    let new := t.blobRecs ((parseBlob (Memory.load t.flash.staging 0 (fieldAt f.payload 0 4))).getD [])
    { t with flash := { t.flash with op := .commit f.key new (!t.flash.fits new) } }) ∧
  (∀ (s : State) (k : FlightKey) (l : List JRec) (c : Bool), s.flash.op = .commit k l c →
    exec .journalCommitDone s = .next (if s.flashTemp = true
      then ((s.modFlash fun y => (if c then y.compact l else y).append l).finishKey k [stOk]).flashIdle
      else ((s.cutAppend (recsSize l - recSize 0) c).finishKey k [stTempForbidden]).flashIdle)) ∧
  (∀ h p s b, Runs opJournalRead h p s → s.flash.configRec p = some b → fieldAt p 4 4 < b.length →
    exec (.journalRead h p) s = .next ((s.entered opJournalRead h p).finish (flightOf s opJournalRead h p)
      (stOk :: (le 4 b.length ++ slice b (fieldAt p 4 4) 1019)))) ∧
  (∀ h p s, Runs opJournalRead h p s → (∀ b, s.flash.configRec p = some b → b.length ≤ fieldAt p 4 4) →
    exec (.journalRead h p) s = .next ((s.entered opJournalRead h p).finish (flightOf s opJournalRead h p) [stBadParam])) ∧
  Starts .journalRemove opJournalRemove (fun t f =>
    t.modFlash fun y => { y with
      op := .tombstone f.key (fieldAt f.payload 0 2) (fieldAt f.payload 2 2)
        (!y.fits [t.tombstone (fieldAt f.payload 0 2) (fieldAt f.payload 2 2)]) }) ∧
  (∀ (s : State) (k : FlightKey) (i j : Nat) (c : Bool), s.flash.op = .tombstone k i j c →
    exec .tombstoneCommitted s = .next (if s.flashTemp = true
      then ((s.modFlash fun y => (if c then y.compact [s.tombstone i j] else y).append [s.tombstone i j]).finishKey k
        [stOk]).flashIdle
      else ((s.cutAppend 48 c).finishKey k [stTempForbidden]).flashIdle))

/-- LC_STATUS and KEY_STATUS_READ; LC_ADVANCE programs the state bit in all three copies and begins the entry wipe; KEY_PROGRAM,
KEY_REVOKE and OTP_OPTION start their OTP programs, whose end sets exactly the bits of the command and answers OK. -/
def Obligations.LifeCycleOpcodes : Prop :=
  Performs .lcStatus opLcStatus (fun t _ => t) (fun t _ => stOk :: (le 4 t.geodeReg ++ (t.otp.dieId ++ zeros 8).take 8)) ∧
  Performs .lcAdvance opLcAdvance
    (fun t f =>
      let n := (lcOf (byteAt f.payload 0)).getD .scrapped
      { t with
        otp := { t.otp with lcState := { t.otp.lcState with
          a := t.otp.lcState.a ||| n.mask, b := t.otp.lcState.b ||| n.mask, c := t.otp.lcState.c ||| n.mask } }
        flash := { t.flash with op := .lcWipe n }
        geode := { t.geode with wipePending := true, lcTarget := some n } })
    (fun _ _ => [stOk]) ∧
  Performs .keyStatusRead opKeyStatusRead (fun t _ => t)
    (fun t _ => stOk :: (le 4 (t.otp.iRevoked.toNat * 2 ^ 16 + t.otp.iProgrammed.toNat * 2 ^ 8 + t.otp.vRevoked.toNat)
      ++ t.otp.ikeys.flatten ++ t.otp.vkeys.flatten)) ∧
  Starts .keyProgram opKeyProgram (fun t f => { t with flash := { t.flash with op := .otp f.key } }) ∧
  Starts .keyRevoke opKeyRevoke (fun t f => { t with flash := { t.flash with op := .otp f.key } }) ∧
  Starts .otpOption opOtpOption (fun t f => { t with flash := { t.flash with op := .otp f.key } }) ∧
  (∀ (s : State) (k : FlightKey) (f : Flight), s.flash.op = .otp k → s.findFlight k = some f →
    (s.flashTemp = false → exec .otpProgramDone s = .next (s.finish f [stTempForbidden]).flashIdle) ∧
    (s.flashTemp = true → f.opcode = 0x0D02 → exec .otpProgramDone s = .next (((s.modOtp fun o =>
      { o with
        ikeys := setAt o.ikeys (byteAt f.payload 0) (slice f.payload 4 32)
        iProgrammed := o.iProgrammed.putBit (byteAt f.payload 0) true }).finish f [stOk]).flashIdle)) ∧
    (s.flashTemp = true → f.opcode = 0x0D03 → exec .otpProgramDone s = .next (((s.modOtp fun o =>
      { o with iRevoked := o.iRevoked.putBit (byteAt f.payload 0) true }).finish f [stOk]).flashIdle)) ∧
    (s.flashTemp = true → f.opcode = 0x0D08 → exec .otpProgramDone s = .next (((s.modOtp fun o =>
      { o with
        roleCfg := o.roleCfg ||| BitVec.ofNat 8 (byteAt f.payload 0)
        wdgCfg := o.wdgCfg ||| BitVec.ofNat 8 (byteAt f.payload 1)
        wdgDevClose := o.wdgDevClose ||| BitVec.ofNat 8 (byteAt f.payload 2) }).finish f [stOk]).flashIdle)))

/-- The entry wipe of a life-cycle state ends: journal, certificates, update session and the always-on retention are gone; within
the temperature window the revocations of the state and its wipe mark are programmed; and a SOFT reset follows. -/
def Obligations.LifeCycleWipe : Prop :=
  ∀ (s : State) (n : LcState), s.flash.op = .lcWipe n →
    ∃ t, exec .lcWipeDone s = .next t ∧ t.flash.jRecs = [] ∧ t.flash.jFill = 16 ∧ t.flash.certA = .blank ∧ t.flash.certB = .blank ∧
      t.flash.session = none ∧ t.flash.op = .none ∧ (s.sys.held = false → t.sys.trigPending = s.sys.trigPending.putBit causeSoft true) ∧
      t.sys.seen = 0 ∧ t.sys.hint = 0 ∧ t.sys.epochAtReset = 0 ∧ t.sys.forgetting = true ∧
      (s.flashTemp = false → t.otp = s.otp ∧ t.geode = s.geode) ∧
      (s.flashTemp = true →
        t.otp.lcWiped = s.otp.lcWiped.program n.mask ∧ t.otp.lcState = s.otp.lcState ∧
        t.otp.iRevoked = (if n = .ret ∨ n = .scrapped then 0xF else s.otp.iRevoked) ∧
        t.otp.vRevoked = (if n = .scrapped then 0xF else s.otp.vRevoked) ∧
        t.geode = { s.geode with wipePending := false, lcTarget := none }) ∧
      t.conv = s.conv ∧ t.path = s.path ∧ t.cmd = s.cmd ∧ t.time = s.time

/-- CERT_LOAD is verified first; when that ends in time and the checks pass, it is held for its boundary and answered ACCEPTED,
and the one held before for the same boundary is superseded; there it takes effect, every value in force is clamped, and its
writing begins. CERT_READ and FENCE_STATUS. -/
def Obligations.CertificateOpcodes : Prop :=
  (∀ h p s, Waits opCertLoad h p s →
    exec (.certLoad h p) s = .next (((s.queued opCertLoad h p).modFlight (waitingOf s opCertLoad h p).key fun g =>
      { g with phase := .working }).modGeode fun g =>
        { g with checking := some { by_ := (waitingOf s opCertLoad h p).key, bytes := p, epoch := h.epoch } })) ∧
  (∀ (s : State) (x : HeldCert) (f : Flight), s.geode.checking = some x → s.findFlight x.by_ = some f →
    let t := s.modGeode fun g => { g with checking := none }
    (s.pastCutoff x.epoch = true → exec .certVerified s = .next (t.finish f [stTooLate])) ∧
    (∀ a, s.pastCutoff x.epoch = false → certCheck s x.bytes false = some a → exec .certVerified s = .next (t.finish f a)) ∧
    (s.pastCutoff x.epoch = false → certCheck s x.bytes false = none →
      let u := match s.geode.heldCert with
        | some old => t.finishKey old.by_ [stSuperseded]
        | none => t
      exec .certVerified s = .next (((u.modGeode fun g => { g with heldCert := some x }).modFlight f.key fun g =>
        { g with phase := .waiting }).answerAccepted { f with phase := .waiting }))) ∧
  (∀ (s : State) (f : Flight) (x : HeldCert), Executes opCertLoad f s → s.geode.heldCert = some x → x.by_ = f.key →
    s.flashTemp = true →
    s.executeFlight f = (((s.modGeode fun g => { g with heldCert := none, cert := some x.bytes, certBuiltin := false }).clampAll).modFlash
      fun y => { y with op := .certWrite f.key x.bytes }).unanswered f) ∧
  (∀ (s : State) (k : FlightKey) (b : List Byte), s.flash.op = .certWrite k b →
    exec .certCommitted s = .next (if s.flashTemp = true
      then (((s.modFlash fun y =>
        { y.setCopy s.flash.writesA (.committed b) with certHighest := Nat.max y.certHighest (certVersion b) }).finishKey k
          [stOk]).modFlash fun y => y.eraseCopy (!s.flash.writesA))
      else ((s.modFlash fun y => { y.setCopy s.flash.writesA .uncommitted with op := .none }).finishKey k [stTempForbidden]))) ∧
  (∀ s : State, s.flash.op = .certErase →
    exec .certEraseDone s = .next (s.modFlash fun y =>
      { y with certA := y.certA.erased, certB := y.certB.erased, jOtherBlank := true }).flashIdle) ∧
  Performs .certRead opCertRead (fun t _ => t) (fun t _ => match t.geode.cert with
    | some b => stOk :: b
    | none => [stNotReady]) ∧
  Performs .fenceStatus opFenceStatus
    (fun t f => if bitAt f.payload 0 0 then
      { t with geode := { t.geode with clampCount := 0, lastClass := 0, discards := 0 } } else t)
    (fun t _ => stOk :: le 4 t.geode.fenceReg)

/-! ### Conversion lanes and protection: what the requests do (08, 09) -/

/-- The commands of a lane. Each is checked again at its boundary, where a refusal changes nothing. LANE_CONFIG replaces the
lane's profile and leaves it OFF (unconfigured where its leg set is empty); LANE_START begins SOFTSTART where the die may drive;
the four settings change the lane's values in force and nothing else; LANE_LEGS takes effect at once on a lane whose gates rest
and at the next frame start otherwise. LANE_STOP, at receipt or at a boundary: a strand lane refuses it; a lane at rest stays so, one in a protection
mode stops at its release, and of any other the legs complete the pulses they have started and it goes to OFF; a stop that no boundary
carries is recorded with its epoch and tick. -/
def Obligations.LaneOpcodes : Prop :=
  (let setting : (State → List Byte → Option Answer) → (State → List Byte → Lane → Lane) → State → Flight → State :=
    fun check g s f => if (check s f.payload).isSome then s else s.modLane (byteAt f.payload 0) (g s f.payload)
  let outcome : (State → List Byte → Option Answer) → State → Flight → Answer := fun check s f => (check s f.payload).getD [stOk]
  Applies .laneConfig opLaneConfig
    (fun s f => if (laneConfigCheck s s f.payload).isSome then s
      else
        let k := byteAt f.payload 0
        let b := f.payload.drop 4
        ((s.modLane k fun l => l.configure b).modConv fun c => (c.unlock k).startInputs s.conv).setMode k
          (if fieldAt b 0 2 = 0 then .unconfigured else .off))
    (outcome fun s => laneConfigCheck s s) ∧
  Applies .laneStart opLaneStart
    (fun s f => if (laneStartCheck s f.payload).isSome then s
      else if s.isWorker = false ∨ (s.slolos.address ≠ 0 ∧ s.slolos.firstAllot = true) then
        s.launch (byteAt f.payload 0) (if byteAt f.payload 4 = 1 then .boost else if byteAt f.payload 4 = 2 then .bus else .charge)
      else s)
    (outcome laneStartCheck) ∧
  Applies .setLaneTarget opSetLaneTarget
    (setting setTargetCheck fun _ p l => { l with host := some (fieldAt p 4 4, fieldAt p 8 4) }.disturb)
    (outcome setTargetCheck) ∧
  Applies .setLaneCoeffs opSetLaneCoeffs
    (setting setCoeffsCheck fun _ p l =>
      (if byteAt p 4 = 0 then { l with buck := coeffSet p 8 } else { l with boost := coeffSet p 8 }).disturb)
    (outcome setCoeffsCheck) ∧
  Applies .setLaneProfile opSetLaneProfile
    (setting setProfileCheck fun _ p l =>
      { l with extended := byteAt p 4 == 1, brakeTime := fieldAt p 6 2, brakeThreshold := fieldAt p 8 4 })
    (outcome setProfileCheck) ∧
  Applies .setBurst opSetBurst
    (setting (fun s p => if s.laneConfigured (byteAt p 0) then none else some [stBadParam]) fun _ p l =>
      { l with burstThreshold := byteAt p 4, burstLength := byteAt p 5, burstBand := fieldAt p 8 4 })
    (outcome (fun s p => if s.laneConfigured (byteAt p 0) then none else some [stBadParam])) ∧
  Applies .tuningControl opTuningControl
    (setting tuningCheck fun s p l => { l with tuning :=
      { Tuning.reset with mode := byteAt p 4, window := byteAt p 5, seq := l.tuning.seq, signs := l.tuning.signs, target := s.targetMv (byteAt p 0) } })
    (outcome tuningCheck) ∧
  Applies .lanePhaseLock opLanePhaseLock
    (setting lockCheck fun _ p l => { l with phaseLock := some (byteAt p 4, byteAt p 5), lockSet := false })
    (outcome lockCheck) ∧
  Applies .laneLegs opLaneLegs
    (fun s f => if (laneLegsCheck s s f.payload).isSome then s else s.setLegs (byteAt f.payload 0) (BitVec.ofNat 16 (fieldAt f.payload 4 2)))
    (outcome fun s => laneLegsCheck s s) ∧
  Performs .laneStatus opLaneStatus (fun t _ => t)
    (fun t f =>
      let l := t.lane (byteAt f.payload 0)
      stOk :: (le 4 l.dutyReg ++ le 4 l.currentReg ++ le 4 l.periodReg ++ le 4 l.frames
        ++ ((List.range 16).map fun n =>
          le2s ((t.conv.leg n).trim / 2 ^ Config.trimBits)).flatten))) ∧
  let refused : State → List Byte → Bool := fun s p => (s.lane (byteAt p 0)).body.isSome && (s.lane (byteAt p 0)).strand != 0xFF
  let effect : State → Flight → State := fun s f =>
    let k := byteAt f.payload 0
    if refused s f.payload then s
    else match (s.lane k).mode with
      | .unconfigured | .off => s
      | m =>
        let t := if f.sched then s else s.modLane k fun l => { l with stopped := some (s.time.epoch, s.time.tick) }
        if m.protection then t.modLane k fun l => { l with stopAtRelease := true } else (t.endPulses (s.lane k).legs).setMode k .off
  let outcome : State → Flight → Answer := fun s f => if refused s f.payload then [0x8C] else [stOk]
  Performs .laneStop opLaneStop effect outcome ∧ Applies .laneStop opLaneStop effect outcome

/-- PROT_CONFIG, refused where a lane that it changes runs, disables the outputs of comparators without a role; PROT_CLEAR, which releases a lane or a driver fault unless its cause
stands; and the reads and the clearing of the protection log and the echo table. -/
def Obligations.ProtectionOpcodes : Prop :=
  Applies .protConfig opProtConfig
    (fun s f => if protLanesOff s (f.payload.drop 4) then
      let on : BitVec 16 := bitsOf 16 ((List.range 16).filter fun n => byteAt f.payload (8 + 12 * n) ≠ 0)
      { s with prot := { s.prot with
        body := some (f.payload.drop 4), cmpUp := s.prot.cmpUp &&& on, cmpLo := s.prot.cmpLo &&& on } } else s)
    (fun s f => if protLanesOff s (f.payload.drop 4) then [stOk] else [0x88]) ∧
  Applies .protClear opProtClear
    (fun s f =>
      let k := byteAt f.payload 0
      let m := BitVec.ofNat 16 (fieldAt f.payload 2 2)
      if (protClearCheck s f.payload).isSome then s
      else if byteAt f.payload 1 = 0 then
        ((s.gatesLow k).setMode k .off).modProt fun q => { q with crowbars := setAt q.crowbars k none }
      else { s with prot := { s.prot with held := s.prot.held &&& ~~~m } })
    (fun s f =>
      let l := s.lane (byteAt f.payload 0)
      if byteAt f.payload 1 = 0 then
        (if !l.mode.protection then [stBadParam]
          else if l.mode == .crowbar && s.ovPresent (byteAt f.payload 0) then [0x91] else [stOk])
      else if (BitVec.ofNat 16 (fieldAt f.payload 2 2) &&& s.prot.dfltRaw) = 0 then [stOk] else [0x91]) ∧
  Performs .protLogRead opProtLogRead (fun t _ => t)
    (fun t f =>
      let e := (t.time.epoch + (2 ^ 32 - fieldAt f.payload 0 4)) % 2 ^ 32
      stOk :: ((byClass ((t.prot.reports ++ t.prot.log.flatten).filter fun r => r.epoch == e)).map fun r =>
        le 1 r.cls ++ zeros 1 ++ le 1 r.lanes.toNat ++ zeros 1 ++ le 2 r.legs.toNat ++ le 2 r.count ++ le 4 r.epoch
          ++ le 4 r.tick).flatten) ∧
  Performs .echoRead opEchoRead (fun t _ => t)
    (fun t f =>
      let n := byteAt f.payload 0
      let e := getAt t.prot.echo (n - 1) Echo.empty
      stOk :: (le 1 n ++ le 1 (bit e.opened + 2 * bit (e.live != e.closed)) ++ le 2 e.count ++ le 4 e.first ++ le 4 e.last
        ++ le 4 e.epochs ++ le 8 e.closed.toNat ++ le 8 e.live.toNat ++ (e.side.map fun m => le 2 m.toNat).flatten)) ∧
  Applies .echoClear opEchoClear
    (fun s f => s.modProt fun p =>
      { p with
        echo := (p.echo.zipIdx).map fun x =>
          if (fieldAt f.payload 0 4).testBit x.2 then { Echo.empty with changed := x.1.opened || x.1.changed } else x.1 })
    (fun _ _ => [stOk])

/-! ### Strands and the power path: what the requests do (10, 11) -/

/-- The commands of a strand, which its home die carries. STRAND_CONFIG puts a record in force and drops the exclusions;
CHARGE_START enters CHECK and CHARGE_STOP enters HALT at the boundary, and either drops a decision not yet applied;
CHARGE_EQUALISE sets the equalisation due (chemistry 3 only); BMS_LIMITS is held for the next boundary; STRAND_PLAN gives a
serving die its plan; STRAND_STATUS answers the strand's state as it stood at the latest boundary, and before the first one as it is. -/
def Obligations.StrandOpcodes : Prop :=
  Applies .strandConfig opStrandConfig
    (fun s f => if (strandConfigCheck s s f.payload).isSome then s
      else s.modStrand (byteAt f.payload 0) fun x =>
        if x.body.isSome then x.load (f.payload.drop 4)
        else { x.load (f.payload.drop 4) with mach := { (x.load (f.payload.drop 4)).mach with entered := s.time.epoch } })
    (fun s f => (strandConfigCheck s s f.payload).getD [stOk]) ∧
  Applies .chargeStart opChargeStart
    (fun s f => if (chargeStartCheck s f.payload).isSome then s
      else s.modStrand (byteAt f.payload 0) fun x =>
        { x with
          next := none
          startFail := 0
          mach := { x.mach with
            phase := .check, reason := .idle, entered := s.time.epoch, prior := x.mach.phase, phaseTime := 0, twiceA := 0, twiceB := 0, topUp := false,
            resumeTime := 0 } })
    (fun s f => (chargeStartCheck s f.payload).getD [stOk]) ∧
  Applies .chargeStop opChargeStop
    (fun s f => s.modStrand (byteAt f.payload 0) fun x =>
      { x with
        next := none
        mach := { x.mach with
          phase := .halt, reason := .host, entered := s.time.epoch, prior := x.mach.phase, phaseTime := 0, twiceA := 0, twiceB := 0, topUp := false,
          resumeTime := 0 } })
    (fun _ _ => [stOk]) ∧
  Applies .chargeEqualise opChargeEqualise
    (fun s f => if (s.strand (byteAt f.payload 0)).chem = 3 then
      s.modStrand (byteAt f.payload 0) fun x => { x with next := none, mach := { x.mach with equaliseDue := true } } else s)
    (fun s f => if (s.strand (byteAt f.payload 0)).chem = 3 then [stOk] else [0x99]) ∧
  (
    let status : Strand → List Byte := fun x =>
      le 1 x.mach.phase.code ++ le 1 (if x.mach.phase = .halt then x.mach.reason.code else 0)
        ++ le 1 (bit x.bmsFresh + 2 * bit x.tempKnown + 4 * bit (!x.planOwed.isEmpty || !x.planNext.isEmpty) + 8 * bit x.mach.topUp
          + 16 * bit (x.mach.due x))
        ++ zeros 1 ++ le 4 x.mach.entered ++ le 4 (unsigned 32 x.current) ++ le 4 (x.vs.getD 0xFFFFFFFF) ++ le 4 x.demand
        ++ le 4 (getAt x.limits 0 0) ++ le 4 (unsigned 32 (x.mach.accepted / 1000000000)) ++ le 2 x.counted.toNat
        ++ le 2 x.mach.completed
    Performs .strandStatus opStrandStatus (fun t _ => t)
      (fun t f =>
        let x := t.strand (byteAt f.payload 0)
        stOk :: (if x.shown = [] then status x else x.shown)) ∧
    ∀ s : State, s.showStrands.charge.strands = s.charge.strands.map fun x =>
      { x with shown := status { x with vs := x.volts s, tempKnown := !(x.temps s).isEmpty } }) ∧
  Performs .bmsLimits opBmsLimits
    (fun t f => t.modStrand (byteAt f.payload 0) fun x =>
      { x with
        bmsNew := some
          { chargeOk := bitAt f.payload 1 0, dischargeOk := bitAt f.payload 1 1, iCharge := fieldAt f.payload 4 4
            vCharge := fieldAt f.payload 8 4, iDischarge := fieldAt f.payload 12 4, vDischarge := fieldAt f.payload 16 4
            vPack := fieldAt f.payload 20 4, tMin := sfieldAt f.payload 24 2, tMax := sfieldAt f.payload 26 2 } })
    (fun _ _ => [stOk]) ∧
  Applies .strandPlan opStrandPlan
    (fun s f => s.modStrand (byteAt f.payload 0) fun x =>
      { x with
        plan := some
          { main := fieldAt f.payload 4 4, recover := fieldAt f.payload 8 4, maintain := fieldAt f.payload 12 4
            equalise := fieldAt f.payload 16 4, lsb := fieldAt f.payload 20 4 } })
    (fun _ _ => [stOk])

/-- The commands of the Bezel channels and of the power path. BEZEL_CONFIG puts a channel's record in force and its state to rest,
LOCKOUT apart; BEZEL_CLEAR releases LOCKOUT unless its contact reads closed; PATH_CONFIG, SOURCE_INHIBIT and PEER_POWER set what
they name; PATH_STATUS answers the registers and the shares. -/
def Obligations.PowerPathOpcodes : Prop :=
  Applies .bezelConfig opBezelConfig
    (fun s f =>
      let k := byteAt f.payload 0
      let b := f.payload.drop 4
      if (bezelConfigCheck s s f.payload).isSome then s
      else
        let t := s.modChan k fun c => { c with body := some b, qualify := 0 }
        if (s.chan k).state = .lockout then t else t.setChan k (t.restState k (some b)) 0)
    (fun s f => (bezelConfigCheck s s f.payload).getD [stOk]) ∧
  Applies .pathConfig opPathConfig
    (fun s f => if (pathConfigCheck s s f.payload).isSome then s else { s with path := { s.path with body := some f.payload } })
    (fun s f => (pathConfigCheck s s f.payload).getD [stOk]) ∧
  Applies .sourceInhibit opSourceInhibit
    (fun s f => if s.ownsSources then { s with path := { s.path with inhibit := BitVec.ofNat 4 (byteAt f.payload 0) } } else s)
    (fun s _ => if s.ownsSources then [stOk] else [0xA1]) ∧
  Applies .bezelClear opBezelClear
    (fun s f =>
      let k := byteAt f.payload 0
      if (s.chan k).state = .lockout ∧ (s.chan k).fb = false then
        (s.setChan k (s.restState k (s.chan k).body) 0).modChan k fun c => { c with welded := false }
      else s)
    (fun s f =>
      let c := s.chan (byteAt f.payload 0)
      if c.state ≠ .lockout then [stBadParam] else if c.fb then [0x91] else [stOk]) ∧
  Performs .pathStatus opPathStatus (fun t _ => t)
    (fun t _ =>
      let sum : (Chan × Nat → Nat) → Nat := fun g => (t.path.chans.zipIdx).foldl (fun a x => a + g x) 0
      stOk :: (le 4 ((t.path.chans.zipIdx).foldl (fun a x => a + bit x.1.fb * 2 ^ (24 + x.2) + x.1.state.code * 2 ^ (4 * x.2)) 0)
        ++ le 4 (sum fun x => x.1.trips.toNat * 2 ^ (5 * x.2))
        ++ le 4 ((t.path.chans.zipIdx).foldl (fun a x => a + bit x.1.welded * 2 ^ (24 + x.2) + (x.1.retries % 16) * 2 ^ (4 * x.2)) 0)
        ++ le 4 (t.path.holder.code * 2 ^ 30 + (if t.isWorker then 0 else t.path.boosting.toNat))
        ++ le 4 t.path.cap ++ le 4 t.path.load ++ le 4 t.path.budget ++ (t.path.shares.map (le 4)).flatten)) ∧
  Performs .peerPower opPeerPower
    (fun t f => t.modPath fun p =>
      { p with
        peerNew := some
          { demand := fieldAt f.payload 0 4, draw := fieldAt f.payload 4 4, grant := fieldAt f.payload 8 4
            holder := byteAt f.payload 12, closedMask := byteAt f.payload 13 } })
    (fun _ _ => [stOk])

/-! ### Measurement, chain, Clasp and Pendant: what the requests do (12 to 15) -/

/-- Measurement. The commands: a table in force from entry 0 (the later of two for one boundary stands), the modes of the
accumulators and trackers, whose changed entries are emptied, their clearing, and the reads of the snapshot and of a converter's
last epoch. A conversion of a running converter takes 10 cycles: one of the start discards is counted and dropped, and the F-th
completes a sample, the mean of the F codes, which the accumulator and the tracker of the entry take in. -/
def Obligations.Measurements : Prop :=
  Applies .measTable opMeasTable
    (fun s f => if s.laterTable f || (measTableCheck s f.payload).isSome then s
      else s.modMeas fun m => m.modAdc (byteAt f.payload 0) fun a =>
        { Adc.reset with body := some (f.payload.drop 4), ended := a.ended, now := a.now })
    (fun s f => if s.laterTable f then [stSuperseded] else (measTableCheck s f.payload).getD [stOk]) ∧
  Applies .measAccConfig opMeasAccConfig
    (fun s f => if (measAccCheck s f.payload).isSome then s
      else s.modMeas fun m =>
        { m with
          modes := some (f.payload.drop 4)
          accs := (m.accs.zipIdx).map fun x =>
            if x.1.running = bitAt (f.payload.drop 4) x.2 0 then x.1
            else { Acc.reset with running := bitAt (f.payload.drop 4) x.2 0 }
          trks := (m.trks.zipIdx).map fun x =>
            if x.1.running = bitAt (f.payload.drop 4) (64 + x.2) 0 then x.1
            else { Trk.reset with running := bitAt (f.payload.drop 4) (64 + x.2) 0 } })
    (fun s f => (measAccCheck s f.payload).getD [stOk]) ∧
  Applies .measClear opMeasClear
    (fun s f => s.modMeas fun m =>
      { m with
        accs := (m.accs.zipIdx).map fun x => if (fieldAt f.payload 0 8).testBit x.2 then x.1.empty else x.1
        trks := (m.trks.zipIdx).map fun x => if (fieldAt f.payload 8 4).testBit x.2 then x.1.empty else x.1 })
    (fun _ _ => [stOk]) ∧
  Performs .measSnapshotRead opMeasSnapshotRead (fun t _ => t)
    (fun t f => match t.meas.newest with
      | none => [stNotReady]
      | some x => stOk :: (le 4 x.epoch
        ++ (((x.accs.drop (byteAt f.payload 0)).take (byteAt f.payload 1)).map fun y =>
          le 6 y.1.sum ++ le 2 (bit (y.1.count = 0) + 2 * bit y.1.saturated + 4 * bit y.1.running + 8 * y.2) ++ le 4 y.1.count
            ++ le 4 y.1.discards).flatten
        ++ (((x.trks.drop (byteAt f.payload 2)).take (byteAt f.payload 3)).map fun y =>
          le 2 y.1.min ++ le 2 y.1.max ++ le 2 (bit y.1.isEmpty + 2 * bit y.1.running + 4 * y.2) ++ zeros 2).flatten)) ∧
  Performs .measTableStatus opMeasTableStatus (fun t _ => t)
    (fun t f =>
      let a := t.meas.adc (byteAt f.payload 0)
      stOk :: (le 2 a.ended.passes ++ le 1 a.ended.unreached ++ le 1 a.entry ++ le 4 a.ended.conversions ++ le 4 a.ended.discards
        ++ le 4 a.ended.idle)) ∧
  (∀ (k n : Nat) (s : State), (∀ b, (s.meas.adc k).body = some b → tabCount b = 0) ∨ s.isReady .meas = false ∨
      (s.meas.adc k).started = false ∨ (s.meas.adc k).stopped = true ∨ 4 ≤ k → exec (.conversionDone k n) s = .next s) ∧
  (∀ (k n : Nat) (b : List Byte) (s : State), (s.meas.adc k).body = some b → tabCount b ≠ 0 → s.isReady .meas = true →
    (s.meas.adc k).started = true → (s.meas.adc k).stopped = false → k < 4 →
    let e := tabEntry b (s.meas.adc k).entry
    let a := { s.meas.adc k with
      last := some (entChannel e, entGain e, entFilter e)
      cycle := (s.meas.adc k).cycle + 10
      now := { (s.meas.adc k).now with conversions := (s.meas.adc k).now.conversions + 1 } }
    let skip := passedOver s.meas.throttled s.time.epoch
    (a.discards ≠ 0 → exec (.conversionDone k n) s = .next (s.modMeas fun m =>
      (m.modAdc k fun _ => { a with discards := a.discards - 1, now := { a.now with discards := a.now.discards + 1 } }).modAcc
        (entAcc e) fun c => { c with discards := satAdd (2 ^ 32 - 1) c.discards 1 })) ∧
    (a.discards = 0 → a.convs + 1 < entF e → exec (.conversionDone k n) s = .next (s.modMeas fun m =>
      m.modAdc k fun _ => { a with convs := a.convs + 1, part := a.part + n % 65536 })) ∧
    (a.discards = 0 → entF e ≤ a.convs + 1 →
      let v := (a.part + n % 65536) / entF e
      let done := { a with
        convs := 0
        part := 0
        sample := a.sample + 1
        delay := if a.sample + 1 < entRepeat e then a.delay else entDelay e }
      exec (.conversionDone k n) s = .next ((s.modMeas fun m =>
        ((m.modAdc k fun _ => done.plan b skip s.time.length).modAcc (entAcc e) fun c =>
          if c.saturated then c else { c with
            sum := c.sum + v
            count := c.count + 1
            saturated := c.count + 1 == 2 ^ 32 - 1
            satNew := c.satNew || c.count + 1 == 2 ^ 32 - 1 }).modTrk (entTrk e) fun t =>
          { t with min := Nat.min t.min v, max := Nat.max t.max v }).slowSamples (entAcc e) v))) ∧
  (∀ s : State, exec .measCalibrationDone s = .next (if s.sys.clk = .running ∧ s.sys.held = false then
    { s with
      sys := { s.sys with ready := s.sys.ready.putBit Block.meas.index true }
      meas := { s.meas with calDone := true, adcs := s.meas.adcs.map fun a => { a with last := none, begun := false } } }
    else s))

/-- The chain commands. CHAIN_ENUMERATE starts an append pass, or after an UNASSIGN with every worker's queue lost and every
context cleared a full one; CHAIN_RESET sends its mask down the chain; CHAIN_CONFIG sets the three values of its record. -/
def Obligations.ChainOpcodes : Prop :=
  let pass : Nat → State → State := fun mode t =>
    (t.modSlolos fun y => { y with enumActive := true, enumMode := mode, capped := false, joinSeen := false }).sendB
      (.control (.enum (t.slolos.highest + 1) 0 0 mode))
  Performs .chainStatus opChainStatus (fun t _ => t)
    (fun t _ => stOk :: (le 4 t.slolos.statusReg ++ le 4 t.slolos.errorsReg ++ le 4 t.slolos.delayReg
      ++ le 1 ((t.slolos.breaks.min?).getD 0) ++ zeros 3)) ∧
  Performs .chainWorker opChainWorker (fun t _ => t)
    (fun t f =>
      let k := byteAt f.payload 0
      let c := t.slolos.ctx k
      stOk :: (le 1 k ++ le 1 c.state.code ++ le 1 (bit c.viaA + 2 * bit c.wq) ++ zeros 1 ++ (c.dieId ++ zeros 8).take 8
        ++ le 2 (t.strandsOf k) ++ le 1 (Nat.min 8 (t.cmd.depth k)) ++ le 1 c.missed ++ le 2 c.d ++ le 2 c.dRev ++ le 4 c.lastEpoch
        ++ (c.allot ++ zeros 8).take 8)) ∧
  Applies .chainEnumerate opChainEnumerate
    (fun s f => if (enumerateCheck s f.payload).isSome then s
      else if byteAt f.payload 0 = 1 then
        let t := (s.workerList.foldl (fun s k => s.loseQueue k) s).sendDown (.control .unassign)
        pass 1 (t.modSlolos fun y => { y with ctxs := List.replicate 63 Ctx.absent, workers := 0 })
      else pass 0 s)
    (fun s f => (enumerateCheck s f.payload).getD [stOk]) ∧
  Applies .chainReset opChainReset
    (fun s f => s.sendDown (.control (.reset (BitVec.ofNat 64 (fieldAt f.payload 0 8)))))
    (fun _ _ => [stOk]) ∧
  Applies .chainConfig opChainConfig
    (fun s f => if s.slolos.enumActive then s
      else s.modSlolos fun y =>
        { y with
          ringExpected := bitAt (f.payload.drop 4) 0 0
          autoAppend := bitAt (f.payload.drop 4) 0 1
          expected := byteAt (f.payload.drop 4) 1 })
    (fun s _ => if s.slolos.enumActive then [0xB1] else [stOk])

/-- The Clasp and Pendant commands. CLASP_CONFIG puts a port's record in force and the port to rest; CLASP_REQUEST stores the
request and sends it where the partner's capabilities admit it; CLASP_SWAP_JS, CLASP_HOLD (an exporter owes CAPS behind it) and CLASP_DETACH send their message;
PENDANT_CONFIG aborts a sequence in progress; and the two status reads. -/
def Obligations.CouplerOpcodes : Prop :=
  Applies .claspConfig opClaspConfig
    (fun s f =>
      let i := byteAt f.payload 0
      let b := f.payload.drop 4
      if (claspConfigCheck s f.payload).isSome then s
      else (s.modPort i fun p =>
        { Port.reset with body := some b, pref := byteAt b 1, bandA := p.bandA, bandB := p.bandB, mode := p.mode }).portRest i 0)
    (fun s f => (claspConfigCheck s f.payload).getD [stOk]) ∧
  Performs .claspStatus opClaspStatus (fun t _ => t)
    (fun t f =>
      let p := t.port (byteAt f.payload 0)
      stOk :: (le 4 ((t.clasp.port 1).stateBits * 2 ^ 16 + (t.clasp.port 0).stateBits) ++ le 4 (p.grant.getD 0)
        ++ ((p.caps.getD []) ++ zeros 18).take 18 ++ zeros 2)) ∧
  Applies .claspRequest opClaspRequest
    (fun s f =>
      let i := byteAt f.payload 0
      if (claspRequestCheck s f.payload).isSome then s
      else (s.modPort i fun p => { p with request := some (slice f.payload 4 13 ++ zeros 1) }).sendRequest i)
    (fun s f => (claspRequestCheck s f.payload).getD [stOk]) ∧
  Applies .claspSwapJs opClaspSwapJs
    (fun s f =>
      let i := byteAt f.payload 0
      if (claspSwapCheck s f.payload).isSome then s
      else (s.portSend i msgSwapJs []).modPort i fun p => { p with swap := if p.swap = .none then .asked else p.swap })
    (fun s f => (claspSwapCheck s f.payload).getD [stOk]) ∧
  Applies .claspHold opClaspHold
    (fun s f =>
      let i := byteAt f.payload 0
      let p := s.port i
      if p.grant.isSome = true ∧ p.suspended = false ∧ p.mode.attached = true ∧ p.mode ≠ .hold then
        ((s.portHold i 0).portSend i msgHold (le 1 1)).modPort i fun q => { q with capsDue := q.exporter }
      else s)
    (fun s f =>
      let p := s.port (byteAt f.payload 0)
      if p.grant.isSome && !p.suspended then [stOk] else [0xBA]) ∧
  Applies .claspDetach opClaspDetach
    (fun s f =>
      let i := byteAt f.payload 0
      if (s.port i).mode.attached then
        ((s.modPort i fun p => { p with out := none, queue := [] }).portSend i msgDetach (le 1 1)).recover i 0
          (some (if byteAt f.payload 4 = 0xFF then (s.port i).pref else byteAt f.payload 4))
      else s)
    (fun s f => if (s.port (byteAt f.payload 0)).mode.attached then [stOk] else [0xB8]) ∧
  Applies .pendantConfig opPendantConfig
    (fun s f => if s.pendantBodyOk (f.payload.drop 4) then
      (s.pendantEnd 3 4).modPendant fun p => { p with body := some (f.payload.drop 4) } else s)
    (fun s f => if s.pendantBodyOk (f.payload.drop 4) then [stOk] else [stBadParam]) ∧
  Performs .pendantStatus opPendantStatus (fun t _ => t)
    (fun t _ => stOk :: (le 4 (t.pendant.mode * 2 ^ 26 + t.pendant.phase.code * 2 ^ 24 + t.pendant.lastSeq * 2 ^ 20
        + t.pendant.lastEnd * 2 ^ 18 + bit t.pendant.stored * 2 ^ 17 + bit t.pendant.alert * 2 ^ 16 + t.pendant.slew)
      ++ le 4 t.pendant.target ++ le 4 (t.pendant.ref.getD 0)
      ++ le 4 (t.pendant.discarded * 2 ^ 24 + t.pendant.naks * 2 ^ 16 + t.pendant.rejs * 2 ^ 8 + t.pendant.superseded)))

/-! ### Supplies, resets, clocks, low power (02 to 04) -/

/-- The supply monitors and NRST trigger the resets: a fall of VAON a POR that stops LFRC, of another supply a BOR unless the die
hibernates, NRST a PIN reset when it is low for 1 us or longer, never up to 100 ns, and between them as a free bit decides
(log 12); a level that is low before VAON rises only holds the POR. VAON's rise starts the always-on domain. Nothing else changes. -/
def Obligations.SupplyAndNrstEvents : Prop :=
  (∀ s : State, exec .vaonRise s = .next (if s.sys.supplies.getLsbD 0 then s
    else ({ s with
      sys := { s.sys with supplies := s.sys.supplies.putBit 0 true, lfrcRun := true, lfrcTrimmed := true, safeLow := true }
      wdg := { s.wdg with lfrcStalled := false } }).trigger causePor)) ∧
  (∀ (x : Supply) (s : State),
    let t := s.modSys fun y =>
      { y with
        supplies := y.supplies.putBit (match x with | .vaon => 0 | .vio => 1 | .vana => 2 | .vpll => 3 | .vcore => 4) false
        suppliesOk := false }
    exec (.supplyMonitorTrip x) s = .next (if x = .vaon then
        (t.trigger causePor).modSys fun y => { y with lfrcRun := false, lfrcTrimmed := false }
      else if s.sys.hibernate then t else t.trigger causeBor)) ∧
  (∀ s : State, exec .supplyMonitorRelease s = .next (if s.sys.supplies.getLsbD 0 then
    { s with sys := { s.sys with supplies := 0x1F, suppliesOk := true } } else s)) ∧
  (∀ (n : Nat) (s : State),
    let low : State → State := fun t =>
      let u := t.modSys fun y => { y with nrstLow := true }
      if t.sys.supplies.getLsbD 0 then u.trigger causePin else u
    exec (.nrstLow n) s = .next (if n ≤ 100 then s
      else if 1000 ≤ n then low s
      else if s.takeBit.1 then low s.takeBit.2 else s.takeBit.2)) ∧
  (∀ (s : State) (n : Nat), (s.trigger n) =
    if s.sys.held then { s with sys := { s.sys with trig := s.sys.trig.putBit n true } }
    else { s with sys := { s.sys with trigPending := s.sys.trigPending.putBit n true } })

/-- A reset is recognised where a trigger waits and none is held: every block returns to its reset values, SAFE_N goes low, the
epoch is kept for the epoch number after it, unless the reset completes a life-cycle change, and OTP, the flash contents, the key
store and the fault record stand. A write that still crosses to the always-on domain is lost. The balls are as Table 02-7 has them at
reset. (Stated for a die whose Geode has no flash operation in progress.) -/
def Obligations.ResetEntryClearsTheBlocks : Prop :=
  (∀ s : State, s.sys.held = true ∨ s.sys.trigPending = 0 → exec .resetEntry s = .next s) ∧
  ∀ s : State, s.sys.held = false → s.sys.trigPending ≠ 0 → s.flash.op = .none →
    ∃ t, exec .resetEntry s = .next t ∧
      t.sys.held = true ∧ t.sys.trig = s.sys.trigPending ∧ t.sys.trigPending = 0 ∧ t.sys.ready = 1 ∧ t.sys.safeLow = true ∧
      t.sys.power = .run ∧ t.sys.hibernate = false ∧ t.sys.hung = none ∧ t.sys.coreHung = none ∧ t.sys.wakeLatched = false ∧
      t.sys.epochAtReset =
        (if s.sys.hibernate then s.sys.epochAtReset else if s.sys.forgetting then 0 else s.time.epoch) ∧
      t.sys.lastFault = s.sys.lastFault ∧ t.sys.rstCount = s.sys.rstCount ∧ t.sys.hint = s.sys.hint ∧
      (s.sys.crossSeen = none → t.sys.seen = s.sys.seen) ∧ (s.sys.crossWake = none → t.sys.wake = s.sys.wake) ∧
      (∀ n o, s.sys.crossSeen = some (n, o) → (t.sys.seen = o ∨ t.sys.seen = s.sys.seen) ∧ (80 < n → t.sys.seen = o)) ∧
      (∀ n o, s.sys.crossWake = some (n, o) → (t.sys.wake = o ∨ t.sys.wake = s.sys.wake) ∧ (80 < n → t.sys.wake = o)) ∧
      t.sys.cells = (if s.sys.trigPending.getLsbD causePor || s.sys.trigPending.getLsbD causeBor then none else s.sys.cells) ∧
      t.sys.clk = s.sys.clk ∧ t.sys.supplies = s.sys.supplies ∧ t.sys.role = s.sys.role ∧
      t.otp = s.otp ∧ t.flash = { s.flash with staging := [] } ∧ t.geode = Geode.reset ∧ t.cmd = Cmd.reset ∧
      t.conv = Conv.reset ∧ t.charge = Charge.reset ∧ t.pendant = Pendant.reset ∧ t.slolos = Slolos.reset ∧ t.meas = Meas.reset ∧
      t.memi = Memi.reset ∧ t.time = { Time.reset with epoch := s.time.epoch } ∧
      t.prot = { Prot.reset with dfltRaw := s.prot.dfltRaw, cmpUp := s.prot.cmpUp, cmpLo := s.prot.cmpLo } ∧
      t.path.chans = s.path.chans.map (fun c => { Chan.reset with fb := c.fb }) ∧
      t.wdg = { Wdg.reset with clkLfrc := s.wdg.clkLfrc, lfrcStalled := s.wdg.lfrcStalled, devClose := s.wdg.devClose } ∧
      t.clasp.ports = s.clasp.ports.map (fun p => { Port.reset with bandA := p.bandA, bandB := p.bandB }) ∧
      (t.sys.cells = none → ∀ n, t.level (.pwmh n) = .low ∧ t.level (.pwml n) = .low ∧ t.level (.bzDrv n) = .low) ∧
      (∀ n, t.level (.mclk n) = .low ∧ t.level (.canTx n) = .high ∧ t.level (.clDr n) = .highZ ∧ t.level (.clTxd n) = .low ∧
        t.level (.slTx n) = .idle ∧ t.level (.gpio n) = .input) ∧
      t.level .safeN = .low ∧ t.level .hsIntn = .released ∧ t.level .hsMiso = .highZ ∧ t.level .pndAlrtn = .released ∧
      t.level .pndDat = .highZ ∧
      (s.sys.trigPending.getLsbD causeThermal = true → t.therm.shutdown = true ∧ t.therm.body = s.therm.body) ∧
      (s.sys.trigPending.getLsbD causeThermal = false → t.therm = Therm.reset)

/-- A reset ends, at its event or at NRST's rise, once the supplies are valid, NRST is high, a thermal shutdown has cooled for five
reads and LFRC runs; NRST's rise samples the straps of a POR, BOR or PIN reset. Then the cause, the history, the role and the epoch
number are as the merged triggers give them; a kind that restarts the PLL enters the lock sequence, and any other keeps a locked or
running clock. A POR, a BOR and a life-cycle change return the always-on retention to its reset value. -/
def Obligations.ResetEnds : Prop :=
  (∀ (x : Straps) (s : State), s.mayEnd = false → exec (.resetEnd x) s = .next s) ∧
  (∀ (x : Straps) (s : State), s.sys.nrstLow = false → exec (.nrstRise x) s = .next s) ∧
  (∀ (x : Straps) (s : State), s.sys.nrstLow = true →
    let t := s.modSys fun y => { y with nrstLow := false }
    let u := if s.sys.held = true ∧ (s.sys.trig &&& 0x00E) ≠ 0 then t.sampleStraps x else t
    exec (.nrstRise x) s = if u.mayEnd then exec (.resetEnd x) u else .next u) ∧
  (∀ (x : Straps) (s : State), x.changing = 0 → s.sampleStraps x = { s with sys := { s.sys with
    mode := x.mode, xsel := x.xsel, strapsTaken := true } }) ∧
  (∀ s : State, s.mayEnd = true ↔ s.sys.held = true ∧ s.sys.suppliesOk = true ∧ s.sys.nrstLow = false ∧
    (s.therm.shutdown = true → 5 ≤ s.therm.coolReads) ∧ s.wdg.lfrcStalled = false) ∧
  (∀ (x : Straps) (s : State), s.mayEnd = true → x.changing = 0 →
    let k := s.sys.trig
    let cold : Prop := k.getLsbD causePor = true ∨ k.getLsbD causeBor = true
    let forget : Prop := cold ∨ s.sys.forgetting = true
    let restart : Prop := (k &&& 0xC0E) ≠ 0 ∨ s.sys.trigPll = true
    let tap : Prop := s.lc = .develop ∨ s.lc = .ret
    let mode := if restart ∧ s.sys.strapsTaken = false then x.mode else s.sys.mode
    let code := if s.otp.roleCfg.getLsbD 2 then s.otp.roleCfg.extractLsb' 0 2 else mode
    let role := if code = 1 ∨ code = 3 ∨ s.otp.partWq = true then Role.worker else if code = 0 then .standalone else .manager
    ∃ t, exec (.resetEnd x) s = .next t ∧ t.sys.held = false ∧ t.sys.trig = 0 ∧
      t.sys.mode = mode ∧ t.sys.role = role ∧ (t.sys.roleRefused = true ↔ code ≠ 1 ∧ (code = 3 ∨ s.otp.partWq = true)) ∧
      t.sys.rstCause = causeOf k ∧ (forget → t.sys.seen = k) ∧ (¬forget → t.sys.seen = s.sys.seen ||| k) ∧
      (forget → t.sys.rstCount = 1) ∧ (¬forget → t.sys.rstCount = satAdd 65535 s.sys.rstCount 1) ∧
      t.time.epoch =
        (if role = .worker ∨ cold then 0 else ((if s.sys.forgetting then 0 else s.sys.epochAtReset) + 1) % 2 ^ 32) ∧
      (restart → t.sys.clk = .refCheck) ∧ (¬restart → s.sys.clk = .running → t.sys.clk = .running ∧ t.geode.stage = .patch) ∧
      (¬restart → s.sys.clk = .locked → t.sys.clk = .locked) ∧
      (¬restart → s.sys.clk ≠ .running → s.sys.clk ≠ .locked → t.sys.clk = .refCheck) ∧
      (t.sys.tapOn = true ↔ tap) ∧ (tap → ¬cold → t.sys.cells = s.sys.cells) ∧ (¬tap ∨ cold → t.sys.cells = none) ∧
      t.wdg = { Wdg.reset with clkLfrc := s.otp.wdgCfg.getLsbD 0, devClose := s.otp.wdgDevClose } ∧
      t.therm = Therm.reset ∧ t.otp = s.otp ∧ t.flash = s.flash ∧ t.cmd = s.cmd ∧ t.conv = s.conv ∧ t.path = s.path)

/-- The lock sequence: the reference check, the lock, the power-down and retry at a timeout, the release of the dividers, and the
resets at a loss. -/
def Obligations.LockSequence : Prop :=
  (∀ (n : Nat) (s : State), exec (.referenceCheck n) s = .next (if s.locking .refCheck then s.modSys fun y =>
      { y with
        refOk := decide (608 ≤ n ∧ n ≤ 672)
        clk := if 608 ≤ n ∧ n ≤ 672 then .pllStart else .refCheck } else s)) ∧
  (∀ s : State, exec .pllLock s = .next (if s.locking .pllStart then { s with sys := { s.sys with clk := .locked } } else s)) ∧
  (∀ s : State, exec .pllLockTimeout s = .next (if s.locking .refCheck = true ∨ s.locking .pllStart = true then
      { s with sys := { s.sys with clk := .powerDown, pllRetry := satAdd 255 s.sys.pllRetry 1 } } else s)) ∧
  (∀ s : State, exec .pllRetryRestart s = .next (if s.locking .powerDown then { s with sys := { s.sys with clk := .refCheck } } else s)) ∧
  (∀ s : State, s.locking .locked = false → exec .clockStart s = .next s) ∧
  (∀ s : State, s.locking .locked = true → s.sys.waking = true →
    exec .clockStart s = .next { s with sys := { s.sys with clk := .running, waking := false } }) ∧
  (∀ s : State, s.locking .locked = true → s.sys.waking = false →
    let r := s.sys.lastFault
    let t : State := { s with
      sys := { s.sys with
        clk := .running, lastFault := if r.crc = BitVec.ofNat 32 (crc32c r.body) then r else { r with code := 0xFF } }
      geode := { s.geode with stage := .patch } }
    exec .clockStart s = .next (if s.otp.eccBad then t.recordFault 0x85 0x0F [] else t)) ∧
  (∀ s : State, exec .pllLoss s = .next (if s.sys.clk = .running then
    (s.clockLost 0xC0).modSys fun y => { y with pllLost := true } else s)) ∧
  (∀ (n : Nat) (s : State), exec (.refLoss n) s = .next (if s.sys.clk = .running ∧ ¬(608 ≤ n ∧ n ≤ 672) then
    (s.clockLost 0xC1).modSys fun y => { y with refOk := false } else s)) ∧
  (∀ (s : State) (n : Nat), s.clockLost n =
    ((s.recordFault n 0 []).trigger causeGeodeSafe).modSys fun y => { y with trigPll := true }) ∧
  (∀ (n : Nat) (s : State), exec (.lfrcMeasUpdate n) s =
    .next (if (s.sys.clk = .running ∨ s.sys.clk = .locked) ∧ s.sys.pllLost = false ∧ s.sys.held = false then
      { s with sys := { s.sys with lfrcMeas := n % 65536 } } else s)) ∧
  (∀ y : Sys, y.clkReg = y.lfrcMeas * 2 ^ 16 + y.pllRetry * 2 ^ 8 + bit y.refOk * 2
    + bit ((y.clk == .running || y.clk == .locked) && !y.pllLost))

/-- READY bits, wakes, the ends of the low-power states, and JTAG. A block becomes ready at its event where it can; the wake inputs
are latched only asleep and where they are enabled; a latched wake leaves STANDBY through the lock sequence, with the waiting
commands of passed epochs answered TOO_LATE, and HIBERNATE through a reset. A boundary-scan instruction drives the gate and pass-FET
balls from its cells. -/
def Obligations.ReadinessAndWakes : Prop :=
  (∀ (b : Block) (s : State),
    let t := s.modSys fun y => { y with ready := y.ready.putBit b.index true }
    let u := if b = .conv ∨ b = .prot then t.armDflt
      else if b = .slolos ∧ s.isManager = true then t.wakeWorkers
      else if b = .clasp then t.claspReady else t
    exec (.blockReady b) s = .next (if s.sys.clk = .running ∧ s.sys.held = false ∧ s.isReady b = false ∧ s.canReady b = true then
      (if u.sys.power = .leaving ∧ u.isReady .cmd = true ∧ u.isReady .conv = true then u.modSys fun y => { y with power := .run } else u)
      else s)) ∧
  (∀ (n : Nat) (v : Bool) (s : State), exec (.wakeInput n v) s = .next (s.modSys fun y =>
    { y with
      wakePins := y.wakePins.putBit n v
      wakeLatched := y.wakeLatched || (s.asleep && decide (n < 4) && y.wake.enable.getLsbD n && y.wake.level.getLsbD n == v) })) ∧
  (∀ s : State, exec .wakeTimerExpired s = .next (if s.asleep = true ∧ s.sys.wakeLeft ≠ 0 then
    { s with sys := { s.sys with wakeLeft := 0, wakeLatched := true } } else s)) ∧
  (∀ s : State, exec .hsCsnWake s = .next (if (s.sys.power = .standby ∨ s.sys.power = .serviceWake) ∧ s.sys.wake.csn = true then
    { s with sys := { s.sys with wakeLatched := true } } else s)) ∧
  (∀ s : State, exec .slolosWakeDetected s =
    .next (if (s.sys.power = .standby ∨ s.sys.power = .serviceWake) ∧ s.sys.wake.slolos = true ∧ s.isWorker = true then
      (s.modSys fun y => { y with wakeLatched := true }).sendB .toggle else s)) ∧
  (∀ s : State, s.sys.power = .standby → s.sys.wakeLatched = true → s.sys.held = false →
    exec .standbyWake s = .next ({ s with
      sys := { s.sys with power := .leaving, wakeLatched := false, wakeLeft := 0, waking := true, clk := .refCheck }
      time := { s.time with wordNow := s.time.wordNow ||| 0x40, tick := 0 }
      slolos := { s.slolos with
        portA := .off, portB := .off, enumActive := false, verifyDue := s.isManager && s.slolos.workers ≠ 0 } }.endWaiting
        (fun f => (s.time.epoch + 2 ^ 32 - f.epoch) % 2 ^ 32 < 2 ^ 31) stTooLate)) ∧
  (∀ s : State, ¬(s.sys.power = .standby ∧ s.sys.wakeLatched = true ∧ s.sys.held = false) → exec .standbyWake s = .next s) ∧
  (∀ s : State, exec .hibWake s = .next (if s.sys.hibernate = true ∧ s.sys.wakeLatched = true ∧ s.sys.suppliesOk = true then
    s.trigger causeHibWake else s)) ∧
  (∀ s : State, exec .serviceWake s =
    .next (if s.sys.power = .standby ∧ s.sys.held = false ∧ s.wdg.clkLfrc = true ∧ s.wdg.openTick ≤ s.wdg.count then
      { s with sys := { s.sys with power := .serviceWake, waking := true, clk := .refCheck } } else s)) ∧
  (∀ s : State, exec .serviceWakeReturn s =
    .next (if s.sys.power = .serviceWake ∧ s.sys.held = false ∧ s.wdg.count < s.wdg.openTick then
      { s with sys := { s.sys with ready := 1, clk := .stopped, power := .standby, waking := false } } else s)) ∧
  (∀ (x : Option Cells) (s : State), exec (.jtagInstruction x) s =
    .next (if s.sys.tapOn = true ∧ s.sys.hibernate = false ∧ s.sys.supplies.getLsbD 1 = true then
      { s with sys := { s.sys with cells := x } } else s)) ∧
  (∀ (x : Cells) (s : State) (n : Nat), s.sys.cells = some x →
    s.level (.pwmh n) = .driven (x.pwmh.getLsbD n) ∧ s.level (.pwml n) = .driven (x.pwml.getLsbD n) ∧
      s.level (.bzDrv n) = .driven (x.bz.getLsbD n))

/-! ### Boot, EXEC_FAULT, stopped blocks, packet frames (04 to 06) -/

/-- The boot stages in order: the patch check (GEODE ready and SAFE_N released, or GEODE_SAFE; log 84), a pending wipe, the slot selection
with its one trial (the slot record is rewritten only within the temperature window), the certificate, and the records of the
journal, after which Eupefen runs and BOOT_REPORT goes out. -/
def Obligations.BootStages : Prop :=
  (∀ (s : State) (w : Bool), ¬(s.geode.stage = .patch ∧ s.sys.clk = .running ∧ s.sys.held = false) → exec (.patchCheckDone w) s = .next s) ∧
  (∀ (s : State) (w : Bool), s.geode.stage = .patch → s.sys.clk = .running → s.sys.held = false →
    let t := s.modSys fun y => { y with ready := y.ready.putBit Block.geode.index true, safeLow := false }
    let h := s.flash.patch.take 256
    let signed : Bool := s.flash.patch.length ≤ 32768 && h.take 4 == [0x45, 0x55, 0x50, 0x46] && byteAt h 4 == 1 && byteAt h 5 == 2
      && (s.flash.patch.drop 256).length == fieldAt h 0xC 4 && headerSigned s h && sha256 (s.flash.patch.drop 256) == slice h 0x18 32
    exec (.patchCheckDone w) s = .next (if w = false ∨ signed = false then (s.recordFault 0x80 0x0F []).trigger causeGeodeSafe
      else if s.lc.mask &&& s.otp.lcWiped.value ≠ s.lc.mask then
        { t with geode := { t.geode with stage := .wipe, wipePending := true }, flash := { t.flash with op := .bootWipe } }
      else t.afterWipe)) ∧
  (∀ s : State, s.afterWipe = if s.lc = .scrapped then (s.setStage .scrapped).bootReport else s.setStage .image) ∧
  (∀ s : State, s.flash.op = .bootWipe → exec .pendingWipeDone s = .next (if s.flashTemp then
      ((((s.eraseConfig.modFlash fun f => { f with op := .none }).modSys Sys.forget).markWiped s.lc).modGeode fun g =>
        { g with wipePending := false }).afterWipe else s)) ∧
  (∀ s : State, s.flash.op ≠ .bootWipe → exec .pendingWipeDone s = .next s) ∧
  (∀ s : State, s.geode.stage ≠ .image → exec .slotSelectionDone s = .next s) ∧
  (∀ (s : State) (i : SlotId), s.geode.stage = .image →
    let boot : State → SlotId → State := fun t k => t.modGeode fun g =>
      { g with slotRunning := some k, build := fieldAt (t.flash.slot k).header 0x10 4, stage := .cert }
    let clear : State → State := fun t => if t.sys.hint = 3 then { t with sys := { t.sys with hint := 0 } } else t
    let record : State → (Flash → Flash) → State := fun t g => if t.flashTemp then { t with flash := g t.flash } else t
    let select : State → SlotId → State := fun t k =>
      if t.bootable k then boot (clear t) k
      else
        let u := t.recordFault 0x81 0x0F []
        if t.bootable k.other then boot (clear (record u fun f => { f with active := k.other })) k.other
        else (((u.recordFault 0x82 0x0F []).setHint 3).setStage .recovery).bootReport
    (s.flash.trial = none → exec .slotSelectionDone s = .next (select s s.flash.active)) ∧
    (s.flash.trial = some i → s.sys.hint = 1 → exec .slotSelectionDone s =
      .next (select { s with sys := { s.sys with hint := 2 } } i)) ∧
    (s.flash.trial = some i → s.sys.hint ≠ 1 → exec .slotSelectionDone s =
      .next (select ((((record s fun f => { f with trial := none }).recordFault 0x83 0x0F []).modSys fun y =>
        { y with hint := if s.sys.hint = 3 then 3 else 0 })) s.flash.active))) ∧
  (∀ s : State, s.geode.stage ≠ .cert → exec .bootCertLoaded s = .next s) ∧
  (∀ s : State, s.geode.stage = .cert →
    let t := if s.bootCert = none ∧ ¬(s.flash.certA = .blank ∧ s.flash.certB = .blank) then s.recordFault 0x84 0x0F [] else s
    exec .bootCertLoaded s = .next (t.modGeode fun g =>
      { g with
        cert := s.bootCert
        certBuiltin := s.bootCert.isNone && (s.lc == .develop || s.lc == .ret)
        stage := .journal })) ∧
  (∀ s : State, s.geode.stage ≠ .journal → exec .eupefenRunning s = .next s) ∧
  (∀ s : State, s.geode.stage = .journal →
    let t := (s.loadCommon.loadHome.loadMq.clampAll.dropCopies.setStage .running).bootReport
    exec .eupefenRunning s = .next (if s.loadCommon.loadHome.loadMq.clampAll.dropCopies.flash.op = .none then t.flashIdle else t)) ∧
  (∀ s : State, exec .execFault s = .next (if s.geode.stage = .running ∧ s.sys.clk = .running then
    (s.recordFault 0x86 0x0F []).trigger causeGeodeSafe else s))

/-- Accesses to stopped blocks, debug halt, and the application core's writes: an access that waited is carried out when the
block's clock returns (a write in SCRAPPED is refused) and ends with zero at a block restart, which starts the block's own sequence
anew; a write of the core to the Geode is discarded and counted, to a stopped block stalls the core, and to any other register takes
effect; a lane target that it writes is never above the certificate's limit. -/
def Obligations.StoppedBlocksAndTheCore : Prop :=
  (∀ s : State, s.sys.clk ≠ .running ∨ s.sys.held = true → exec .hungAccessComplete s = .next s) ∧
  (∀ s : State, s.sys.clk = .running → s.sys.held = false →
    let back : Hung → Prop := fun x => x.block ≠ .slolos ∨ s.blockRuns x.block = true
    (∀ x, s.sys.hung = some x → back x → exec .hungAccessComplete s =
      .next ((s.completeAccess x).modSys fun y => { y with hung := none })) ∧
    (∀ x, (∀ z, s.sys.hung = some z → ¬back z) → s.sys.coreHung = some x → back x → exec .hungAccessComplete s =
      .next ((s.completeAccess x).modSys fun y => { y with coreHung := none }).unstall) ∧
    ((∀ z, s.sys.hung = some z → ¬back z) → (∀ z, s.sys.coreHung = some z → ¬back z) →
      exec .hungAccessComplete s = .next s)) ∧
  (∀ (s : State) (x : Hung) (v : Nat), x.write = some v → s.lc = .scrapped → s.completeAccess x = s.refuseWrite) ∧
  (∀ (s : State) (b : Block), b = .sys ∨ s.sys.clk ≠ .running ∨ s.sys.held = true → exec (.blockRestart b) s = .next s) ∧
  (∀ (s : State) (b : Block), b ≠ .sys → s.sys.clk = .running → s.sys.held = false →
    let r : State := { s with sys := { s.sys with ready := s.sys.ready.putBit b.index false } }
    let u := match b with
      | .slolos => (r.modSlolos Slolos.halt).repliesGone
      | .clasp => r.claspStart
      | .meas => { r with meas := { r.meas with calDone := false } }
      | .therm => { r with therm := r.therm.start }
      | _ => r
    let t := if (s.sys.hung.any fun x => x.block == b) then u.modSys fun y => { y with hung := none } else u
    exec (.blockRestart b) s = .next (if s.sys.coreHung.any fun x => x.block == b then
      (t.modSys fun y => { y with coreHung := none }).unstall else t)) ∧
  (∀ s : State,
    let t := s.modGeode fun g => { g with stalled := s.time.debugHalt }
    s.unstall = if s.time.debugHalt then t else t.runHeld) ∧
  (∀ (s : State) (v : Bool), ¬(s.lc = .develop ∨ s.lc = .ret) ∨ s.sys.clk ≠ .running ∨ s.sys.held = true →
    exec (.debugHalt v) s = .next s) ∧
  (∀ s : State, s.lc = .develop ∨ s.lc = .ret → s.sys.clk = .running → s.sys.held = false →
    exec (.debugHalt true) s = .next { s with
      time := { s.time with debugHalt := true, wordNow := s.time.wordNow ||| 0x20 }, geode := { s.geode with stalled := true } } ∧
    exec (.debugHalt false) s = .next (if s.sys.coreHung.isSome then { s with time := { s.time with debugHalt := false } }
      else { s with time := { s.time with debugHalt := false } }.unstall)) ∧
  (∀ (s : State) (a : Nat) (w : CoreWrite), s.coreRuns = false → exec (.appCoreActuatorWrite a w) s = .next s) ∧
  (∀ (s : State) (a v : Nat), s.coreRuns = true →
    let w := a % 2 ^ 32 / 4 * 4
    (blockOf (w / 2 ^ 16) = none → exec (.appCoreActuatorWrite a (.register v)) s = .next s) ∧
    (blockOf (w / 2 ^ 16) = some .geode → exec (.appCoreActuatorWrite a (.register v)) s =
      .next { s with geode := { s.geode with discards := satAdd 255 s.geode.discards 1, epDiscard := true } }) ∧
    (∀ b, blockOf (w / 2 ^ 16) = some b → b ≠ .geode →
      (s.fused b = true → exec (.appCoreActuatorWrite a (.register v)) s = .next s) ∧
      (s.fused b = false → s.blockRuns b = false → exec (.appCoreActuatorWrite a (.register v)) s = .next { s with
        sys := { s.sys with coreHung := some { block := b, address := w, write := some (v % 2 ^ 32) } }
        geode := { s.geode with stalled := true } }) ∧
      (s.fused b = false → s.blockRuns b = true → exec (.appCoreActuatorWrite a (.register v)) s =
        .next ((s.writeReg b (w % 2 ^ 16) (v % 2 ^ 32)).getD s)))) ∧
  (∀ (s : State) (k mv ma : Nat), s.coreRuns = true →
    ∃ t, exec (.appCoreActuatorWrite k (.actuator (.laneTarget mv ma))) s = .next t ∧
      (∀ b, s.limits = some b → k < s.conv.lanes.length →
        t.lane k = (s.lane k).aim (Nat.min mv (certVout b k))
          (Nat.min ma (if (s.lane k).fn = .boost then certIboost b k else certIcharge b k))) ∧
      (s.limits = none → k < s.conv.lanes.length → t.lane k = (s.lane k).aim mv ma))

/-- A packet frame of the chain. A worker relays a reply or an event upstream and repeats a packet for another address downstream;
its own, once its CRC holds, passes the checks of Table 06-2 as the packet of a host does. A frame that fails is counted with its code
violations wherever it is heard. The manager forwards a worker's event
on its routes, and returns a worker's reply to the origin of the command in flight, which ACCEPTED leaves in flight. -/
def Obligations.PacketFrames : Prop :=
  (∀ (s : State) (b : List Byte) (x : Harm), s.portsRun = false → exec (.packetFrame ⟨b, x⟩) s = .next s) ∧
  (∀ (s : State) (b : List Byte) (x : Harm), s.portsRun = true → s.isWorker = true →
    let f := carriedOn x (.packet b)
    (frameGoesUp b = true → exec (.packetFrame ⟨b, x⟩) s =
      .next (if s.sys.held then s else if x = .none then s.relayBulk f else (s.badFrame x).relayBulk f)) ∧
    (frameGoesUp b = false → s.slolos.address = 0 ∨ byteAt b 0 ≠ s.slolos.address →
      exec (.packetFrame ⟨b, x⟩) s = .next (if s.sys.held = true ∨ x = .none then s.repeatDown f else (s.repeatDown f).badFrame x)) ∧
    (frameGoesUp b = false → s.slolos.address ≠ 0 → byteAt b 0 = s.slolos.address →
      exec (.packetFrame ⟨b, x⟩) s = .next (if s.sys.held then s
        else if x = .none ∧ crc32Good b = true then s.takePacket b else s.badFrame x))) ∧
  (∀ (s : State) (b : List Byte) (x : Harm), s.isWorker = false → s.sys.held = true → exec (.packetFrame ⟨b, x⟩) s = .next s) ∧
  (∀ (s : State) (b : List Byte) (x : Harm), s.portsRun = true → s.isWorker = false → s.sys.held = false →
    x ≠ .none ∨ crc32Good b = false → exec (.packetFrame ⟨b, x⟩) s = .next (s.badFrame x)) ∧
  (∀ (s : State) (x : Harm), ∃ n, (s.badFrame x).slolos =
    { s.slolos with errCrc := satAdd 255 s.slolos.errCrc 1, errCode := satAdd 255 s.slolos.errCode n } ∧
      (∀ k, x = .code k → n = k) ∧ ((∀ k, x ≠ .code k) → n = 0)) ∧
  (∀ (s : State) (b : List Byte), s.portsRun = true → s.isWorker = false → s.sys.held = false → crc32Good b = true →
    let k := Packet.ofBytes (framePacket b)
    (k.flags.getLsbD 4 = true → exec (.packetFrame ⟨b, .none⟩) s = .next (s.deliver (k.opcode == 0x7F11) k)) ∧
    (k.flags.getLsbD 4 = false → k.flags.getLsbD 7 = false → exec (.packetFrame ⟨b, .none⟩) s = .next s) ∧
    (k.flags.getLsbD 4 = false → k.flags.getLsbD 7 = true →
      let f := s.repliedFlight (byteAt b 0) (Origin.ofRank (byteAt b 1)) k.tag.toNat
      (f = none → exec (.packetFrame ⟨b, .none⟩) s = .next s) ∧
      (∀ g, f = some g → g.bcast = true → exec (.packetFrame ⟨b, .none⟩) s = .next (s.dieAnswer g.key (byteAt b 0) k.payload)) ∧
      (∀ g, f = some g → g.bcast = false → g.sched = true → g.accepted = false → getAt k.payload 0 0 = stAccepted →
        exec (.packetFrame ⟨b, .none⟩) s = .next (((s.planAnswered g stAccepted).sendBack g k none).modFlight g.key fun y =>
          { y with accepted := true })) ∧
      (∀ g, f = some g → g.bcast = false → ¬(g.sched = true ∧ g.accepted = false ∧ getAt k.payload 0 0 = stAccepted) →
        let t := (s.planAnswered g (getAt k.payload 0 0)).sendBack g k (some g.key)
        exec (.packetFrame ⟨b, .none⟩) s = .next (if g.key.origin = .internal then t.dropFlight g.key
          else t.modFlight g.key fun y => { y with phase := .replied }))))

/-! ### The SPI target, the register window and CAN (06) -/

/-- Packet transactions and the command byte. While an access waits a transaction is ignored; otherwise the status byte, whose reading clears DISCARDED,
comes first. WRITE_PACKET puts a packet of at most 1,040 bytes into a free buffer, is discarded with DISCARDED set where none is
free, and is counted in FRAMING where it is longer; READ_PACKET sends the oldest packet, which leaves only when its last byte has
been clocked out: its tag is then free and a loss of events is reported. A transaction with an unknown command byte is ignored and
counted in FRAMING (what it returns after the status byte is the model's choice, log 104). -/
def Obligations.PacketTransactions : Prop :=
  (∀ (b : List Byte) (s : State), s.sys.hung.isSome = true →
    exec (.writePacket ⟨1, b⟩) s = .next (s.sendMiso (List.replicate (1 + b.length) 0xFF))) ∧
  (∀ (n : Nat) (s : State), s.sys.hung.isSome = true → exec (.readPacket n) s = .next (s.sendMiso (List.replicate (1 + n) 0xFF))) ∧
  (∀ s : State, s.sys.hung.isSome = true → exec .status s = .next (s.sendMiso [0xFF])) ∧
  (∀ s : State, s.sys.hung = none → exec .status s = .next (s.spiBegin.sendMiso [s.statusByte])) ∧
  (∀ (c : Nat) (b : List Byte) (s : State), c = 0 ∨ 5 < c →
    exec (.writePacket ⟨c, b⟩) s = .next (if s.sys.hung.isSome then s.sendMiso (List.replicate (1 + b.length) 0xFF)
      else (s.spiBegin.sendMiso (s.statusByte :: zeros b.length)).modCmd fun y =>
        { y with framing := satAdd 255 y.framing 1 })) ∧
  (∀ (c : Nat) (b : List Byte) (s : State), 2 ≤ c → c ≤ 5 → exec (.writePacket ⟨c, b⟩) s = .next s) ∧
  (∀ s : State, s.sys.hung = none →
    s.spiBegin = (if s.isReady .cmd then { s with cmd := { s.cmd with discarded := false } } else s) ∧
    s.statusByte = if s.isReady .cmd then
      BitVec.ofNat 8 (0x80 + 0x40 * bit (!s.cmd.outSpi.isEmpty) + 0x20 * bit (decide (s.cmd.spiHeld < Config.spiBuffers))
        + 0x10 * bit s.cmd.discarded) else 0) ∧
  (∀ (b : List Byte) (s : State), s.sys.hung = none →
    let t := s.spiBegin.sendMiso (s.statusByte :: zeros b.length)
    exec (.writePacket ⟨1, b⟩) s = .next (
      if 1040 < b.length then t.modCmd fun c => { c with framing := satAdd 255 c.framing 1 }
      else if s.isReady .cmd = false then t
      else if s.cmd.spiHeld < Config.spiBuffers then
        t.modCmd fun c => { c with inbox := c.inbox ++ [{ origin := .spi, node := 0, bytes := b }] }
      else t.modCmd fun c => { c with discarded := true })) ∧
  (∀ (n : Nat) (s : State), s.sys.hung = none → s.isReady .cmd = false ∨ s.cmd.outSpi = [] →
    exec (.readPacket n) s = .next (s.spiBegin.sendMiso (s.statusByte :: zeros n))) ∧
  (∀ (n : Nat) (s : State) (x : OutItem) (r : List OutItem), s.sys.hung = none → s.isReady .cmd = true → s.cmd.outSpi = x :: r →
    let t := s.spiBegin.sendMiso (s.statusByte :: ((0 : Byte) :: x.pkt.bytes ++ zeros n).take n)
    exec (.readPacket n) s = .next (if n ≤ x.pkt.bytes.length then t
      else
        let u := t.modCmd fun c => { c with outSpi := r }
        (match x.frees with
          | some k => u.dropFlight k
          | none => u).eventsLost 0))

/-- The register window. A read of a word answers its register's value; zero for an unmapped or undefined offset, a fused block
and, in SCRAPPED, all but SYS and GEODE_STATUS; a write is carried out, ignored in a fused block, or refused with 0xE1 and
counted. An access to a block whose clock is stopped waits, and the next transactions are then ignored. A burst that leaves its
block reads zero there. -/
def Obligations.WindowAccesses : Prop :=
  (∀ (a n : Nat) (s : State), s.sys.hung.isSome = true →
    exec (.windowRead a n) s = .next (s.sendMiso (List.replicate (6 + 5 * n) 0xFF))) ∧
  (∀ (a v : Nat) (s : State), s.sys.hung.isSome = true → exec (.windowWrite a v) s = .next (s.sendMiso (List.replicate 10 0xFF))) ∧
  (∀ (a n : Nat) (s : State), s.sys.hung = none → n = 0 ∨ 16 < n →
    exec (.windowRead a n) s = .next ((s.spiBegin.modCmd fun c => { c with framing := satAdd 255 c.framing 1 }).sendMiso [s.statusByte])) ∧
  (∀ (a n : Nat) (s : State), s.sys.hung = none → 1 ≤ n → n ≤ 16 →
    let w := a % 2 ^ 32 / 4 * 4
    let x := s.spiBegin.burst w n w
    exec (.windowRead a n) s = .next (x.1.sendMiso (s.statusByte ::
      (zeros 5 ++ [0xFF] ++ (x.2.1.map fun v => (0x5A : Byte) :: le 4 v).flatten ++ (if x.2.2 then [] else [0xFF]))))) ∧
  (∀ (s : State) (base a : Nat), s.burst base 0 a = (s, [], true)) ∧
  (∀ (s : State) (base n a : Nat),
    (a / 2 ^ 16 ≠ base / 2 ^ 16 →
      s.burst base (n + 1) a = ((s.burst base n (a + 4)).1, 0 :: (s.burst base n (a + 4)).2.1, (s.burst base n (a + 4)).2.2)) ∧
    (a / 2 ^ 16 = base / 2 ^ 16 → ∀ v t, s.readWord a = some (v, t) →
      s.burst base (n + 1) a = ((t.burst base n (a + 4)).1, v :: (t.burst base n (a + 4)).2.1, (t.burst base n (a + 4)).2.2)) ∧
    (a / 2 ^ 16 = base / 2 ^ 16 → s.readWord a = none →
      s.burst base (n + 1) a = ({ s with sys := { s.sys with
        hung := (blockOf (a / 2 ^ 16)).map fun b => { block := b, address := a, write := none } } }, [], false))) ∧
  (∀ (s : State) (a : Nat), blockOf (a / 2 ^ 16) = none → s.readWord a = some (0, s)) ∧
  (∀ (s : State) (a : Nat) (b : Block), blockOf (a / 2 ^ 16) = some b → s.readWord a =
    if s.fused b = true ∨ regDefined b (a % 2 ^ 16) = false then some (0, s)
    else if s.lc = .scrapped ∧ b ≠ .sys ∧ a ≠ 0xF0000 then some (0, s)
    else if s.windowOpen b = false then none
    else some (s.readReg b (a % 2 ^ 16))) ∧
  (∀ (s : State) (b : Block), s.windowOpen b = true ↔ b = .sys ∨ (s.isReady .cmd = true ∧ s.blockRuns b = true)) ∧
  (∀ (a v : Nat) (s : State), s.sys.hung = none →
    let w := a % 2 ^ 32 / 4 * 4
    let t := s.spiBegin
    let refused : State := { t with cmd := { t.cmd with winRefused := satAdd 255 t.cmd.winRefused 1 } }
    let answer : Byte → State → Host.Outcome State Fault Refusal := fun r u =>
      .next (u.sendMiso (s.statusByte :: (zeros 8 ++ [0xFF, r])))
    (blockOf (w / 2 ^ 16) = none → exec (.windowWrite a v) s = answer 0xE1 refused) ∧
    (∀ b, blockOf (w / 2 ^ 16) = some b →
      (t.fused b = true → exec (.windowWrite a v) s = answer 0x5A t) ∧
      (t.fused b = false → t.lc = .scrapped → exec (.windowWrite a v) s = answer 0xE1 refused) ∧
      (t.fused b = false → t.lc ≠ .scrapped → t.windowOpen b = false → exec (.windowWrite a v) s = .next (({ t with sys := { t.sys with
        hung := some { block := b, address := w, write := some (v % 2 ^ 32) } } }).sendMiso (s.statusByte :: (zeros 8 ++ [0xFF])))) ∧
      (t.fused b = false → t.lc ≠ .scrapped → t.windowOpen b = true → exec (.windowWrite a v) s =
        match t.writeReg b (w % 2 ^ 16) (v % 2 ^ 32) with
          | some u => answer 0x5A u
          | none => answer 0xE1 refused)))

/-- The rows of one register, where its block runs and the die is not in SCRAPPED: the value that is read, and what the access
does to the register. Reads of the error and count registers clear them, a read of CAPTURE takes its oldest entry, and TIME_SYS_LO,
TIMERn_COUNT and TIME_EPOCH_NUM latch what is read beside them; a write of COMPARE is reduced modulo the period and arms, a
PERIOD of 0 is stored as 1. -/
def Obligations.RegisterRows : Prop :=
  ∀ s : State, s.sys.hung = none → s.lc ≠ .scrapped →
    let t : State := { s with cmd := { s.cmd with discarded := false } }
    let read : Nat → State → Host.Outcome State Fault Refusal := fun v u =>
      .next (u.sendMiso (s.statusByte :: (zeros 5 ++ [0xFF] ++ ((0x5A : Byte) :: le 4 v))))
    let written : State → Host.Outcome State Fault Refusal := fun u => .next (u.sendMiso (s.statusByte :: (zeros 8 ++ [0xFF, 0x5A])))
    (s.windowOpen .cmd = true → exec .cmdErrorsRead s =
      read (s.cmd.framing * 2 ^ 24 + s.cmd.crcErr * 2 ^ 16 + s.cmd.eventsLost * 2 ^ 8 + s.cmd.winRefused)
        { t with cmd := { t.cmd with framing := 0, crcErr := 0, eventsLost := 0, winRefused := 0 } }) ∧
    (s.windowOpen .pendant = true → s.otp.partWq = false → exec .pendantCountRead s =
      read (s.pendant.discarded * 2 ^ 24 + s.pendant.naks * 2 ^ 16 + s.pendant.rejs * 2 ^ 8 + s.pendant.superseded)
        { t with pendant := { t.pendant with discarded := 0, naks := 0, rejs := 0, superseded := 0 } }) ∧
    (s.windowOpen .slolos = true → exec .slolosErrorsRead s =
      read (s.slolos.errCode * 2 ^ 24 + s.slolos.errCrc * 2 ^ 16 + s.slolos.errLink * 2 ^ 8 + s.slolos.errDropped)
        { t with slolos := { t.slolos with errCode := 0, errCrc := 0, errLink := 0, errDropped := 0 } }) ∧
    (∀ k, s.windowOpen .clasp = true → s.otp.partWq = false → exec (.claspCountRead k) s =
      read (s.clasp.badMsg * 2 ^ 24 + s.clasp.resends * 2 ^ 16 + s.clasp.collisions * 2 ^ 8 + s.clasp.pulled)
        { t with clasp := { t.clasp with badMsg := 0, resends := 0, collisions := 0, pulled := 0 } }) ∧
    (s.windowOpen .memi = true → exec .memiStatusRead s =
      read s.memiStatus { t with memi := { t.memi with queueUncorr := 0 } }) ∧
    (∀ k, k < 4 → s.windowOpen .memi = true → exec (.memiCorrRead k) s =
      read ((s.memi.ram k).overflows * 2 ^ 16 + (s.memi.ram k).corrected)
        (t.modMemi fun m => m.modRam k fun r => { r with overflows := 0, corrected := 0 })) ∧
    (s.windowOpen .time = true →
      exec .timeSysLoRead s = read (s.time.sysTime % 2 ^ 32) (if s.time.latch then
        { t with time := { t.time with hiLatched := some (s.time.sysTime / 2 ^ 32) } } else t) ∧
      exec .timeEpochNumRead s = read s.time.epoch { t with time := { t.time with tickLatched := s.time.tick } } ∧
      ∀ k, k < 16 →
        let x := s.time.timer k
        let put : Timer → State := fun y => t.modTime fun z => z.setTimer k y
        exec (.timerCapstatRead k) s = read (x.catchup * 2 ^ 16 + x.capOvf * 2 ^ 8 + x.captures.length)
          (put { x with catchup := 0, capOvf := 0 }) ∧
        exec (.timerCaptureRead k) s = read (x.captures.headD 0) (put { x with captures := x.captures.drop 1 }) ∧
        exec (.timerCountLatchRead k) s = read (if s.time.latch then x.latched.getD x.count else x.count)
          (if s.time.latch then { t with time := t.time.latchAbove k } else t) ∧
        (∀ v, exec (.timerCompareWrite k v) s = written (put { x with compare := v % 2 ^ 32 % x.modulus, armed := true })) ∧
        (∀ v, exec (.timerPeriodWrite k v) s = written (put { x with period := if v % 2 ^ 32 = 0 then 1 else v % 2 ^ 32 })) ∧
        (∀ v, exec (.timerCountWrite k v) s = written (put { x with count := v % 2 ^ 32 }))) ∧
    (∀ h, s.windowOpen .meas = true → exec (.measViewHoldWrite h) s = written
      { t with meas := { t.meas with hold := h, view := if h then t.meas.view else t.meas.newest } })

/-- CAN FD: a frame of the binding to this node extends its source's reassembly (R144), a complete packet reaches the engine
without its padding, a timeout or a segment out of order discards and counts one; bus-off stops the controller until its recovery;
each frame sent carries the identifier of R143, the segment header, up to 63 bytes and its padding; and the oldest packet leaves with
its last frame, which frees its tag and puts a CAN_CONFIG of its own controller into effect. -/
def Obligations.CanBinding : Prop :=
  (∀ (i ident : Nat) (fd : Bool) (s : State), exec (.canFrameReceived i ident fd []) s = .next s) ∧
  (∀ (i ident : Nat) (fd : Bool) (hd : Byte) (d : List Byte) (s : State),
    ¬(i < 2 ∧ s.isReady .cmd = true ∧ s.canOn i = true ∧ fd = true ∧ ident / 2 ^ 16 % 2 ^ 13 = (s.cmd.can i).base ∧
      ident % 256 = (s.cmd.can i).ownNode) → exec (.canFrameReceived i ident fd (hd :: d)) s = .next s) ∧
  (∀ (i ident : Nat) (hd : Byte) (d : List Byte) (s : State), i < 2 → s.isReady .cmd = true → s.canOn i = true →
    ident / 2 ^ 16 % 2 ^ 13 = (s.cmd.can i).base → ident % 256 = (s.cmd.can i).ownNode →
    let n := ident / 256 % 256
    let open_ := (s.cmd.can i).reass.find? (fun r => r.node == n)
    let others := (s.cmd.can i).reass.filter fun r => r.node != n
    let drop : State := (s.modCmd fun c => c.setCan i { c.can i with reass := others }).modCmd fun c =>
      { c with framing := satAdd 255 c.framing 1 }
    let store : State → Reass → State := fun t r =>
      let rest := (t.cmd.can i).reass.filter fun y => y.node != n
      if hd.getLsbD 6 then t.modCmd fun c =>
        { c.setCan i { c.can i with reass := rest } with
          inbox := c.inbox ++ [{ origin := if i = 0 then .can0 else .can1, node := n, bytes := canTrim r.bytes (d.length + 1) }] }
      else t.modCmd fun c => c.setCan i { c.can i with reass := rest ++ [r] }
    exec (.canFrameReceived i ident true (hd :: d)) s = .next (
      if hd.getLsbD 7 then
        let t := if open_.isSome then drop else s
        if hd.toNat % 64 ≠ 0 ∨ 4 ≤ (t.cmd.can i).reass.length then t.modCmd fun c => { c with framing := satAdd 255 c.framing 1 }
        else store t { node := n, next := 1, bytes := d }
      else match open_ with
        | none => s
        | some r => if hd.toNat % 64 = r.next then store s { r with next := (hd.toNat % 64 + 1) % 64, bytes := r.bytes ++ d }
          else drop)) ∧
  (∀ (i n : Nat) (s : State), exec (.canReassemblyTimeout i n) s =
    .next (if i < 2 ∧ ((s.cmd.can i).reass.any fun r => r.node == n) = true then
      (s.modCmd fun c => c.setCan i { c.can i with reass := (c.can i).reass.filter fun r => r.node != n }).modCmd fun c =>
        { c with framing := satAdd 255 c.framing 1 } else s)) ∧
  (∀ (i : Nat) (s : State), exec (.canBusOff i) s = .next (if i < 2 ∧ s.canOn i = true then
    s.modCmd fun c => c.setCan i { c.can i with busOff := true } else s)) ∧
  (∀ (i : Nat) (s : State), exec (.canBusOffRecovery i) s = .next (if i < 2 ∧ (s.cmd.can i).busOff = true then
    (s.modCmd fun c => c.setCan i { c.can i with busOff := false }).modCmd fun c => { c with framing := satAdd 255 c.framing 1 }
    else s)) ∧
  (∀ (i : Nat) (s : State), ¬(i < 2 ∧ s.canOn i = true) ∨ s.cmd.out (i + 1) = [] → exec (.canFrameTransmitted i) s = .next s) ∧
  (∀ (i : Nat) (s : State) (x : OutItem) (r : List OutItem), i < 2 → s.canOn i = true → s.cmd.out (i + 1) = x :: r →
    let c := s.cmd.can i
    let n := (x.pkt.bytes.length + 62) / 63
    let d := slice x.pkt.bytes (63 * c.sent) 63
    let length := if d.length < 8 then d.length + 1 else (([12, 16, 20, 24, 32, 48, 64] : List Nat).find? (d.length + 1 ≤ ·)).getD 64
    let t := s.modCmd fun y => y.setCan i { c with
      sent := c.sent + 1
      frame := some
        { ident := c.base * 2 ^ 16 + c.ownNode * 2 ^ 8 + x.node
          bytes := BitVec.ofNat 8 (128 * bit (c.sent == 0) + 64 * bit (c.sent + 1 == n) + c.sent % 64) :: d
            ++ zeros (length - (d.length + 1)) } }
    exec (.canFrameTransmitted i) s = .next (if n ≤ c.sent + 1 then
      (((t.modCmd fun y => (y.setOut (i + 1) r).setCan i { y.can i with sent := 0 }).canReconfigure x).leftDie x).eventsLost (i + 1)
      else t))

/-! ### Reset causes, watchdog, timers, memory integrity, thermal reads (04, 16 to 18) -/

/-- R77: a trigger while a reset is held merges with it; SYS_RST_CAUSE records the first kind of the order, all watchdog causes
that triggered together; and every kind that triggered sets its bit in the history. -/
def Obligations.ResetCausesMerge : Prop :=
  (∀ (s : State) (n : Nat), n < 12 → s.sys.held = true →
    (s.trigger n).sys.held = true ∧ (s.trigger n).sys.trigPending = s.sys.trigPending ∧
    ∀ k, k < 12 → (s.trigger n).sys.trig.getLsbD k = (s.sys.trig.getLsbD k || k == n)) ∧
  (∀ (x : Straps) (s : State), s.mayEnd = true →
    ∃ t, exec (.resetEnd x) s = .next t ∧
      (∀ k, s.sys.trig.getLsbD k = true → t.sys.seen.getLsbD k = true) ∧
      let got : Nat → Bool := fun n => s.sys.trig.getLsbD n
      let wdg : BitVec 12 := s.sys.trig &&& 0x070
      let one : Nat → BitVec 12 := fun n => 1 <<< n
      t.sys.rstCause =
        if got causePor then one causePor else if got causeBor then one causeBor else if got causePin then one causePin
        else if got causeThermal then one causeThermal else if got causeGeodeSafe then one causeGeodeSafe
        else if wdg ≠ 0 then wdg
        else if got causeChain then one causeChain else if got causeSoft then one causeSoft else one causeHibWake)

/-- A write of the application core to WDG_SERVICE has the outcome of Table 17-2 by the count; the count that reaches CLOSE without
one expires; and with LFRC selected the clock monitor of a powered die resets it and holds it until LFRC has run again. Each watchdog reset
writes the last-fault record. -/
def Obligations.WatchdogOutcomes : Prop :=
  let reset : Nat → Nat → Nat → State → State := fun cause code written t =>
    (t.recordFault code 0x03 (le 2 t.wdg.count ++ le 2 t.wdg.openTick ++ le 2 t.wdg.closeTick ++ le 1 (bit t.wdg.clkLfrc)
      ++ le 1 t.geode.stage.code ++ le 4 written)).trigger cause
  (∀ (key : Nat) (s : State), s.coreRuns = false → exec (.wdgService key) s = .next s) ∧
  (∀ (key : Nat) (s : State), s.coreRuns = true → exec (.wdgService key) s = .next (
    if s.wdg.closeTick ≤ s.wdg.count then reset causeWdgExpire 0xD0 0 s
    else if key ≠ 0xC3A55A3C then reset causeWdgEarly 0xD3 key s
    else if s.wdg.count < s.wdg.openTick then reset causeWdgEarly 0xD1 0 s
    else { s with wdg := { s.wdg with
      count := 0
      prescale := 0
      openTick := (s.wdg.window.map (·.1)).getD s.wdg.openTick
      closeTick := (s.wdg.window.map (·.2)).getD s.wdg.closeTick
      window := none } })) ∧
  (∀ s : State, exec .wdgExpire s = .next (
    if s.sys.held = false ∧ (if s.wdg.clkLfrc then s.sys.lfrcRun = true else s.sys.clk = .running) ∧ s.wdg.count < s.wdg.closeTick then
      reset causeWdgExpire 0xD0 0 { s with wdg := { s.wdg with count := s.wdg.closeTick, prescale := 0 } } else s)) ∧
  (∀ s : State, exec .wdgClkmon s = .next (if s.wdg.clkLfrc = true ∧ s.sys.supplies.getLsbD 0 = true then
    reset causeWdgClkmon 0xD2 0 { s with wdg := { s.wdg with lfrcStalled := true }, sys := { s.sys with lfrcRun := false } } else s)) ∧
  (∀ s : State, exec .lfrcResume s = .next (if s.wdg.lfrcStalled = true ∧ s.sys.supplies.getLsbD 0 = true then { s with
    wdg := { s.wdg with lfrcStalled := false }, sys := { s.sys with lfrcRun := true } } else s))

/-- R410: the first write of WDG_WINDOW locks it, with CLOSE and OPEN clamped in order; later ones set LOCK_VIOL; the window in
progress stands until the next accepted service; and every reset returns the default window, unlocked. -/
def Obligations.WatchdogWindow : Prop :=
  (∀ (v : Nat) (s : State), s.coreRuns = false → exec (.wdgWindowWrite v) s = .next s) ∧
  (∀ (v : Nat) (s : State), s.coreRuns = true → s.wdg.locked = true →
    exec (.wdgWindowWrite v) s = .next { s with wdg := { s.wdg with lockViol := true } }) ∧
  (∀ (v : Nat) (s : State), s.coreRuns = true → s.wdg.locked = false →
    let most := if s.lc = .develop ∧ 1 ≤ s.wdg.devClose.toNat then 1250 * Nat.min s.wdg.devClose.toNat 32 else 500
    let close := Nat.max 2 (Nat.min most (v / 2 ^ 16))
    let first := Nat.max 1 (Nat.min (close - 1) (v % 2 ^ 16))
    ∃ o, exec (.wdgWindowWrite v) s = .next { s with wdg := { s.wdg with locked := true, window := some (o, close) } } ∧
      (s.wdg.clkLfrc = false → o = first) ∧ (s.wdg.clkLfrc = true → o ≤ first ∧ (30 ≤ close → o = Nat.min first (close - 30)))) ∧
  (∀ (s : State) (o c : Nat), s.coreRuns = true → s.wdg.openTick ≤ s.wdg.count → s.wdg.count < s.wdg.closeTick →
    s.wdg.window = some (o, c) →
    exec (.wdgService 0xC3A55A3C) s = .next { s with wdg := { s.wdg with
      count := 0, prescale := 0, openTick := o, closeTick := c, window := none } }) ∧
  (∀ (x : Straps) (s : State), s.mayEnd = true → ∃ t, exec (.resetEnd x) s = .next t ∧
    t.wdg.openTick = 100 ∧ t.wdg.closeTick = 500 ∧ t.wdg.locked = false ∧ t.wdg.lockViol = false ∧ t.wdg.window = none)

/-- Timer events. An overflow sets the timer's OVF bit, returns its count to 0 and advances the chain above it in the same tick; a
match sets its MATCH bit, and advances or disarms the compare; either wakes the die from STANDBY where that is enabled. An edge is
captured, less the synchroniser's and the filter's ticks, by every timer that takes it once its level has held for the timer's filter,
one capture a tick, and a full queue counts a loss; in LFRC stepping and in a debug halt none is taken. -/
def Obligations.TimerEvents : Prop :=
  let runs : State → Bool := fun s => !s.sys.hibernate && (s.isReady .time || s.sys.power == .standby || s.time.lfrcStep)
  (∀ (n : Nat) (s : State), ¬(runs s = true ∧ n < s.time.timers.length ∧
      ((s.time.timer n).source = 1 ∨ ((s.time.timer n).source = 2 ∧ n ≠ 0))) → exec (.timerOverflow n) s = .next s) ∧
  (∀ (n : Nat) (s : State), runs s = true → n < s.time.timers.length →
    (s.time.timer n).source = 1 ∨ ((s.time.timer n).source = 2 ∧ n ≠ 0) →
    let x := { s.time.timer n with count := 0 }
    let r := tickTimers 0 (n + 1) true (s.time.timers.drop (n + 1))
    exec (.timerOverflow n) s = .next ({ s with time := { s.time with
      timers := s.time.timers.take n ++ (if x.due then x.matched else x) :: r.timers
      ovf := s.time.ovf ||| maskOf 16 (List.replicate n false ++ true :: r.ovf)
      match_ := s.time.match_ ||| maskOf 16 (List.replicate n false ++ x.due :: r.hits) } }.timerWake s.time.timers)) ∧
  (∀ (n : Nat) (s : State), ¬(runs s = true ∧ n < s.time.timers.length ∧ (s.time.timer n).armed = true ∧
      ((s.time.timer n).due = true ∨ (s.time.timer n).source = 1 ∨ ((s.time.timer n).source = 2 ∧ n ≠ 0))) →
    exec (.timerMatch n) s = .next s) ∧
  (∀ (n : Nat) (s : State), runs s = true → n < s.time.timers.length → (s.time.timer n).armed = true →
    (s.time.timer n).due = true ∨ (s.time.timer n).source = 1 ∨ ((s.time.timer n).source = 2 ∧ n ≠ 0) →
    let x := s.time.timer n
    let y := if x.due then x else { x with count := x.compare % (x.period + 1) }
    let late : Bool := decide ((y.count + (y.period + 1) - y.compare % (y.period + 1)) % (y.period + 1) ≠ 0)
    exec (.timerMatch n) s = .next ({ s with time := { s.time.setTimer n { y with
        armed := if y.interval = 0 then false else y.armed
        compare := if y.interval = 0 then y.compare else (y.compare + y.interval) % (y.period + 1)
        catchup := if late then satAdd 65535 y.catchup 1 else y.catchup
        epMatches := y.epMatches + 1
        epLate := if late then y.epLate + 1 else y.epLate } with
      match_ := s.time.match_.putBit n true } }.timerWake s.time.timers)) ∧
  (∀ (s : State) (l : List Timer), s.timerWake l = if (s.sys.power = .standby ∨ s.sys.power = .serviceWake) ∧ s.sys.wake.timer = true ∧
      (∃ x ∈ s.time.timers.zip l, x.1.wakeEn = true ∧ x.2.epMatches < x.1.epMatches) then
    { s with sys := { s.sys with wakeLatched := true } } else s) ∧
  (∀ (i k : Nat) (rising : Bool) (s : State), s.isReady .time = false ∨ s.time.lfrcStep = true ∨ s.time.debugHalt = true →
    exec (.captureEdge i ⟨rising, k⟩) s = .next s) ∧
  (∀ (i k : Nat) (rising : Bool) (s : State), s.isReady .time = true → s.time.lfrcStep = false → s.time.debugHalt = false →
    exec (.captureEdge i ⟨rising, k⟩) s = .next { s with time := { s.time with timers := s.time.timers.map fun x =>
      (if x.source = 1 ∧ x.capSel.toNat = i ∧ (if rising then x.edge.getLsbD 0 else x.edge.getLsbD 1) = true ∧ x.filter.toNat = k ∧
          x.capturedAt ≠ some s.time.sysTime then
        (if x.captures.length < 4 then
          { x with
            captures := x.captures ++ [(x.count + 2 * (x.period + 1) - (2 + x.filter.toNat) % (x.period + 1)) % (x.period + 1)]
            capturedAt := some s.time.sysTime }
        else { x with capOvf := satAdd 255 x.capOvf 1, epDrops := x.epDrops + 1, capturedAt := some s.time.sysTime })
      else x) } }) ∧
  (∀ s : State, exec .lfrcStepSwitch s = .next (if s.sys.lfrcRun = true ∧ s.sys.held = false then { s with time := { s.time with
    lfrcStep := s.sys.power == .standby || s.sys.power == .serviceWake
      || (s.time.debugHalt && (s.lc == .develop || s.lc == .ret)) || (s.time.lfrcStep && s.sys.clk != .running) } } else s))

/-- Drip counters, the owners' accesses and the scrubber. A leak takes 1 from the drip count, never below 0. A check that finds one flip
counts a correction, and the drip count rises or, above its ceiling, overflows to 0; more flips are uncorrectable: outside queue RAM a
fault record and a GEODE_SAFE reset, in queue RAM the command in whose buffer the word lies is answered INTERNAL. A read leaves a
single flip in the word; a write of part and a visit of the scrubber mend it; a whole write leaves only what an injection flips. -/
def Obligations.MemoryIntegrityEvents : Prop :=
  let put : Nat → Nat → Nat → State → State := fun k word n s => s.modMemi fun m => m.modRam k fun r =>
    { r with errors := (r.errors.filter fun e => e.1 != word) ++ if 0 < n then [(word, n)] else [] }
  let found : State → Nat → Nat → Nat → Nat → Nat → Option FlightKey → State := fun s k word n y reader o =>
    if n = 0 then s
    else if n = 1 then s.modMemi fun m => m.modRam k fun r =>
      if r.ceiling < r.count + 1 then
        { r with
          corrected := satAdd 65535 r.corrected 1, total := r.total + 1, count := 0, overflowed := true
          overflows := satAdd 65535 r.overflows 1, epOverflows := r.epOverflows + 1 }
      else { r with corrected := satAdd 65535 r.corrected 1, total := r.total + 1, count := r.count + 1 }
    else if k ≠ 1 then
      (s.recordFault (0xA0 + k) 0x0C (uncorrDetail k y word reader (s.memi.ram k).count)).trigger causeGeodeSafe
    else
      let t := s.modMemi fun m => { m with queueUncorr := satAdd 65535 m.queueUncorr 1 }
      match o.bind s.findFlight with
      | none => t
      | some g => ((t.recordFault 0xA1 0x0C (uncorrDetail 1 y word reader (t.memi.ram 1).count)).finish g [stInternal]).dueEvent 0x7FD1 0
          (le 1 g.key.origin.rank ++ le 1 g.key.tag ++ le 1 g.target ++ zeros 1 ++ le 2 g.opcode ++ zeros 2
            ++ le 4 s.time.epoch ++ le 4 s.time.tick)
  let flips : State → Nat → Nat → Nat → Nat := fun s k word f =>
    f + (((s.memi.ram k).errors.filter fun e => e.1 == word).map (·.2)).sum
  (∀ (k : Nat) (s : State), exec (.dripLeak k) s =
    .next (if s.sys.clk = .running ∧ s.sys.power ≠ .serviceWake ∧ s.sys.held = false then
      s.modMemi fun m => m.modRam k fun r => { r with count := r.count - 1, leakTicks := 0 } else s)) ∧
  (∀ (s : State) (n : Nat), s.memiAdvance n = if s.sys.clk = .running ∧ s.sys.power ≠ .serviceWake then
    { s with memi := { s.memi with rams := s.memi.rams.map fun r =>
      { r with
        count := r.count - (r.leakTicks + n) / (r.intervalMs * 1000 * Config.ticksPerUs)
        leakTicks := (r.leakTicks + n) % (r.intervalMs * 1000 * Config.ticksPerUs) } } } else s) ∧
  (∀ (k f y : Nat) (us : List RamUse) (o : Option FlightKey) (w : Bool) (s : State),
    ¬(s.sys.clk = .running ∧ s.sys.held = false ∧ k < s.memi.rams.length) → exec (.scrubVisit k us ⟨f, y⟩ o w) s = .next s) ∧
  (∀ (k f y : Nat) (us : List RamUse) (o : Option FlightKey) (w : Bool) (s : State),
    s.sys.clk = .running → s.sys.held = false → k < s.memi.rams.length →
    let t := us.foldl (fun t u => if t.sys.held then t else t.ramUse k u) s
    exec (.scrubVisit k us ⟨f, y⟩ o w) s = .next (if s.isReady .memi = true ∧ t.sys.held = false then
      t.scrub k f y o w (us.any (RamUse.countsWith (s.memi.ram k).scrubAt)) else t)) ∧
  (∀ (k w f y r : Nat) (o : Option FlightKey) (b : Bool) (s : State),
    let n := flips s k w f
    s.ramUse k (.read w f y r o b) = found (put k w (if n = 1 then 1 else 0) s) k w n y r o ∧
    s.ramUse k (.part w f y r o) = found (put k w 0 s) k w n y r o) ∧
  (∀ (k w : Nat) (s : State),
    let x := s.memi.inject.filter fun x => x.1 == k && x.2.2 == w
    s.ramUse k (.write w) = (put k w ((x.map (·.2.1)).getD 0) s).modMemi fun m =>
      { m with inject := if x.isSome then none else m.inject }) ∧
  (∀ (k f y : Nat) (o : Option FlightKey) (w counted : Bool) (s : State),
    let word := (s.memi.ram k).scrubAt
    let n := flips s k word f
    let t := (put k word 0 s).modMemi fun m => m.modRam k fun r => { r with scrubAt := (r.scrubAt + 1) % ramWords k }
    let u := if w then t.ramUse k (.write word) else t
    s.scrub k f y o w counted = if n = 1 ∧ counted = true then u else found u k word n y 1 o)

/-- Level flags and thermal reads. R383: each flag is set at or above its set level and cleared below it less the hysteresis, and the
highest flag gives the level; with the junction defaults throttle and shutdown clear below 145.0 C. A read starts first at once, then
on the grid of R385. A completed read stores the readings, the valid sensors and the highest valid reading, moves the junction flags
by it, and level 3 shuts the die down; while that holds, reads below the release level are counted. -/
def Obligations.ThermalReads : Prop :=
  (∀ (l : Levels) (b : List Byte) (v : Int),
    let flag : Bool → Int → Int → Bool := fun old set hyst => if set ≤ v then true else if v < set - hyst then false else old
    (l.next b v).warning = flag l.warning (sfieldAt b 0 2) (sfieldAt b 6 2) ∧
    (l.next b v).throttle = flag l.throttle (sfieldAt b 2 2) (sfieldAt b 6 2) ∧
    (l.next b v).shutdown = flag l.shutdown (sfieldAt b 4 2) (sfieldAt b 8 2)) ∧
  (∀ l : Levels, l.level = if l.shutdown then 3 else if l.throttle then 2 else if l.warning then 1 else 0) ∧
  (∀ (l : Levels) (v : Int), l.throttle = true → l.shutdown = true →
    ((l.next Therm.reset.junctionSet v).throttle = true ↔ 1450 ≤ v) ∧ ((l.next Therm.reset.junctionSet v).shutdown = true ↔ 1450 ≤ v)) ∧
  (∀ s : State,
    let grid := 50 * Config.ticksPerUs
    let step := if s.time.lfrcStep then 80 else 1
    let due : Prop := s.therm.started = false ∨ (s.therm.fast = true ∧ s.time.tick % grid < step) ∨
      (s.epochTicks ≤ s.time.tick + grid ∧ s.time.tick + grid < s.epochTicks + step)
    (s.sys.clk = .running ∧ s.sys.held = false ∧ due →
      exec .thermalReadStart s = .next { s with therm := { s.therm with reads := true } }) ∧
    (¬(s.sys.clk = .running ∧ s.sys.held = false ∧ due) → exec .thermalReadStart s = .next s)) ∧
  (∀ (l : List Int) (s : State), ¬(s.sys.clk = .running ∧ s.sys.held = false ∧ s.therm.reads = true ∧ l.length = 8) →
    exec (.thermalReadDone l) s = .next s) ∧
  (∀ (l : List Int) (s : State), s.sys.clk = .running → s.sys.held = false → s.therm.reads = true → l.length = 8 →
    ∃ t, exec (.thermalReadDone l) s = .next t ∧ t.therm.readings = l ∧ t.therm.ok = validMask l ∧
      t.therm.reading = (hottestOf l).map (·.2) ∧ t.therm.haveRead = true ∧ t.therm.reads = false ∧
      t.therm.levels = (match hottestOf l with
        | some x => s.therm.levels.next s.therm.junctionSet x.2
        | none => s.therm.levels) ∧
      t.therm.ext = s.therm.ext ∧ t.therm.batt = s.therm.batt ∧ t.therm.frozen = s.therm.frozen ∧ t.therm.body = s.therm.body ∧
      t.therm.started = true ∧
      (t.therm.level = 3 →
        t.therm.shutdown = true ∧ t.therm.coolReads = 0 ∧ t.sys.trigPending = s.sys.trigPending.putBit causeThermal true) ∧
      (t.therm.level ≠ 3 → t.sys = s.sys ∧ t.prot = s.prot) ∧
      t.conv = s.conv ∧ t.path = s.path ∧ t.time = s.time ∧ t.meas = s.meas ∧ t.flash = s.flash) ∧
  (∀ (l : List Int) (s : State), exec (.thermalHeldRead l) s = .next (if s.sys.held = true ∧ s.therm.shutdown = true ∧ s.sys.lfrcRun = true ∧ l.length = 8 then
    s.modTherm fun t => { t with
      coolReads := if (hottestOf l).any fun x => decide (x.2 < sfieldAt t.junctionSet 4 2 - sfieldAt t.junctionSet 8 2)
        then t.coolReads + 1 else 0 }
    else s))

/-! ### The epoch boundary and the chain (07, 13) -/

/-- A boundary. It acts only while no reset is held, the clocks run and the die is awake. A worker's comes from its marker, and
without one it does nothing; any other die's passes what is left of the epoch and opens the next number with the length in force. While
the die is leaving STANDBY it only counts: a domain word that becomes known is reported, and the commands whose epoch it passes end
TOO_LATE (R83, R165). Opening an epoch returns the tick to 0, moves the promise words on (Table 07-3) and
makes the domain word known: of the epoch that closed on a standalone die, of the one before it on a manager from its second
boundary, none on a worker. -/
def Obligations.EpochBoundary : Prop :=
  let acts : State → Bool := fun s => !s.sys.held && decide (s.sys.clk = .running) && !s.asleep
  (∀ s : State, acts s = false → exec .epochBoundary s = .next s) ∧
  (∀ s : State, s.isWorker = true → s.slolos.marker = none → exec .epochBoundary s = .next s) ∧
  (∀ (s : State) (e l : Nat), acts s = true → s.isWorker = true → s.slolos.marker = some (e, l) →
    exec .epochBoundary s = .next (if s.sys.power = .leaving then s.countEpoch e (some l) else s.boundary e (some l))) ∧
  (∀ s : State, acts s = true → s.isWorker = false →
    let t := s.pass s.ticksLeft (!s.time.lfrcStep)
    let e := (t.time.epoch + 1) % 2 ^ 32
    exec .epochBoundary s = .next (if t.sys.power = .leaving then t.countEpoch e none else t.boundary e none)) ∧
  (∀ (s : State) (e : Nat) (l : Option Nat),
    s.countEpoch e l = ((s.openEpoch e l).promiseEvent (s.domainWord e) s.time.domain).endPast.chainBoundary) ∧
  (∀ s : State, s.endPast = s.endWaiting
    (fun f => (s.time.epoch + 2 ^ 32 - f.epoch) % 2 ^ 32 < 2 ^ 31) stTooLate) ∧
  (∀ (s : State) (e : Nat) (l : Option Nat), ∃ lost : Bool, s.openEpoch e l = { s with time := { s.time with
      epoch := e
      hasEpoch := true
      tick := 0
      prevLength := s.time.length
      length := l.getD s.time.length
      wordNow := s.openingWord e
      wordLast := s.time.wordNow
      domain := ((s.domainWord e).map (·.2)).getD s.time.domain
      broken := if lost then satAdd 65535 s.time.broken 1 else s.time.broken
      boundaries := Nat.min 2 (s.time.boundaries + 1)
      policyLate := false
      overruns := if s.eupefen = true ∧ (s.time.policyLate = true ∨ (s.geode.stalled = true ∧ s.path.decided = none)) then
        s.time.overruns ++ [{ epoch := e, cause := 2, address := s.slolos.address }] else s.time.overruns } } ∧
    (lost = true ↔ (((s.domainWord e).map (·.2)).getD (if s.isWorker then s.time.wordNow else 0)) ≠ 0)) ∧
  (∀ (s : State) (e : Nat),
    let late := s.eupefen && (s.time.policyLate || (s.geode.stalled && s.path.decided.isNone))
    let whole := s.eupefen && !s.geode.stalled && !s.time.policyLate && s.isReady .cmd && s.isReady .conv
    let w := s.openingWord e
    w.getLsbD 0 = ((s.cmd.scheduledFor e).any fun f => f.shortLead) ∧
    w.getLsbD 1 = ((s.cmd.scheduledFor e).any fun f => f.shortMargin) ∧ w.getLsbD 2 = false ∧
    w.getLsbD 3 = (late || s.time.overruns.any fun o => o.cause == 1 && o.epoch == e) ∧ w.getLsbD 4 = false ∧
    w.getLsbD 5 = s.time.debugHalt ∧ w.getLsbD 6 = (s.time.wordNow.getLsbD 6 && !whole) ∧ w.getLsbD 7 = false) ∧
  (∀ (s : State) (e : Nat),
    let two := (e + 2 ^ 32 - 2) % 2 ^ 32
    (s.isWorker = true → s.domainWord e = none) ∧
    (s.isStandalone = true → s.domainWord e = some ((e + 2 ^ 32 - 1) % 2 ^ 32, s.time.wordNow)) ∧
    (s.isManager = true → s.time.boundaries = 0 → s.domainWord e = none) ∧
    (s.isManager = true → s.time.boundaries ≠ 0 → s.domainWord e = some (two, s.time.wordLast ||| s.telemetryWord |||
      (if s.time.overruns.any fun o => o.cause == 3 && o.epoch == two then 8 else 0)))) ∧
  (∀ s : State, exec .policyLate s = .next (if s.eupefen = true ∧ s.sys.clk = .running ∧ s.sys.held = false then
    { s with time := { s.time with policyLate := true } } else s))

/-- Links. A port that is off trains when it starts, and CHAIN is set; a trained port measures; a measured one is up and its delays are
held; a manager whose SLB came up starts a pass, the verify pass after a STANDBY wake. A link that goes down is counted with the
violations it met: a manager takes its SLB, or in a closed ring its SLA, as a break, bridges a ring out of both ports and sets CHAIN; a
worker sets CHAIN and sends the notice on, out of SLB where its SLA was lost. A notice that comes in is passed on whether or not it was
harmed, and a harmed one is counted. -/
def Obligations.ChainLinks : Prop :=
  let acts : State → Bool := fun s => !s.isStandalone && decide (s.sys.clk = .running) && !s.sys.held
  let bad : Harm → State → State := fun h t => t.modSlolos fun y =>
    { y with errCrc := satAdd 255 y.errCrc 1, errCode := satAdd 255 y.errCode (match h with | .code n => n | _ => 0) }
  let broken : Nat → Nat → State → State := fun before port t =>
    let ring := t.slolos.topology == 2
    let u := { t with
      time := { t.time with wordNow := t.time.wordNow ||| 0x04 }
      slolos := { t.slolos with
        breaks := if t.slolos.breaks.contains before then t.slolos.breaks else t.slolos.breaks ++ [before]
        topology := if ring then 3 else t.slolos.topology
        bridging := t.slolos.bridging || ring
        restoring := none
        ctxs := if ring then (t.slolos.ctxs.zipIdx).map fun x =>
            if before < x.2 + 1 && x.1.assigned then { x.1 with viaA := true } else x.1 else t.slolos.ctxs } }
    if ring then u.chainEvent 5 before port 0 [] else u
  let pass : Nat → State → State := fun mode t =>
    (t.modSlolos fun y => { y with enumActive := true, enumMode := mode, capped := false, joinSeen := false }).sendB
      (.control (.enum (t.slolos.highest + 1) 0 0 mode))
  (∀ (p : Nat) (s : State), exec (.slolosPortStart p) s = .next (if acts s = true ∧ s.slolos.port p = .off then
      { s with time := { s.time with wordNow := s.time.wordNow ||| 0x04 }, slolos := s.slolos.setPort p .training }
    else s)) ∧
  (∀ (p : Nat) (s : State), exec (.linkUp p) s = .next (
    if acts s = true ∧ (s.slolos.port p = .training ∨ s.slolos.port p = .down) then
      s.modSlolos fun y => y.setPort p .measuring else s)) ∧
  (∀ (p d down up : Nat) (s : State), exec (.delayMeasured p d down up) s = .next (
    if acts s = true ∧ s.slolos.port p = .measuring then
      let t := s.modSlolos fun y =>
        { y.setPort p .up with cA := if p = 0 then d else y.cA, cB := if p = 0 then y.cB else d, r := down, rRev := up }
      if s.isManager = true ∧ p = 1 ∧ s.slolos.enumActive = false then
        if s.slolos.verifyDue then pass 2 t
        else if s.isReady .slolos then (if s.slolos.workers = 0 then pass 0 t else t)
        else pass (if s.slolos.workers = 0 then 1 else 2) t
      else t
    else s)) ∧
  (∀ (p n : Nat) (s : State), exec (.linkDownDetected ⟨p, n⟩) s = .next (
    if acts s = true ∧ (s.slolos.port p = .up ∨ s.slolos.port p = .measuring) then
      let t := s.modSlolos fun y => { y.setPort p .down with errLink := satAdd 255 y.errLink 1, errCode := satAdd 255 y.errCode n }
      if s.isManager then
        if p = 1 then broken 0 1 t else if s.slolos.topology = 2 then broken s.slolos.workers 0 t else t
      else
        let u := { t with time := { t.time with wordNow := t.time.wordNow ||| 0x04 } }
        if p = 0 then u.sendB (.control (.linkDown s.slolos.address 0)) else u.sendUp (.control (.linkDown s.slolos.address p))
    else s)) ∧
  (∀ (h : Harm) (a p : Nat) (s : State), exec (.linkDown h a p) s = .next (
    if s.isStandalone = true ∨ s.sys.clk ≠ .running then s
    else if s.isWorker then
      let f : ChainFrame := if h = .cut then .abort else .control (.linkDown a p)
      let t := if p = 0 then s.sendB f else s.sendUp f
      if s.sys.held = false ∧ h ≠ .none then bad h t else t
    else if s.sys.held then s
    else if h ≠ .none then bad h s
    else broken (if p = 0 then a - 1 else a) p s)) ∧
  (∀ (p : Nat) (answer : Bool) (h : Harm) (r x : Nat) (s : State), exec (.echoFrame p answer h r x) s = .next (
    if acts s = false then s
    else if h ≠ .none then bad h s
    else if answer then s
    else if p = 0 then s.sendA (.control (.echo r x)) else s.sendB (.control (.echo r x))))

/-- Enumeration and membership. ENUM at a worker, on its way out and in the reverse pass; a worker that takes an address, or was cut off,
holds no allotment until one is delivered. The answers and the end of the chain at the manager, with the events 1 to 11, the first
worker that the cap leaves out named once in a pass; the retry of a manager alone; JOIN; UNASSIGN, by which a worker drops its address;
RESET, which triggers a CHAIN reset in the workers of its mask. A frame of the chain is passed on whether or not it was harmed, and
each die that receives it harmed counts it. -/
def Obligations.ChainMembers : Prop :=
  let acts : State → Bool := fun s => !s.isStandalone && decide (s.sys.clk = .running) && !s.sys.held
  let bad : Harm → State → State := fun h t => t.modSlolos fun y =>
    { y with errCrc := satAdd 255 y.errCrc 1, errCode := satAdd 255 y.errCode (match h with | .code n => n | _ => 0) }
  let pass : State → State := fun t =>
    (t.modSlolos fun y => { y with enumActive := true, enumMode := 0, capped := false, joinSeen := false }).sendB
      (.control (.enum (t.slolos.highest + 1) 0 0 0))
  let relay : Harm → Ctrl → State → State := fun h c t =>
    let f : ChainFrame := if h = .cut then .abort else .control c
    let u := if h = .none then t else bad h t
    if 2048 < u.slolos.bulkWaiting + f.chars then
      (u.sendUp .abort).modSlolos fun y => { y with errDropped := satAdd 255 y.errDropped 1 }
    else u.modSlolos fun y =>
      if y.facing = 2 then { y with txB := relayInto y.txB y.spentB f } else { y with txA := relayInto y.txA y.spentA f }
  let joined : Nat → State → State := fun k t => { t with
    slolos := { t.slolos with
      address := k, cutOff := false, age := 0, misses := 0, skipped := 0, entry := zeros 8, bz4 := false, heldEntry := none
      missedFlag := false, firstAllot := false }
    time := { t.time with wordNow := t.time.wordNow ||| 0x40 } }
  (∀ (b : Bool) (h : Harm) (next prev delay mode : Nat) (s : State),
    (s.sys.clk ≠ .running ∨ s.sys.held = true → exec (.enum b h next prev delay mode) s = .next s) ∧
    (s.sys.clk = .running → s.sys.held = false → h ≠ .none →
      exec (.enum b h next prev delay mode) s = .next (if s.isStandalone then s else bad h s)) ∧
    (s.sys.clk = .running → s.sys.held = false → h = .none → s.isWorker = true → b = true →
      let a := delay + s.slolos.cB
      exec (.enum b h next prev delay mode) s = .next (((s.modSlolos fun y => { y with dRev := Nat.min 0xFFFF ((a + 62) / 125) }).sendUp
        (.control (.enumAnswer s.otp.dieId (bit s.otp.partWq + 2) s.slolos.address a))).sendA
        (.control (.enum next s.slolos.address (a + s.slolos.rRev) mode)))) ∧
    (s.sys.clk = .running → s.sys.held = false → h = .none → s.isWorker = true → b = false → s.slolos.address ≠ 0 →
      let a := delay + s.slolos.cA
      let k := s.slolos.address
      let t := s.modSlolos fun y => { y with d := Nat.min 0xFFFF ((a + 62) / 125) }
      let u := if s.slolos.cutOff then
        (joined k t).sendUp (.control (.enumAnswer s.otp.dieId (bit s.otp.partWq + 2) k a)) else t
      exec (.enum b h next prev delay mode) s = .next (if s.slolos.portB ≠ .up then u.sendUp (.control (.enumEnd k false))
        else u.sendB (.control (.enum (if k = next then next + 1 else next) k (a + s.slolos.r) mode)))) ∧
    (s.sys.clk = .running → s.sys.held = false → h = .none → s.isWorker = true → b = false → s.slolos.address = 0 →
      ∃ k n, (k = 0 ∨ k = prev + 1) ∧ (63 ≤ prev ∨ 2 ≤ mode → k = 0) ∧ (prev < 63 → mode = 1 → k = prev + 1) ∧
        (prev < 63 → mode = 0 → prev + 1 = next → k = if next ≤ Nat.min 63 (s.time.length / 14) then next else 0) ∧
        let a := delay + s.slolos.cA
        let t : State := { s with freeCtr := n, slolos := { s.slolos with d := Nat.min 0xFFFF ((a + 62) / 125) } }
        let u : State := (if k = 0 then t else joined k t).sendUp
          (.control (.enumAnswer s.otp.dieId (bit s.otp.partWq + 2) k a))
        exec (.enum b h next prev delay mode) s = .next (if s.slolos.portB ≠ .up then u.sendUp (.control (.enumEnd k false))
          else u.sendB (.control (.enum (if k = next then next + 1 else next) (if k = 0 then prev else k) (a + s.slolos.r) mode)))) ∧
    (s.sys.clk = .running → s.sys.held = false → h = .none → s.isWorker = false →
      exec (.enum b h next prev delay mode) s = .next (
        if s.isManager = true ∧ s.slolos.enumActive = true ∧ b = false ∧ s.slolos.enumMode ≠ 3 then
          (s.modSlolos fun y => { y with enumMode := 3 }).sendA (.control (.enum next 0 0 3))
        else if s.isManager = true ∧ s.slolos.enumActive = true ∧ b = true ∧ s.slolos.enumMode = 3 then s.finishPass true prev
        else if b then s.sendB (.control (.enumEnd 0 true)) else s.sendA (.control (.enumEnd 0 true))))) ∧
  (∀ (s : State) (ring : Bool) (last : Nat), ∃ t, s.finishPass ring last = t ∧ t.slolos = { s.slolos with
      enumActive := false
      enumMode := 0
      verifyDue := false
      restoring := if ring = true ∧ s.slolos.topology = 3 ∧ s.slolos.restoring = none then some 2 else s.slolos.restoring
      ctxs := s.slolos.ctxs.map fun c => { c with
        joining := false
        viaA := c.viaA && !(ring && decide (s.slolos.topology = 3) && s.slolos.restoring.isNone) }
      breaks := if ring then [] else s.slolos.breaks.filter fun b => last ≤ b
      topology := if ring then 2 else if s.slolos.workers = 0 then 0
        else if 2 ≤ s.slolos.topology.toNat ∧ s.slolos.breaks ≠ [] then 3 else 1 } ∧
    t.sys = { s.sys with ready := s.sys.ready.putBit Block.slolos.index true } ∧
    t.conv = s.conv ∧ t.prot = s.prot ∧ t.path = s.path ∧ t.charge = s.charge ∧ t.time = s.time) ∧
  (∀ (h : Harm) (die : List Byte) (pr a delay : Nat) (s : State), exec (.enumAnswer h die pr a delay) s = .next (
    if s.isWorker then (if acts s then relay h (.enumAnswer die pr a delay) s else s)
    else if acts s = false then s
    else if h ≠ .none then bad h s
    else if s.slolos.enumActive = false then s
    else if s.slolos.enumMode = 3 then
      s.modSlolos fun y => y.modCtx a fun c => { c with dRev := Nat.min 0xFFFF ((delay + 62) / 125) }
    else
      let late : Nat → State → State := fun k t => if t.slolos.capped then t else
        { t with slolos := { t.slolos with capped := true }, time := { t.time with overruns := t.time.overruns ++ [{ epoch := t.time.epoch, cause := 4, address := k }] } }
      if a = 0 then
        let t := s.chainEvent 7 0 0 0 die
        if 63 ≤ s.slolos.workers then t.chainEvent 9 0 0 0 die
        else if s.enumCap ≤ s.slolos.workers then late (s.slolos.workers + 1) t else t
      else if 64 ≤ a then s
      else if s.enumCap < a then late a (s.modSlolos fun y => y.modCtx a fun c => { c with state := .refused, dieId := die })
      else if (s.slolos.ctx a).assigned = true ∧ (s.slolos.ctx a).dieId ≠ die then s.chainEvent 7 0 0 0 die
      else
        let t := s.modSlolos fun y =>
          let z := y.modCtx a fun c => { Ctx.absent with
            state := .enumerated, joining := true, wq := pr % 2 = 1, dieId := die, d := Nat.min 0xFFFF ((delay + 62) / 125), dRev := c.dRev }
          { z with workers := z.highest }
        if (s.slolos.ctx a).assigned then t.chainEvent 4 a 0 0 die else t)) ∧
  (∀ (h : Harm) (a : Nat) (conflict : Bool) (s : State), exec (.enumEnd h a conflict) s = .next (
    if s.isWorker then (if acts s then relay h (.enumEnd a conflict) s else s)
    else if acts s = false then s
    else if h ≠ .none then bad h s
    else if s.slolos.enumActive = false then s
    else (if conflict then s.chainEvent 8 a 0 0 [] else s).finishPass false a)) ∧
  (∀ s : State, exec .enumNoWorkerTimeout s = .next (
    if acts s = true ∧ s.isManager = true ∧ s.isReady .slolos = false ∧ s.slolos.portB ≠ .up then
      let t := s.setReady .slolos true
      if s.slolos.verifyDue then (if 2 ≤ s.slolos.topology.toNat then (t.sendB .wakeBurst).sendA .wakeBurst else t.sendB .wakeBurst)
      else t.chainEvent 1 0 0 0 []
    else s)) ∧
  (∀ s : State, exec .appendRetry s = .next (
    if acts s = true ∧ s.isManager = true ∧ s.isReady .slolos = true ∧ s.slolos.workers = 0 ∧ s.slolos.portB = .up ∧
      s.slolos.enumActive = false then pass s else s)) ∧
  (∀ (h : Harm) (s : State), exec (.join h) s = .next (
    if acts s = false then s
    else if s.isWorker then relay h .join s
    else if h ≠ .none then bad h s
    else if s.slolos.autoAppend then s.modSlolos fun y => { y with joinSeen := true } else s)) ∧
  (∀ s : State, exec .joinTimer s = .next (
    if acts s = true ∧ s.isWorker = true ∧ (s.slolos.address = 0 ∨ s.slolos.cutOff = true) ∧ s.slolos.facing ≠ 0 ∧
      (s.slolos.marker.isSome = true ∨ s.slolos.skipped = 0) then s.sendUp (.control .join) else s)) ∧
  (∀ (h : Harm) (s : State), exec (.unassign h) s = .next (
    if s.isWorker = false ∨ s.sys.clk ≠ .running then s
    else
      let t := s.repeatDown (if h = .cut then .abort else .control .unassign)
      if s.sys.held then t
      else if h ≠ .none then bad h t
      else t.cutOffNow.modSlolos fun y => { y with address := 0, firstAllot := false, age := 0 })) ∧
  (∀ (h : Harm) (mask : Nat) (s : State), exec (.resetFrame h mask) s = .next (
    if s.isWorker = false ∨ s.sys.clk ≠ .running then s
    else
      let t := s.repeatDown (if h = .cut then .abort else .control (.reset (BitVec.ofNat 64 mask)))
      if h ≠ .none then (if s.sys.held then t else bad h t)
      else if s.slolos.address ≠ 0 ∧ mask.testBit s.slolos.address = true then t.trigger causeChain else t))

/-- Markers, telemetry and allotments. Each frame is relayed before the die acts on it, and a damaged one is counted and otherwise
ignored; markers rest until a verify pass is complete, and a late marker of a missed boundary is discarded. A missed marker skips the boundary, answers TARGET_TIMEOUT to what waited for it and cuts the worker off at the second in a
row. The sum starts when every active worker's frame is in, or at its deadline; the allotment follows once. A worker takes its entry,
its BZ4 bit and the link target from the frame of the next epoch; without one the miss is counted and reported. -/
def Obligations.ChainEpoch : Prop :=
  let ports : State → Bool := fun s => !s.isStandalone && decide (s.sys.clk = .running)
  let acts : State → Bool := fun s => ports s && !s.sys.held
  let bad : Harm → State → State := fun h t => t.modSlolos fun y =>
    { y with errCrc := satAdd 255 y.errCrc 1, errCode := satAdd 255 y.errCode (match h with | .code n => n | _ => 0) }
  let frame : State → Bool → ChainFrame := fun s a => .marker (withCrc16 (le 4 ((s.time.epoch + 1) % 2 ^ 32) ++ le 2 s.nextLength
    ++ le 1 s.slolos.workers ++ le 1 (bit (2 ≤ s.slolos.topology.toNat) + 2 * bit a)))
  (∀ s : State, exec .markerSend s = .next (
    if acts s = true ∧ s.isManager = true ∧ s.isReady .slolos = true ∧ s.slolos.verifyDue = false then
      let both := (s.slolos.bothPorts || s.slolos.bridging) && decide (s.slolos.restoring ≠ some 1)
      let t := (s.modSlolos fun y => { y with
        restoring := if y.restoring = some 1 then none else y.restoring.map (· - 1)
        bothPorts := both
        bridging := false }).sendB (frame s false)
      if both then t.sendA (frame s true) else t
    else s)) ∧
  (∀ (b : Bool) (m : List Byte) (h : Harm) (s : State), exec (.marker b ⟨m, h⟩) s = .next (
    let good := crc16Good m && m.length == 10 && h == .none
    if ports s = false then s
    else if s.isWorker then
      let f : ChainFrame := if h = .cut then .abort else .marker m
      let t := if b then s.sendA f else s.sendB f
      if s.sys.held then t
      else if good = false then bad h t
      else if (fieldAt m 0 4 + 2 ^ 33 - s.time.epoch - 1) % 2 ^ 32 < s.slolos.skipped then bad .none t
      else if (s.slolos.marker.map (·.1)) = some (fieldAt m 0 4) ∧ b = true then t
      else t.modSlolos fun y => { y with
        marker := some (fieldAt m 0 4, fieldAt m 4 2)
        workers := byteAt m 6 % 64
        topology := if bitAt m 7 0 then (if bitAt m 7 1 then 3 else 2) else 1
        facing := if b then 2 else 1 }
    else if s.sys.held then s
    else if good = false then bad h s
    else if b = false ∧ bitAt m 7 1 = false ∧ s.slolos.topology = 3 ∧ s.slolos.restoring = none then
      (s.modSlolos fun y => { y with
        topology := 2, breaks := [], restoring := some 2
        ctxs := y.ctxs.map fun c => { c with viaA := false } }).chainEvent 6 0 0 0 []
    else s)) ∧
  (∀ s : State, exec .markerMissed s = .next (
    if acts s = true ∧ s.isWorker = true ∧ s.slolos.facing ≠ 0 ∧ s.slolos.marker = none then
      let n := s.slolos.skipped + 1
      let e := (s.time.epoch + n) % 2 ^ 32
      let t := s.endWaiting (fun f => f.epoch == e) stTargetTimeout
      let u := { t with
        time := { t.time with wordNow := t.time.wordNow ||| 0x04 }
        slolos := { t.slolos with skipped := n, heldEntry := none, allotReady := false }
        meas := t.meas.startTables e s.time.length 0 }
      if n = 2 then u.cutOffNow else u.cutOffBz4
    else s)) ∧
  (∀ s : State, exec .telemetrySlot s = .next (
    if acts s = true ∧ s.isWorker = true ∧ s.slolos.address ≠ 0 ∧ 2 ≤ s.slolos.age ∧ s.slolos.skipped = 0 then
      (s.sendUp (.telemetry s.telemetry)).modSlolos fun y => { y with missedFlag := false } else s)) ∧
  (∀ (a : Nat) (m : List Byte) (h : Harm) (s : State), exec (.telemetryFrame a ⟨m, h⟩) s = .next (
    if ports s = false then s
    else if s.isWorker then
      let t := s.sendUp (if h = .cut then .abort else .telemetry m)
      if s.sys.held = false ∧ h ≠ .none then bad h t else t
    else if s.sys.held = true ∨ s.slolos.sumBegun = true then s
    else if h ≠ .none ∨ m.length ≠ 112 ∨ fieldAt m 110 2 ≠ telCrc a ((s.time.epoch + 2 ^ 32 - 1) % 2 ^ 32) (m.take 110) then bad h s
    else if (s.slolos.ctx a).state ≠ .active then s
    else
      let t := s.modSlolos fun y => y.modCtx a fun c => { c with arrived := some m }
      if ∀ k ∈ t.slolos.actives, (t.slolos.ctx k).arrived.isSome = true then t.beginSum else t)) ∧
  (∀ s : State, exec .sumDeadline s = .next (
    if acts s = true ∧ s.isManager = true ∧ s.slolos.sumBegun = false then s.beginSum else s)) ∧
  (∀ s : State, exec .allotmentComputed s = .next (
    if s.isWorker = false ∧ s.sys.held = false ∧ s.sys.clk = .running ∧ s.eupefen = true ∧ s.geode.stalled = false ∧
        s.slolos.allotReady = false then
      let t := if s.isManager = true ∧ s.slolos.sumBegun = false then s.beginSum else s
      let u := t.sumEcho.computeAllotment.modSlolos fun y => { y with allotReady := true }
      if s.isManager = true ∧ s.isReady .slolos = true then u.allotmentFrame else u
    else s)) ∧
  (∀ (m : List Byte) (h : Harm) (s : State), exec (.allotmentFrame ⟨m, h⟩) s = .next (
    if s.isWorker = false ∨ s.sys.clk ≠ .running then s
    else
      let t := s.repeatDown (if h = .cut then .abort else .allotment m)
      let k := s.slolos.address
      if s.sys.held then t
      else if h ≠ .none ∨ crc32Good m = false then bad h t
      else if k ≠ 0 ∧ s.slolos.age ≠ 0 ∧ 20 + 8 * k ≤ m.length ∧ fieldAt m 0 4 = (s.time.epoch + 1) % 2 ^ 32 ∧ s.slolos.allotReady = false then
        t.modSlolos fun y =>
          { y with heldEntry := some (slice m (16 + 8 * (k - 1)) 8, (fieldAt m 4 8).testBit k, fieldAt m 12 4) }
      else t)) ∧
  (∀ s : State, exec .allotmentMissed s = .next (
    if acts s = true ∧ s.isWorker = true ∧ s.slolos.address ≠ 0 ∧ s.slolos.age ≠ 0 ∧ s.slolos.heldEntry = none ∧ s.slolos.allotReady = false then
      { s with
        slolos := { s.slolos with allotReady := true, missedFlag := true, misses := s.slolos.misses + 1 }
        time := { s.time with overruns := s.time.overruns ++
          [{ epoch := (s.time.epoch + 1) % 2 ^ 32, cause := 1, address := s.slolos.address }] } }
    else s))

/-! ### Frames, fast protection and the Bezel: what happens on its own (08, 09, 11) -/

/-- A lane's frame and its turn-ons. A frame start acts only in a running mode: a lane whose last leg leaves goes OFF once the pulses in
progress are complete; on any other the changes that wait apply and the turn-ons of the frame are due. A lane that awaits its first
outputs starts from them, a reversal rests one frame and resumes in the new function, a sleeping lane sleeps until it is woken, a burst
counts its frames, and any other frame is computed; a lane whose function changed meets the crossings that still lie beyond their
thresholds; the 65th limited frame in a row below half the target is a short. A leg that is due turns on in its slot with the duty
latched there, omitting a pulse below the minimum and blocked by a limit still crossed; its low side turns off a dead time before its next
turn-on, and the slots before it have passed. An output is the clipped sinc3 code, the first three discarded, and a voltage output is
checked on every lane. The brake ends in REGULATE with its hold-off. -/
def Obligations.FrameEvents : Prop :=
  (∀ (k : Nat) (s : State), 4 ≤ k → exec (.frameStart k) s = .next s) ∧
  (∀ (k : Nat) (s : State), k < 4 → ∃ cc : Bool,
    let l := s.lane k
    let t := s.openFrame k
    let m := (t.lane k).legs
    (l.strand = 0xFF → cc = false) ∧
    (l.strand ≠ 0xFF → s.isWorker = false → (cc = true ↔ (s.strand l.strand).mach.phase = .cc)) ∧
    (s.isWorker = true → l.fieldCode ≠ 2 → cc = false) ∧
    let u : State :=
      if s.isReady .conv = false ∨ l.mode.running = false then s
      else if l.newLegs = some 0 then ((s.endPulses l.legs).modLane k fun l => { l with legs := 0, newLegs := none }).setMode k .off
      else if (t.lane k).awaitDecim then
        match t.inputsReady k, t.startVolts k with
        | true, some v => (t.modLane k fun l => l.ramp v).runFrame k cc
        | _, _ => t.clearMeans m
      else match (t.lane k).reversal with
        | some r => if r.resting then (if ((t.resume k r.fn).lane k).mode.running then (t.resume k r.fn).runFrame k cc else t.resume k r.fn)
          else (t.rest k r).clearMeans m
        | none =>
          if (t.lane k).sleeping then
            (if (t.lane k).wakeRegulate then ((t.setMode k .regulate).modLane k fun l =>
              { l with sleeping := false, wake := false, wakeRegulate := false, lowFrames := 0 }).runFrame k cc
            else if (t.lane k).wake then (t.modLane k fun l =>
              { l with
                sleeping := false, wake := false, burstLeft := l.burstLength - 1
                ep := { l.ep with bursts := satAdd 255 l.ep.bursts 1 } }).runFrame k cc
            else t.clearMeans m)
          else if (t.lane k).mode = .burst then
            (if (t.lane k).burstLeft = 0 then t.burstEnd k cc
            else (t.modLane k fun l => { l with burstLeft := l.burstLeft - 1 }).runFrame k cc)
          else t.runFrame k cc
    exec (.frameStart k) s = .next (if (u.lane k).fn = l.fn then u else u.recheck k)) ∧
  (∀ (s : State) (k : Nat), s.recheck k = (List.range 16).foldl (fun t n =>
    let acts : State → BitVec 16 → Nat → Bool := fun t crossed act =>
      crossed.getLsbD n && t.prot.cmpRole n ≠ 0 && t.cmpTarget n == some k && (t.lane k).mode.running && t.isReady .prot
        && t.isReady .conv && (act == 2 || (act == 3 && (t.prot.cmpRole n == 3) == ((t.lane k).fn == .boost)))
    let u := if acts t t.prot.cmpUp (t.prot.cmpUpAct n) then t.cross n true else t
    if acts u u.prot.cmpLo (u.prot.cmpLoAct n) then u.cross n false else u) s) ∧
  (∀ (s : State) (k : Nat) (cc : Bool),
    let x := s.sample k
    let l := s.lane k
    65 ≤ (if l.limitAct = true ∧ 2 * l.rt < x.target then l.shortCount + 1 else 0) →
      s.runFrame k cc = ((s.clearMeans l.legs).recordProt 3 (some k) none 0).hiccup k true) ∧
  (∀ (l : Lane) (n : Nat),
    let rank := (l.legs.members.filter (· < n)).length
    l.slot n = (rank + (l.count - l.rotFirst)) % Nat.max 1 l.count ∧
    l.slotOffset (l.slot n) = l.slot n * l.period / Nat.max 1 l.count ∧
    (l.fires n = true ↔ l.legs.getLsbD n = true ∧ ¬(l.stepping = true ∧ l.slot n = 0)) ∧
    l.turnOnIn n = (if l.fires n then l.slotOffset (l.slot n) else l.period + l.extra)) ∧
  (∀ (s : State) (k n : Nat),
    let old := s.lane k
    let l := (s.openFrame k).lane k
    let t := s.endPulses (old.legs &&& ~~~(old.newLegs.getD old.legs))
    n < t.conv.legs.length → k < s.conv.lanes.length → (s.openFrame k).conv.leg n = if l.legs.getLsbD n then { t.conv.leg n with
      due := l.fires n
      lowOffAt := if (t.conv.leg n).drive = .pulses then (t.conv.leg n).left + l.turnOnIn n - l.prof 0x08 2 else (t.conv.leg n).lowOffAt
      left := (t.conv.leg n).left + l.period + l.extra } else t.conv.leg n) ∧
  (∀ (n : Nat) (s : State), s.conv.laneOfLeg n = none → exec (.legTurnOn n) s = .next s) ∧
  (∀ (n k : Nat) (s : State), s.conv.laneOfLeg n = some k →
    let l := s.lane k
    exec (.legTurnOn n) s = .next (
      if s.isReady .conv = true ∧ l.mode.running = true ∧ l.sleeping = false ∧ l.awaitDecim = false ∧
          (l.reversal.any fun r => r.resting) = false ∧ (s.conv.leg n).due = true ∧ l.newLegs = none then
        let t : State := { s with conv := { s.conv with legs := (s.conv.legs.zipIdx).map fun y =>
          (if l.legs.getLsbD y.2 = true ∧ l.slot y.2 ≤ l.slot n then { y.1 with due := false } else y.1) } }
        if l.mode = .brake ∨ s.prot.held.getLsbD n = true then t else
        let offset := l.slotOffset (l.slot n)
        let code := if offset < 872 then (s.conv.leg n).prev else (s.conv.leg n).duty
        let left := l.period + l.extra - offset
        let up := s.prot.cmpUp.getLsbD n && s.prot.cmpRole n == 1 && s.prot.cmpUpAct n == 1
        let lo := s.prot.cmpLo.getLsbD n && s.prot.cmpRole n == 1 && s.prot.cmpLoAct n == 1
        let least := l.prof 0x10 2
        let skip : Bool := decide (code * l.period / 65536 < least)
        let next := left + l.frameChanges.turnOnIn n
        let on := if skip then 0 else code * l.period / 65536
        (t.modLegs (legBit n) fun g =>
          { g with
            drive := .pulses
            due := false
            left := left
            latched := code
            tOn := on
            highOmitted := skip || up
            lowOnAt := on + l.prof 0x0A 2
            lowOffAt := next - l.prof 0x08 2
            lowOmitted := lo || decide (next - l.prof 0x08 2 < on + l.prof 0x0A 2 + least) }).modLane k fun l =>
          { l with
            limitAct := l.limitAct || up || lo
            sticky := if skip then l.sticky ||| 4 else l.sticky
            ep := if skip then { l.ep with skipped := satAdd 255 l.ep.skipped 1 } else l.ep }
      else s)) ∧
  (∀ (m x : Nat) (s : State), exec (.decimatorOutput m x) s = .next (
    if s.isReady .conv = true ∧ s.conv.used m = true ∧ m < 20 then
      let v : Int := (Nat.min 65535 (65536 * x / s.conv.osr m ^ 3) : Nat) - 32768
      let t := { s with conv := { s.conv with decims := modAt s.conv.decims m fun d =>
        if d.seen < 3 then { d with seen := d.seen + 1 }
        else { d with seen := 4, newest := some v, sum := d.sum + v, num := d.num + 1 } } }
      if 16 ≤ m ∧ 3 ≤ (s.conv.decim m).seen then
        (((t.voltageChecks m v 0).voltageChecks m v 1).voltageChecks m v 2).voltageChecks m v 3
      else t
    else s)) ∧
  (∀ (k : Nat) (s : State), exec (.brakeEnd k) s = .next (if (s.lane k).mode = .brake then
    (s.setMode k .regulate).modLane k fun l => { l with brakeHold := l.prof 0x3E 2 } else s))

/-- Fast protection. A comparator acts while PROT and CONV are ready and its role is on, and a crossing that reverses within 5 ns acts
whole or not at all: LIMIT omits the switch that drives the current further, TRIP records its class and takes the lane to HICCUP, the
over-voltage action follows on the target lane, and in CROWBAR the lower threshold of a leg withdraws it once unblanked. The crowbar
closes on open feedback, or after its time with class 8. A driver fault acts on a low DFLT input. A worker sets its bit
in a fault frame that passes and cancels its own if that has not begun, or absorbs the frame where its own has been sent; the manager
updates its live view. -/
def Obligations.ProtectionEvents : Prop :=
  (∀ (n : Nat) (up beyond brief : Bool) (s : State), ∃ f : Bool, exec (.comparatorCrossing n up beyond brief) s = .next (
    if s.prot.cmpRole n ≠ 0 ∧ n < 16 then
      let t := s.modProt fun p =>
        if up then { p with cmpUp := p.cmpUp.putBit n (beyond && !brief) } else { p with cmpLo := p.cmpLo.putBit n (beyond && !brief) }
      if beyond = false ∨ ¬(s.isReady .prot = true ∧ s.isReady .conv = true) then t
      else if brief then (if f then ({ t with freeCtr := t.freeCtr + 1 } : State).cross n up else { t with freeCtr := t.freeCtr + 1 })
      else t.cross n up
    else s)) ∧
  (∀ (n : Nat) (s : State), s.prot.cmpRole n = 1 → s.prot.cmpUpAct n = 1 → ∀ k, s.conv.laneOfLeg n = some k →
    s.cross n true = if (s.lane k).mode.running then
      (s.modLegs (legBit n) fun g => { g with highOmitted := true }).modLane k fun l => { l with limitAct := true } else s) ∧
  (∀ (n : Nat) (s : State), s.prot.cmpRole n = 1 → s.prot.cmpUpAct n = 2 → ∀ k, s.conv.laneOfLeg n = some k →
    s.cross n true = (s.recordProt 2 (some k) (some n) (legBit n)).hiccup k true) ∧
  (∀ (n : Nat) (s : State), 2 ≤ s.prot.cmpRole n → s.prot.cmpUpAct n = 3 → s.prot.cmpLane n < 4 →
    s.cross n true = s.overVoltage (s.prot.cmpLane n) (.comparator n) (s.prot.cmpRole n == 3) (some n)) ∧
  (∀ (n k : Nat) (c : Crowbar) (s : State), s.prot.cmpRole n = 1 → s.conv.laneOfLeg n = some k → (s.lane k).mode = .crowbar →
    getAt s.prot.crowbars k none = some c →
    s.cross n false = if c.blanked = true ∨ s.prot.held.getLsbD n = true then s else s.divert k n) ∧
  (∀ (k : Nat) (s : State), (getAt s.prot.crowbars k none = none ∨ (s.lane k).mode ≠ .crowbar) →
    exec (.crowbarBlankEnd k) s = .next s ∧ exec (.crowbarClose k) s = .next s ∧ exec (.crowbarTimeout k) s = .next s) ∧
  (∀ (k : Nat) (c : Crowbar) (s : State), getAt s.prot.crowbars k none = some c → (s.lane k).mode = .crowbar →
    exec (.crowbarBlankEnd k) s = .next (
      (((s.lane k).legs &&& s.prot.cmpLo &&& ~~~s.prot.held).members.filter fun n => s.prot.cmpRole n == 1).foldl
        (fun t n => t.divert k n)
        { s with prot := { s.prot with crowbars := setAt s.prot.crowbars k (some { c with blanked := false }) } }) ∧
    exec (.crowbarClose k) s = .next (if c.waiting then
      (((s.modChan 4 fun b => { b with fb := false, openSeen := true }).modProt fun p =>
        { p with crowbars := setAt p.crowbars k (some { c with waiting := false }) }).lowSidesOn k) else s) ∧
    exec (.crowbarTimeout k) s = .next (if c.waiting then
      ((s.modProt fun p => { p with crowbars := setAt p.crowbars k (some { c with waiting := false }) }).lowSidesOn k).recordProt 8
        (some k) none 0 else s)) ∧
  (∀ (n : Nat) (high : Bool) (s : State), exec (.dfltInputChange n high) s = .next { s with prot := { s.prot with
    dfltRaw := s.prot.dfltRaw.putBit n (!high)
    dfltLow := if high then s.prot.dfltLow.putBit n false else s.prot.dfltLow } }) ∧
  (∀ (n : Nat) (s : State), exec (.driverFault n) s = .next (
    if s.isReady .conv = true ∧ s.isReady .prot = true ∧ n < 16 ∧ s.prot.dfltRaw.getLsbD n = true then
      (({ s with prot := { s.prot with held := s.prot.held.putBit n true, dfltLow := s.prot.dfltLow.putBit n true } } : State).modLegs
        (legBit n) fun g => { g with drive := .low, lowHeldOff := false }).recordProt 1 (s.conv.laneOfLeg n) none (legBit n)
    else s)) ∧
  (∀ (b : Bool) (m : List Byte) (h : Harm) (s : State),
    let cls := byteAt m 0
    let e := fieldAt m 1 4
    let bits := BitVec.ofNat 64 (fieldAt m 5 8)
    let good := crc16Good m && m.length == 15 && h == .none
    let waits := faultWaits s.slolos.txA s.slolos.spentA cls e || faultWaits s.slolos.txB s.slolos.spentB cls e
    let send : ChainFrame → State → State := fun f t => if b then t.sendA f else t.sendB f
    let t := if good then s else s.modSlolos fun y => { y with
      errCrc := satAdd 255 y.errCrc 1, errCode := satAdd 255 y.errCode (match h with | .code n => n | _ => 0) }
    exec (.faultFrame b ⟨m, h⟩) s = .next (
      if s.isStandalone = true ∨ s.sys.clk ≠ .running then s
      else if s.sys.held then (if s.isWorker then send (if h = .cut then .abort else .fault m) s else s)
      else if s.isManager then
        if good = true ∧ (s.time.epoch + (2 ^ 32 - e)) % 2 ^ 32 ≤ 1 then
          t.modProt fun p => { p with echo := modAt p.echo (cls - 1) fun x =>
            if x.opened then { x with live := x.live ||| bits } else { x with opened := true, first := e, last := e, live := x.live ||| bits } }
        else t
      else if h = .cut then send .abort t
      else if (cls, e) ∈ s.prot.sent ∧ waits = false then send .abort t
      else
        let mine := s.slolos.address ≠ 0 ∧ ∃ r ∈ s.prot.reports, r.cls = cls ∧ r.epoch = e
        let out := bits.putBit s.slolos.address (decide mine || bits.getLsbD s.slolos.address)
        let body := le 1 cls ++ le 4 e ++ le 8 out.toNat
        let u := t.modSlolos fun y => { y with txA := dropFault y.txA y.spentA cls e, txB := dropFault y.txB y.spentB cls e }
        (send (.fault (body ++ le 2 (if good then crc16 body else crc16 body ^^^ 0xFFFF))) u).modProt fun p =>
          { p with sent := if p.sent.contains (cls, e) then p.sent else p.sent ++ [(cls, e)] }))

/-- The Bezel. A comparator acts only while it is armed: a crossing that outlasts its filter (or, log 95, meets another trip of its channel) is recorded under its class and
opens the channel, TRIPPED or, with the retries used up, LOCKOUT; BZ4 takes its lanes along. Qualified feedback confirms closing and
opening, and one that contradicts the state, or a close or open time that passes without it, is a feedback fault. A closed channel
without an accepted sample trips on the slow level, and one that stays closed for its time has its retries returned. -/
def Obligations.BezelEvents : Prop :=
  let armed : State → Nat → Nat → Option Nat := fun s k kind =>
    let c := s.chan k
    if c.state = .disabled ∨ s.isReady .bezel = false then none
    else match kind with
      | 0 => if c.state.driven = true ∨ c.state = .tripped ∨ c.state = .lockout then some 0x10 else none
      | 1 => if c.state.driven = true ∨ c.state = .tripped ∨ c.state = .lockout then some (if s.exporting k then 0x10 else 0x13)
        else none
      | _ => if c.prof 4 2 ≠ 0 then some 0x12 else none
  let inForce : State → Nat → Nat → Nat := fun s k kind =>
    let c := s.chan k
    match kind with
    | 0 => c.prof 6 2
    | 1 => if s.exporting k then c.prof 0x0A 2 else c.prof 8 2
    | _ => c.prof 4 2
  let record : Nat → Nat → Nat → Bool → State → State := fun k cls code none_ t =>
    (t.modChan k fun c => { c with trips := c.trips.putBit (cls - 0x10) true }).recordClass cls (legBit k) 0 0x08
      (le 1 k ++ le 1 (t.chan k).state.code ++ le 2 code ++ le 1 (t.chan k).retries ++ le 1 (bit none_))
  let open_ : Nat → Nat → State → State := fun k cls t =>
    let c := t.chan k
    let full := decide (c.prof 0x26 1 ≤ c.retries)
    let u := t.setChan k (if full then .lockout else .tripped) cls
    let v := if k = 4 ∧ c.state.driven = true then u.bz4LanesTrip none else u
    if full then v.tieLocked k else v
  let trip : Nat → Nat → Nat → Bool → State → State := fun k cls code none_ t =>
    if (t.chan k).state = .disabled then t
    else if (t.chan k).state.driven = true ∨ ((t.chan k).state = .opening ∧ cls = 0x12) then open_ k cls (record k cls code none_ t)
    else record k cls code none_ t
  (∀ (n : Nat) (crossed : Bool) (s : State), exec (.bezelComparatorCrossing n crossed) s = .next (
    s.modChan (n / 3) fun c =>
      { c with
        ocPending := if n % 3 = 0 then crossed else c.ocPending
        revPending := if n % 3 = 1 then crossed else c.revPending
        ovPending := if n % 3 = 2 then crossed else c.ovPending })) ∧
  (∀ (n : Nat) (s : State),
    let c := s.chan (n / 3)
    let crossed := if n % 3 = 0 then c.ocPending else if n % 3 = 1 then c.revPending else c.ovPending
    (armed s (n / 3) (n % 3) = none ∨ crossed = false → exec (.bezelTrip n) s = .next s) ∧
    (∀ cls, armed s (n / 3) (n % 3) = some cls → crossed = true → exec (.bezelTrip n) s = .next (trip (n / 3) cls (inForce s (n / 3) (n % 3)) false s))) ∧
  (∀ (k : Nat) (s : State), exec (.slowOcNoSample k) s = .next (
    if (s.chan k).state = .closed ∧ (s.chan k).prof 0x1C 4 ≠ 0 ∧ (s.chan k).prof 2 1 ≠ 0xFF then trip k 0x11 0 true s else s)) ∧
  (∀ (k : Nat) (closed : Bool) (s : State), exec (.bzFbChange k closed) s = .next (
    if k < 6 then s.modChan k fun c => { c with fb := closed } else s)) ∧
  (∀ (k : Nat) (s : State), exec (.bzFbQualified k) s = .next (
    if s.isReady .bezel = true ∧ s.drives k = true then
      match (s.chan k).state, (s.chan k).fb with
      | .closing, true => (s.setChan k .closed 0).tieClosed k
      | .closed, false => open_ k 0x14 (record k 0x14 0 false s)
      | .opening, false => ((s.setChan k .opened 0).modChan k fun c => { c with openSeen := true }).tieOpened k
      | .tripped, false => (s.modChan k fun c => { c with openSeen := true }).tieOpened k
      | .opened, true => (((record k 0x14 0 false s).setChan k .lockout 0x14).modChan k fun c => { c with welded := true }).tieLocked k
      | _, _ => s
    else s)) ∧
  (∀ (k : Nat) (s : State), exec (.bzCloseTimeout k) s = .next (
    if (s.chan k).state = .closing ∧ s.isReady .bezel = true then
      let t := (record k 0x14 0 false s).setChan k .lockout 0x14
      (if k = 4 then t.bz4LanesTrip none else t).tieLocked k
    else s)) ∧
  (∀ (k : Nat) (s : State), exec (.bzOpenTimeout k) s = .next (
    if ((s.chan k).state = .opening ∨ (s.chan k).state = .tripped) ∧ (s.chan k).openSeen = false ∧ s.isReady .bezel = true then
      (((record k 0x14 0 false s).setChan k .lockout 0x14).modChan k fun c => { c with welded := true }).tieLocked k
    else s)) ∧
  (∀ (k : Nat) (s : State), exec (.bzRetryReset k) s = .next (
    if (s.chan k).state = .closed then s.modChan k fun c => { c with retries := 0 } else s))

/-! ### The Pendant link and the Clasp couplers (12, 14) -/

/-- Pendant frames and transitions. A frame with a wrong START, type or CRC is answered NAK; a SETPOINT is refused with REJ in OFF mode
or without limits, above the slew limit, or outside the voltage limits, and else stored with ACK: it starts a transition where the
link is the lanes' (BUS: where a lane of the mask runs), ending one in progress as superseded and going on from its reference. STATUS
releases the alert and reports the ending that asserted it, a transition in progress or the line held by a source, or the last ending.
Answers wait in order, and the first lasts from its readiness until it is read or 100 us pass. A slew moves 5 x 2^s mV per microsecond
and settles at the target; it is done within the band, or not settled. A NAK's STATUS bits are open, and so is the rounding of the
measured voltage that a slew starts from (logs 36, 115). -/
def Obligations.PendantEvents : Prop :=
  let on : State → Bool := fun s => s.isReady .pendant && (decide (s.sys.power = .run) || decide (s.sys.power = .leaving)) && !s.otp.partWq && !s.isWorker
  let put : Nat → Nat → Nat → State → State := fun kind seq status t => t.modPendant fun p =>
    { p with
      answers := p.answers ++ [(kind * 64 + seq * 4 + status) * 256 + crc8 [kind * 64 + seq * 4 + status]]
      naks := if kind = 2 then satAdd 255 p.naks 1 else p.naks
      rejs := if kind = 3 then satAdd 255 p.rejs 1 else p.rejs }
  let ended : Nat → Nat → State → State := fun how reason t =>
    if t.pendant.phase = .idle then t
    else (t.dueEvent 0x7F70 0 (le 1 t.pendant.seqNo ++ le 1 how ++ le 1 reason ++ zeros 1 ++ le 4 t.pendant.target ++ le 4 t.time.epoch
      ++ le 4 t.time.tick)).modPendant fun p =>
      { p with
        phase := .idle
        lastEnd := how
        alert := p.alert || decide (how ≠ 2)
        alertEnd := if how = 2 then p.alertEnd else how
        superseded := if how = 2 then satAdd 255 p.superseded 1 else p.superseded }
  let good : Nat → Prop := fun w => w / 2 ^ 29 % 8 = 5 ∧ w / 2 ^ 27 % 4 ≤ 1 ∧
    crc8 [w / 2 ^ 24 % 256, w / 2 ^ 16 % 256, w / 2 ^ 8 % 256] = w % 256
  (∀ (w : Nat) (s : State), exec (.pendantStatusFrame w) s = exec (.pendantSetpointFrame w) s ∧
    exec (.pendantSetpointFrame (w % 2 ^ 32)) s = exec (.pendantSetpointFrame w) s) ∧
  (∀ (w : Nat) (s : State), on s = false → exec (.pendantSetpointFrame w) s = .next s) ∧
  (∀ (w : Nat) (s : State), on s = true → w < 2 ^ 32 → ¬good w →
    ∃ status, status < 4 ∧ exec (.pendantSetpointFrame w) s = .next (put 2 0 status s)) ∧
  (∀ (w : Nat) (s : State), on s = true → w < 2 ^ 32 → good w → w / 2 ^ 27 % 4 = 1 →
    let t := s.modPendant fun p => { p with alert := false }
    let seq := w / 2 ^ 8 % 16
    exec (.pendantSetpointFrame w) s = .next (
      if s.pendant.mode = 0 ∨ s.limits = none then put 3 seq 2 t
      else put 1 seq (
        let ending : Nat → Nat := fun e => if e = 1 then 2 else if e = 3 then 3 else 0
        if s.pendant.alert then ending s.pendant.alertEnd
        else if s.pendant.phase ≠ .idle ∨ (s.pendant.mode = 1 ∧ s.path.holder = .source) then 1 else ending s.pendant.lastEnd) t)) ∧
  (∀ (w : Nat) (s : State), on s = true → w < 2 ^ 32 → good w → w / 2 ^ 27 % 4 = 0 → s.pendant.mode = 0 ∨ s.limits = none →
    exec (.pendantSetpointFrame w) s = .next (put 3 (w / 2 ^ 8 % 16) 2 s)) ∧
  (∀ (w : Nat) (s : State) (b : List Byte), on s = true → w < 2 ^ 32 → good w → w / 2 ^ 27 % 4 = 0 → s.pendant.mode ≠ 0 →
    s.limits = some b →
    let seq := w / 2 ^ 8 % 16
    let slew := w / 2 ^ 24 % 8
    let mV := w / 2 ^ 12 % 4096 * certPendant b / 4095
    let outside := mV < certLinkMin b ∨ certLinkMax b < mV ∨
      (s.pendant.mode = 2 ∧ ∃ k, k < 4 ∧ s.pendant.mask.testBit k = true ∧ certVout b k < mV)
    let moves := if s.pendant.mode = 2 then s.busRuns = true else s.path.holder = .lanes
    (certSlew b < slew → exec (.pendantSetpointFrame w) s = .next (put 3 seq 1 s)) ∧
    (slew ≤ certSlew b → outside → exec (.pendantSetpointFrame w) s = .next (put 3 seq 0 s)) ∧
    (slew ≤ certSlew b → ¬outside → ¬moves → exec (.pendantSetpointFrame w) s = .next (
      put 1 seq (if s.pendant.mode = 1 ∧ s.path.holder = .source then 1 else 2)
        (s.modPendant fun p => { p with stored := true, target := mV, slew := slew, lastSeq := seq }))) ∧
    (slew ≤ certSlew b → ¬outside → moves → ∃ ref t, exec (.pendantSetpointFrame w) s = .next (put 1 seq 0 (t.modPendant fun p =>
        { p with
          stored := true, target := mV, slew := slew, rate := slew, ref := some ref, seqNo := seq, lastSeq := seq
          phase := if ref = mV then .settling else .slewing })) ∧
      (s.pendant.phase ≠ .idle → ref = s.pendant.ref.getD 0 ∧ t = ended 2 0 s) ∧
      (s.pendant.phase = .idle → t = s ∧ ∀ v, s.volts s.pendant.input = some v →
        0 ≤ v * (s.pendantScale : Int) → v * (s.pendantScale : Int) - 32768 < (ref : Int) * 32768 ∧
          (ref : Int) * 32768 < v * (s.pendantScale : Int) + 32768))) ∧
  (∀ s : State, exec .pendantGapDiscard s = .next (if on s then
    s.modPendant fun p => { p with discarded := satAdd 255 p.discarded 1 } else s)) ∧
  (∀ s : State, exec .pendantAnswerReady s = .next (if s.pendant.answers ≠ [] then
    s.modPendant fun p => { p with ready := true } else s)) ∧
  (∀ s : State,
    let t := if s.pendant.ready then s.modPendant fun p => { p with answers := p.answers.drop 1, ready := false } else s
    exec .pendantAnswerRead s = .next t ∧ exec .pendantAnswerTimeout s = .next t) ∧
  (∀ s : State, exec .pendantSlewStep s = .next (if s.pendant.phase = .slewing then
    s.modPendant fun p =>
      let d := 5 * 2 ^ p.rate
      let x := p.ref.getD 0
      let r := if x ≤ p.target then Nat.min p.target (x + d) else Nat.max p.target (x - d)
      { p with ref := some r, phase := if r = p.target then .settling else .slewing } else s)) ∧
  (∀ s : State, exec .pendantDone s = .next (
    if s.pendant.phase = .settling ∧ ∃ v, s.volts s.pendant.input = some v ∧
      (v * (s.pendantScale : Int) - (s.pendant.target : Int) * 32768).natAbs ≤ s.pendant.band * 32768 then ended 1 0 s else s)) ∧
  (∀ s : State, exec .pendantNotSettled s = .next (if s.pendant.phase = .settling then ended 3 1 s else s))

/-- A coupler's sense lines, line and timers. A band change is stored, and in ATTACH_WAIT the loss of the only MID ends the wait; MID held
on one line moves the port on through Table 14-4; DUAL ports toggle after 40 + (H mod 41) ms; a detach that no message announced is counted and, in TRANSITION, recorded as
CLASP_PULLED. Messages leave when the line is idle, the answer first; a collision and a missing answer resend, and the third resend in
vain makes the partner silent. A transition and a hold end at their timeouts, and recovery once the lines have been released. -/
def Obligations.ClaspEvents : Prop :=
  let on : State → Nat → Bool := fun s i => s.isReady .clasp && !s.otp.partWq && !s.isWorker && decide (i < 2)
  let tie : Nat → Nat := fun i => 2 + i
  let recover : Nat → Nat → State → State := fun i cause t =>
    let u := (t.portRecover i cause).modPort i fun p => { p with pref := p.prof 1 1 }
    if (u.chan (tie i)).fb = true ∨ (u.chan (tie i)).state.driven = true then u
    else u.modPort i fun p => { p with term := .opened, released := true }
  (∀ (i : Nat) (b : Bool) (n : Nat) (s : State), exec (.claspSenseChange i b n) s = .next (
    let band : Band := if n = 0 then .low else if n = 1 then .mid else .high
    let t := s.modPort i fun p => { p with bandA := if b then p.bandA else band, bandB := if b then band else p.bandB }
    if on s i = false then t
    else
      let p := t.port i
      if p.mode = .unattached then t.modPort i fun p => { p with conflict := p.bandA == .mid && p.bandB == .mid }
      else if p.mode = .attachWait ∧ ((s.port i).bandA = .mid ∨ (s.port i).bandB = .mid) ∧ p.bandA ≠ .mid ∧ p.bandB ≠ .mid then
        t.portRest i 0
      else t)) ∧
  (∀ (i : Nat) (s : State), exec (.claspAttachTimer i) s = .next (
    let p := s.port i
    let t := s.modPort i fun p => { p with endB := p.bandB == .mid }
    if on s i = true ∧ p.enabled = true ∧ ((p.bandA = .mid ∧ p.bandB ≠ .mid) ∨ (p.bandA ≠ .mid ∧ p.bandB = .mid)) then
      match p.mode with
      | .unattached => if p.endConflict then s else t.setPort i .attachWait 0
      | .attachWait =>
        match p.pref, p.term, p.spent with
        | 0, _, _ => t.attach i true
        | 1, _, _ => t.attach i false
        | 2, .source, _ => t.attach i true
        | 2, _, _ => (t.setPort i .trySource 0).modPort i fun p => { p with term := .source }
        | _, .sink, _ => t.attach i false
        | _, _, true => t.attach i true
        | _, _, false => (t.setPort i .tryWaitSink 0).modPort i fun p => { p with term := .sink, fromTry := false }
      | .trySource => t.attach i true
      | .tryWaitSink => t.attach i false
      | _ => s
    else s)) ∧
  (∀ (i : Nat) (s : State), exec (.claspToggle i) s = .next (
    if on s i = true ∧ (s.port i).enabled = true ∧ (s.port i).mode = .unattached ∧ 2 ≤ (s.port i).pref ∧
        (s.port i).halfAt + (40 + crc32c (s.otp.dieId ++ le 1 (4 + i)) % 41) * 1000 * Config.ticksPerUs ≤ s.time.sysTime then
      s.modPort i fun p => { p with term := if p.term = .source then .sink else .source, halfAt := s.time.sysTime } else s)) ∧
  (∀ (i : Nat) (s : State), exec (.claspTryTimeout i) s = .next (
    if on s i = false then s else match (s.port i).mode, (s.port i).fromTry with
    | .trySource, _ => (s.setPort i .tryWaitSink 0).modPort i fun p => { p with term := .sink, fromTry := true }
    | .tryWaitSink, true => s.portRest i 0
    | .tryWaitSink, false => (s.setPort i .attachWait 0).modPort i fun p => { p with term := .source, spent := true }
    | _, _ => s)) ∧
  (∀ (i : Nat) (s : State), exec (.claspDetachDetected i) s = .next (
    let p := s.port i
    if on s i = true ∧ p.mode.attached = true ∧ (if p.endB then p.bandB else p.bandA) ≠ .mid then
      let t := s.modClasp fun c => { c with pulled := satAdd 255 c.pulled 1 }
      let u := if p.mode = .transition then
          (t.recordClass 0x19 (legBit i) 0 0x0A (le 1 i ++ le 1 p.mode.code ++ le 1 (s.chan (tie i)).state.code ++ zeros 1
            ++ le 4 p.transEpoch)).tiePulled (tie i)
        else if (s.chan (tie i)).state.driven then t.setChan (tie i) .opening 0 else t
      recover i 1 (u.modPort i fun p => { p with out := none, queue := [] })
    else s)) ∧
  (∀ (i : Nat) (s : State), exec (.claspRecoveryEnd i) s = .next (
    if (s.port i).mode = .recovery ∧ (s.port i).released = true then s.portRest i 0 else s)) ∧
  (∀ (i : Nat) (s : State), exec (.claspBadMessage i) s = .next (
    if on s i then s.modClasp fun c => { c with badMsg := satAdd 255 c.badMsg 1 } else s)) ∧
  (∀ (i : Nat) (s : State), exec (.claspLineIdle i) s = .next (if on s i then
      (if (s.port i).capsDue then (s.sendCaps i true).modPort i fun p => { p with capsDue := false } else s).modPort i fun p =>
      if p.answerState = some .waiting then { p with answerState := some .sending }
      else { p with out := p.out.map fun o => if o.state = .waiting then { o with state := .sending } else o } else s)) ∧
  (∀ (i : Nat) (s : State), exec (.claspRetryIdle i) s = .next (if on s i then s.modPort i fun p =>
      if p.answerState = some .collided then { p with answerState := some .sending }
      else { p with out := p.out.map fun o => if o.state = .collided then { o with state := .sending } else o } else s)) ∧
  (∀ (i : Nat) (s : State), exec (.claspMessageSent i) s = .next (
    let p := s.port i
    if on s i = false then s
    else if p.answerState = some .sending then
      let t := s.modPort i fun p => { p with answerState := none, entersOnSend := false }
      match p.answered with
      | some a => if p.entersOnSend then t.enterTransition i (fieldAt a.payload 0 4) else t
      | none => t
    else match p.out with
      | some o => if o.state = .sending then s.modPort i fun p => { p with out := some { o with state := .sent } } else s
      | none => s)) ∧
  (∀ (i : Nat) (s : State), exec (.claspCollision i) s = .next (
    let p := s.port i
    if on s i = false then s
    else if p.answerState = some .sending then
      (s.modPort i fun p => { p with answerState := some .collided }).modClasp fun c => { c with collisions := satAdd 255 c.collisions 1 }
    else match p.out with
      | some o => if o.state = .sending then
          (s.modPort i fun p => { p with out := some { o with state := .collided } }).modClasp fun c =>
            { c with collisions := satAdd 255 c.collisions 1 } else s
      | none => s)) ∧
  (∀ (i : Nat) (s : State), (∀ o, (s.port i).out = some o → o.state ≠ .sent) ∨ on s i = false →
    exec (.claspAnswerTimeout i) s = .next s) ∧
  (∀ (i : Nat) (o : Outgoing) (s : State), (s.port i).out = some o → o.state = .sent → on s i = true →
    exec (.claspAnswerTimeout i) s = .next (
      if o.resends < 3 then
        (s.modPort i fun p => { p with out := some { o with state := .waiting, resends := o.resends + 1 } }).modClasp fun c =>
          { c with resends := satAdd 255 c.resends 1 }
      else
        let t := s.modPort i fun p => { p with out := none, queue := [], silent := true }
        if (s.port i).mode.attached = true ∧ (s.port i).mode ≠ .hold then t.portHold i 2 else t)) ∧
  (∀ (i : Nat) (s : State), exec (.claspTransitionTimeout i) s = .next (
    if on s i = true ∧ (s.port i).mode = .transition then
      ((s.portHold i 0).portSend i 7 (le 1 4)).modPort i fun p => { p with capsDue := p.exporter } else s)) ∧
  (∀ (i : Nat) (s : State), exec (.claspHoldTimeout i) s = .next (
    if on s i = true ∧ (s.port i).mode = .hold then
      if (s.port i).silent then recover i 2 s
      else recover i 0 ((s.modPort i fun p => { p with out := none, queue := [] }).portSend i 8 (le 1 2))
    else s)) ∧
  (∀ (i : Nat) (s : State), exec (.claspSwapDelay i) s = .next (
    if on s i = true ∧ (s.port i).swap = .supplying ∧ (s.port i).swapReady = 0 then
      (s.portSend i 5 (le 1 (s.chan (tie i)).state.code)).modPort i fun p => { p with swapReady := p.seqNo } else s))

/-- Clasp messages. They reach a port of a running block in an attached state or in recovery; one of a wrong length or without a
sequence number is counted; one from this port's own end is an end conflict, answered by DETACH; a repeat has its answer sent again.
CAPS, REQUEST, READY, SWAP_JS, HOLD and DETACH act and are answered by ACCEPT or by REJECT with the reason; ACCEPT and REJECT end the
message that they name. -/
def Obligations.ClaspMessages : Prop :=
  let on : State → Nat → Bool := fun s i => s.isReady .clasp && !s.otp.partWq && !s.isWorker && decide (i < 2)
  let heard : State → Nat → Bool := fun s i => on s i && ((s.port i).mode.attached || (s.port i).mode == .recovery)
  let bad : State → State := fun t => t.modClasp fun c => { c with badMsg := satAdd 255 c.badMsg 1 }
  let clash : State → Nat → State := fun s i =>
    ((((s.modPort i fun p => { p with out := none, queue := [] }).portSend i 8 (le 1 3)).recover i 3 none).modPort i fun p =>
      { p with endConflict := true })
  let row : Nat → Nat → Bool → Nat → Nat → List Byte → Instr := fun type i b q a p =>
    if type = 1 then .caps i b q a p else if type = 2 then .request i b q a p else if type = 3 then .accept i b q a p
    else if type = 4 then .reject i b q a p else if type = 5 then .ready i b q a p else if type = 6 then .swapJs i b q a p
    else if type = 7 then .hold i b q a p else .detach i b q a p
  let fits : Nat → Nat → Bool := fun type n =>
    if type = 1 then n == 18 else if type = 2 then n == 14 else if type = 3 then n == 0 || n == 4
    else if type = 6 then n == 0 else n == 1
  let answered : State → Nat → Nat → Nat → List Byte → Bool → State := fun t i q type b enters => t.modPort i fun p =>
    { p with
      seqNo := nextSeqNo p.seqNo
      answered := some { type := type, seqNo := nextSeqNo p.seqNo, answers := q, payload := b }
      answerState := some .waiting
      entersOnSend := enters }
  (∀ (type i q a : Nat) (b : Bool) (p : List Byte) (s : State), 1 ≤ type → type ≤ 8 → (type = 3 ∨ type = 4 ∨ a = 0) →
    (heard s i = false → exec (row type i b q a p) s = .next s) ∧
    (heard s i = true → (fits type p.length = false ∨ q = 0) → exec (row type i b q a p) s = .next (bad s)) ∧
    (heard s i = true → fits type p.length = true → q ≠ 0 → (s.port i).mode.attached = true → b = (s.port i).endB →
      exec (row type i b q a p) s = .next (clash s i))) ∧
  (∀ (type i q a : Nat) (b : Bool) (p : List Byte) (s : State), 1 ≤ type → type ≤ 8 → type ≠ 3 → type ≠ 4 → a ≠ 0 →
    exec (row type i b q a p) s = .next s) ∧
  (∀ (type i q : Nat) (b : Bool) (p : List Byte) (s : State), 1 ≤ type → type ≤ 8 → type ≠ 3 → type ≠ 4 → heard s i = true →
    fits type p.length = true → q ≠ 0 → ¬((s.port i).mode.attached = true ∧ b = (s.port i).endB) →
    let t := s.modPort i fun p => { p with silent := false }
    let port := t.port i
    (∀ m, port.answered = some m → m.answers = q →
      exec (row type i b q 0 p) s = .next (t.modPort i fun p => { p with answerState := some .waiting })) ∧
    ((∀ m, port.answered = some m → m.answers ≠ q) →
      (type ≠ 8 → port.mode.attached = false → exec (row type i b q 0 p) s = .next t) ∧
      (type = 1 → port.mode.attached = true → port.exporter = true →
        exec (row type i b q 0 p) s = .next (answered t i q 4 (le 1 4) false)) ∧
      (type = 1 → port.mode.attached = true → port.exporter = false →
        let u := (t.modPort i fun x => { x with caps := some p, capsSinceHold := x.mode == .hold }).heardSupply i (bitAt p 17 1)
        exec (row type i b q 0 p) s = .next (
          if port.acceptsCaps p then answered (u.sendRequest i) i q 3 [] false else answered u i q 4 (le 1 1) false)) ∧
      (type = 2 → port.mode.attached = true →
        exec (row type i b q 0 p) s = .next (
          if port.exporter = false then answered t i q 4 (le 1 4) false
          else if port.mode = .transition ∨ port.holdOut = true then answered t i q 4 (le 1 3) false
          else match t.exportOffer i with
            | none => answered t i q 4 (le 1 4) false
            | some o =>
              if Nat.min (fieldAt p 0 4) o.2.2 = 0 then answered t i q 4 (le 1 2) false
              else if o.1 ≤ fieldAt p 8 4 ∧ fieldAt p 4 4 ≤ o.2.1 then
                answered (t.modPort i fun x => { x with slew := Nat.min 50 (byteAt p 12) }) i q 3
                  (le 4 (Nat.min (fieldAt p 0 4) o.2.2)) true
              else answered t i q 4 (le 1 1) false)) ∧
      (type = 5 → port.mode.attached = true → exec (row type i b q 0 p) s = .next (
        answered (if port.swap = .handing then (t.setJs i false true).modPort i fun x => { x with swap := .none } else t) i q 3 []
          false)) ∧
      (type = 6 → port.mode.attached = true →
        let own := port.swap == .asked && (port.out.any fun o => o.msg.type == 6)
        let u := if own then t.modPort i fun x => { x.advance with swap := .none } else t
        exec (row type i b q 0 p) s = .next (
          if port.mode = .transition then answered t i q 4 (le 1 3) false
          else if own = true ∧ port.endB = false then t
          else if (u.port i).swap = .supplying ∨ (u.port i).swap = .handing then answered u i q 4 (le 1 3) false
          else if port.js = false ∧ port.capable = false then answered u i q 4 (le 1 5) false
          else answered (u.beginSwap i) i q 3 [] false)) ∧
      (type = 7 → port.mode.attached = true → exec (row type i b q 0 p) s = .next (
        answered (if port.mode = .hold then t
          else if port.exporter then (t.portHold i 0).sendCaps i true else t.portHold i 0) i q 3 [] false)) ∧
      (type = 8 → exec (row type i b q 0 p) s = .next (
        answered (if port.mode = .recovery then t
          else (t.modPort i fun x => { x with out := none, queue := [] }).recover i 0 none) i q 3 [] false)))) ∧
  (∀ (i q a : Nat) (b : Bool) (p : List Byte) (s : State), heard s i = true → q ≠ 0 →
    ¬((s.port i).mode.attached = true ∧ b = (s.port i).endB) →
    let named := fun (m : ClaspMsg) => ∃ o, (s.port i).out = some o ∧ o.state = .sent ∧ o.msg.seqNo = a ∧ m = o.msg
    let t := s.modPort i fun x => { x.advance with silent := false }
    (∀ n, n = 3 ∨ n = 4 → fits n p.length = true → (¬∃ m, named m) →
      exec (row n i b q a p) s = .next (s.modPort i fun x => { x with silent := false })) ∧
    (∀ m, named m → fits 3 p.length = true → (m.type = 2 ↔ p.length ≠ 4) → exec (.accept i b q a p) s = .next (bad s)) ∧
    (∀ m, named m → fits 3 p.length = true → ¬(m.type = 2 ↔ p.length ≠ 4) → exec (.accept i b q a p) s = .next (
      if m.type = 2 then
        (t.modPort i fun x =>
          { x with
            slew := Nat.min 50 (Nat.min (byteAt m.payload 12) (byteAt (x.caps.getD []) 16)), request := none }).enterTransition i
          (if (s.port i).mode.attached then fieldAt p 0 4 else 0)
      else if m.type = 6 then t.beginSwap i
      else if m.type = 5 then t.readyAnswered i m.seqNo
      else t)) ∧
    (∀ m, named m → fits 4 p.length = true → exec (.reject i b q a p) s = .next (
      if m.type = 2 then (t.modPort i fun x => { x with request := none }).contractEvent i 2 (byteAt p 0)
        (s.tieVolts i)
      else if m.type = 6 then t.modPort i fun x => { x with swap := .none }
      else t)))
end

