-- ==== Sys2Proof/Laws/Memory.lean ====
section
/-!
SUPPORT. The staging buffer as memory: every write keeps the canonical form, a read gives what was last written, and a write
leaves every other address alone.
-/
namespace Sys2Proof.Machine

theorem Memory.wfFrom_mono {m : List Host.Cell} {lo hi : Nat} (e : lo ≤ hi) (h : Memory.wfFrom hi m = true) :
    Memory.wfFrom lo m = true := by
  cases m with
  | nil => rfl
  | cons c r =>
    simp only [Memory.wfFrom, Bool.and_eq_true, decide_eq_true_eq] at h ⊢
    exact ⟨⟨Nat.le_trans e h.1.1, h.1.2⟩, h.2⟩

theorem Memory.wfFrom_write {m : List Host.Cell} {lo a : Nat} {v : Byte} (e : lo ≤ a) (h : Memory.wfFrom lo m = true) :
    Memory.wfFrom lo (Memory.write m a v) = true := by
  induction m generalizing lo with
  | nil =>
    unfold Memory.write
    split
    · rfl
    · rename_i hv
      simpa [Memory.wfFrom, e] using hv
  | cons c r ih =>
    simp only [Memory.wfFrom, Bool.and_eq_true, decide_eq_true_eq] at h
    obtain ⟨⟨h1, h2⟩, h3⟩ := h
    unfold Memory.write
    split
    · split
      · simp only [Memory.wfFrom, Bool.and_eq_true, decide_eq_true_eq]
        exact ⟨⟨h1, h2⟩, h3⟩
      · rename_i hlt hv
        simp only [Memory.wfFrom, Bool.and_eq_true, decide_eq_true_eq]
        exact ⟨⟨e, by simpa using hv⟩, ⟨by omega, h2⟩, h3⟩
    · split
      · rename_i hc
        split
        · exact Memory.wfFrom_mono (by omega) h3
        · rename_i hv
          simp only [Memory.wfFrom, Bool.and_eq_true, decide_eq_true_eq]
          exact ⟨⟨e, by simpa using hv⟩, Memory.wfFrom_mono (by omega) h3⟩
      · simp only [Memory.wfFrom, Bool.and_eq_true, decide_eq_true_eq]
        exact ⟨⟨h1, h2⟩, ih (by omega) h3⟩

/-- A write keeps the canonical form. -/
theorem Memory.wf_write {m : List Host.Cell} (h : Memory.wf m = true) (a : Nat) (v : Byte) :
    Memory.wf (Memory.write m a v) = true :=
  Memory.wfFrom_write (Nat.zero_le a) h

/-- A store of several bytes keeps it. -/
theorem Memory.wf_store {m : List Host.Cell} (h : Memory.wf m = true) (a : Nat) (l : List Byte) :
    Memory.wf (Memory.store m a l) = true := by
  induction l generalizing m a with
  | nil => exact h
  | cons b r ih => exact ih (Memory.wf_write h a b) (a + 1)

theorem Memory.read_below {m : List Host.Cell} {lo a : Nat} (e : a < lo) (h : Memory.wfFrom lo m = true) :
    Memory.read m a = 0 := by
  induction m generalizing lo with
  | nil => rfl
  | cons c r ih =>
    simp only [Memory.wfFrom, Bool.and_eq_true, decide_eq_true_eq] at h
    unfold Memory.read
    rw [if_neg (by omega)]
    exact ih (by omega) h.2

theorem Memory.read_writeFrom {m : List Host.Cell} {lo : Nat} (h : Memory.wfFrom lo m = true) (a x : Nat) (v : Byte) :
    Memory.read (Memory.write m a v) x = if x = a then v else Memory.read m x := by
  induction m generalizing lo with
  | nil =>
    unfold Memory.write
    split
    · rename_i hv
      split
      · simpa [Memory.read] using hv.symm
      · rfl
    · simp only [Memory.read]
      by_cases e : x = a
      · simp [e]
      · simp [e, Ne.symm e]
  | cons c r ih =>
    simp only [Memory.wfFrom, Bool.and_eq_true, decide_eq_true_eq] at h
    obtain ⟨⟨h1, h2⟩, h3⟩ := h
    unfold Memory.write
    split
    · rename_i hlt
      have below : Memory.read (c :: r) a = 0 := by
        unfold Memory.read
        rw [if_neg (by omega)]
        exact Memory.read_below (by omega) h3
      split
      · rename_i hv
        by_cases e : x = a
        · rw [if_pos e, e, below, hv]
        · rw [if_neg e]
      · by_cases e : x = a
        · rw [if_pos e]
          simp [Memory.read, e]
        · rw [if_neg e]
          simp [Memory.read, Ne.symm e]
    · split
      · rename_i hc
        split
        · rename_i hv
          by_cases e : x = a
          · rw [if_pos e, e, Memory.read_below (by omega) h3, hv]
          · rw [if_neg e]
            conv => rhs; unfold Memory.read
            rw [if_neg (by omega)]
        · by_cases e : x = a
          · rw [if_pos e]
            simp [Memory.read, e]
          · rw [if_neg e]
            simp only [Memory.read]
            rw [if_neg (Ne.symm e), if_neg (by omega)]
      · unfold Memory.read
        rw [ih h3]
        by_cases e : x = a
        · rw [if_pos e, if_pos e, if_neg (by omega)]
        · rw [if_neg e, if_neg e]

/-- A read after a write: the value written there, what stood everywhere else. -/
theorem Memory.read_write {m : List Host.Cell} (h : Memory.wf m = true) (a x : Nat) (v : Byte) :
    Memory.read (Memory.write m a v) x = if x = a then v else Memory.read m x :=
  Memory.read_writeFrom h a x v

/-- A read after a store of several bytes. -/
theorem Memory.read_store {m : List Host.Cell} (h : Memory.wf m = true) (a : Nat) (l : List Byte) (x : Nat) :
    Memory.read (Memory.store m a l) x = if a ≤ x ∧ x < a + l.length then l.getD (x - a) 0 else Memory.read m x := by
  induction l generalizing m a with
  | nil =>
    rw [if_neg (by simp)]
    rfl
  | cons b r ih =>
    unfold Memory.store
    rw [ih (Memory.wf_write h a b), Memory.read_write h]
    by_cases e : x = a
    · subst e
      simp
    · rw [if_neg e]
      by_cases k : a + 1 ≤ x ∧ x < a + 1 + r.length
      · rw [if_pos k, if_pos (by simp; omega)]
        obtain ⟨d, hd⟩ : ∃ d, x - a = d + 1 := ⟨x - a - 1, by omega⟩
        rw [hd, List.getD_cons_succ]
        congr 1
        omega
      · rw [if_neg k, if_neg (by simp; omega)]

end Sys2Proof.Machine
end

