-- ==== Sys2Proof/Laws/Requests.lean ====
section
/-!
SUPPORT. What the receipt of a request does, said once: each outcome of Table 06-2 as an equation about `receive`.
-/
namespace Sys2Proof.Machine

theorem exec_request {c : Instr} {o : OpSpec} {h : Hdr} {p : List Byte} (e : requestOf c = some (o, h, p)) (s : State) :
    exec c s = .next (receive o h p s) := by
  cases c <;> first | (cases e; done) | (cases e; rfl)

variable {o : OpSpec} {h : Hdr} {p : List Byte} {s : State}

theorem Admitted.passes (a : Admitted o h p s) : receiptRefusal o h (flightOf s o h p) (s.heard o h p) = none := by
  have hq : queueFull (flightOf s o h p) (s.heard o h p) = false := by
    have hb : (flightOf s o h p).bcast = false := a.single
    have ht : (flightOf s o h p).target = 0 := by
      have := a.target
      simp only [ownTarget, Bool.or_eq_true, beq_iff_eq, Bool.and_eq_true] at this
      simp only [flightOf, mkFlight]
      rcases this with e | e
      · simp [e]
      · simp [e.1.1]
    have := a.queue
    simp only [queueFull, hb, ht, Bool.false_eq_true, if_false, decide_eq_false_iff_not]
    show ¬ Config.queueEntries ≤ s.cmd.depth 0
    omega
  have hb : badBroadcast o h (s.heard o h p) = false := by
    unfold badBroadcast
    rw [a.single]
    rfl
  have ha : absentTarget h (s.heard o h p) = false := by
    have : ownTarget h (s.heard o h p) = true := a.target
    simp [absentTarget, this]
  have hp : (o.mqOnly && (s.heard o h p).otp.partWq) = false := a.part
  have ht : ((s.heard o h p).cmd.flights.any fun g => g.key.origin == h.origin && g.key.tag == h.tag.toNat) = false := by
    rw [List.any_eq_false]
    intro g hg
    have := a.tag g hg
    simpa using this
  have hr : noTag h (s.heard o h p) = false := a.room
  have hw : windowRefusal h (s.heard o h p) = none := a.window
  simp [receiptRefusal, need, firstOf, a.header, hb, ha, hp, ht, hr, a.sched, hw, hq]

theorem Admitted.receive (a : Admitted o h p s) : receive o h p s = receiveOwn o (flightOf s o h p) (s.heard o h p) := by
  have h1 : receives h (s.heard o h p) = true := a.hears
  have h2 := a.passes
  have h3 : (flightOf s o h p).bcast = false := a.single
  have h4 : ownTarget h (s.heard o h p) = true := a.target
  unfold Machine.receive
  show (if !receives h (s.heard o h p) then s.heard o h p else
    match receiptRefusal o h (flightOf s o h p) (s.heard o h p) with
    | some b => (s.heard o h p).refuse (flightOf s o h p) b
    | none => if (flightOf s o h p).bcast then broadcast o (flightOf s o h p) (s.heard o h p)
      else if ownTarget h (s.heard o h p) then receiveOwn o (flightOf s o h p) (s.heard o h p)
      else forward (flightOf s o h p) h.target.toNat (s.heard o h p)) = _
  rw [h1, h2, h3, h4]
  rfl

/-- A request that executes at once. -/
theorem Runs.receive (r : Runs o h p s) : receive o h p s = o.execute (s.entered o h p) (flightOf s o h p) := by
  rw [r.admitted.receive]
  unfold receiveOwn
  rw [r.admitted.check]
  have : (flightOf s o h p).sched = false := r.now
  simp only [this, Bool.false_eq_true, if_false]
  rfl

/-- A request that waits for its boundary. -/
theorem Waits.receive (r : Waits o h p s) : receive o h p s = o.accept (s.queued o h p) (waitingOf s o h p) := by
  rw [r.admitted.receive]
  unfold receiveOwn
  rw [r.admitted.check]
  have : (flightOf s o h p).sched = true := r.scheduled
  rw [if_pos (show (flightOf s o h p).sched = true from this)]
  rfl

/-- Execution where nothing prevents it. -/
theorem execute_eq {f : Flight} (h1 : o.notReady s = false) (h2 : (o.eupefen && s.geode.stalled) = false) :
    o.execute s f = match o.run s f with
      | (t, some a) => t.finish f a
      | (t, none) => t.unanswered f := by
  unfold OpSpec.execute
  rw [h1, h2]
  rfl

/-- A request that executes at once, by what its opcode does. -/
theorem Runs.exec {c : Instr} (e : requestOf c = some (o, h, p)) (r : Runs o h p s) :
    exec c s = .next (match o.run (s.entered o h p) (flightOf s o h p) with
      | (t, some a) => t.finish (flightOf s o h p) a
      | (t, none) => t.unanswered (flightOf s o h p)) := by
  rw [exec_request e, r.receive]
  have h1 : o.notReady (s.entered o h p) = false := r.ready
  have h2 : (o.eupefen && (s.entered o h p).geode.stalled) = false := r.core
  rw [execute_eq h1 h2]

/-- A request that waits, by what its opcode's acceptance does. -/
theorem Waits.exec {c : Instr} (e : requestOf c = some (o, h, p)) (r : Waits o h p s) :
    exec c s = .next (o.accept (s.queued o h p) (waitingOf s o h p)) := by
  rw [exec_request e, r.receive]

/-- A command at its boundary, by what its opcode does. -/
theorem Executes.run {f : Flight} (k : opSpec o.code = some o) (r : Executes o f s) :
    s.executeFlight f = match o.run s f with
      | (t, some a) => t.finish f a
      | (t, none) => t.unanswered f := by
  unfold State.executeFlight
  rw [r.opcode, k]
  exact execute_eq r.ready r.core

end Sys2Proof.Machine
end

