-- ==== Sys2Proof/Laws/Sound.lean ====
section
/-!
SUPPORT. What every command keeps: a sound state (`State.Inv`), the OTP (`Otp.Keeps`), and the queue of waiting commands. The
three are carried together by `Good`. Here stand the lemmas for updates of one block and for the control structures.
-/
namespace Sys2Proof.Machine

/-- A sound state whose OTP has kept what `o` holds and whose queue is `q`. -/
structure Good (o : Otp) (q : List Instr) (s : State) : Prop where
  inv : s.Inv
  otp : o.Keeps s.otp
  queue : s.pending = q

theorem Triple.keeps_refl (t : Triple) : t.keeps t := by simp [Triple.keeps]

theorem Otp.Keeps.refl (o : Otp) : o.Keeps o :=
  { dieId := rfl, trim := rfl, part := rfl, lc := Triple.keeps_refl _, wiped := Triple.keeps_refl _, rollback := Nat.le_refl _,
    keys := by simp, vRevoked := by simp, iRevoked := by simp, role := by simp, wdg := by simp }

theorem andNot_trans {n : Nat} {a b c : BitVec n} (h : a &&& ~~~b = 0) (k : b &&& ~~~c = 0) : a &&& ~~~c = 0 := by
  ext i hi
  have h1 := congrArg (fun x => x.getLsbD i) h
  have k1 := congrArg (fun x => x.getLsbD i) k
  simp [hi] at h1 k1 ⊢
  intro ha
  exact k1 (h1 ha)

theorem Triple.keeps_trans {a b c : Triple} (h : a.keeps b) (k : b.keeps c) : a.keeps c :=
  ⟨andNot_trans h.1 k.1, andNot_trans h.2.1 k.2.1, andNot_trans h.2.2 k.2.2⟩

theorem Otp.Keeps.trans {a b c : Otp} (h : a.Keeps b) (k : b.Keeps c) : a.Keeps c :=
  { dieId := k.dieId.trans h.dieId
    trim := k.trim.trans h.trim
    part := k.part.trans h.part
    lc := Triple.keeps_trans h.lc k.lc
    wiped := Triple.keeps_trans h.wiped k.wiped
    rollback := Nat.le_trans h.rollback k.rollback
    keys := andNot_trans h.keys k.keys
    vRevoked := andNot_trans h.vRevoked k.vRevoked
    iRevoked := andNot_trans h.iRevoked k.iRevoked
    role := andNot_trans h.role k.role
    wdg := andNot_trans h.wdg k.wdg }

section
variable {o : Otp} {q : List Instr} {s : State}

theorem good_sys {x : Sys} (k : s.sys.Sound → x.Sound) (h : Good o q s) : Good o q { s with sys := x } :=
  ⟨{ h.inv with sys := k h.inv.sys }, h.otp, h.queue⟩

theorem good_modSys {f : Sys → Sys} (k : s.sys.Sound → (f s.sys).Sound) (h : Good o q s) : Good o q (s.modSys f) :=
  ⟨{ h.inv with sys := k h.inv.sys }, h.otp, h.queue⟩

theorem good_otp {x : Otp} (k : s.otp.Keeps x) (h : Good o q s) : Good o q { s with otp := x } :=
  ⟨{ h.inv with }, h.otp.trans k, h.queue⟩

theorem good_modOtp {f : Otp → Otp} (k : s.otp.Keeps (f s.otp)) (h : Good o q s) : Good o q (s.modOtp f) :=
  ⟨{ h.inv with }, h.otp.trans k, h.queue⟩

theorem good_flash {x : Flash} (k : s.flash.Sound → x.Sound) (h : Good o q s) : Good o q { s with flash := x } :=
  ⟨{ h.inv with flash := k h.inv.flash }, h.otp, h.queue⟩

theorem good_modFlash {f : Flash → Flash} (k : s.flash.Sound → (f s.flash).Sound) (h : Good o q s) : Good o q (s.modFlash f) :=
  ⟨{ h.inv with flash := k h.inv.flash }, h.otp, h.queue⟩

theorem good_geode {x : Geode} (h : Good o q s) : Good o q { s with geode := x } := ⟨{ h.inv with }, h.otp, h.queue⟩

theorem good_modGeode {f : Geode → Geode} (h : Good o q s) : Good o q (s.modGeode f) := ⟨{ h.inv with }, h.otp, h.queue⟩

theorem good_cmd {x : Cmd} (k : s.cmd.Sound → x.Sound) (h : Good o q s) : Good o q { s with cmd := x } :=
  ⟨{ h.inv with cmd := k h.inv.cmd }, h.otp, h.queue⟩

theorem good_modCmd {f : Cmd → Cmd} (k : s.cmd.Sound → (f s.cmd).Sound) (h : Good o q s) : Good o q (s.modCmd f) :=
  ⟨{ h.inv with cmd := k h.inv.cmd }, h.otp, h.queue⟩

theorem good_time {x : Time} (k : s.time.Sound → x.Sound) (h : Good o q s) : Good o q { s with time := x } :=
  ⟨{ h.inv with time := k h.inv.time }, h.otp, h.queue⟩

theorem good_modTime {f : Time → Time} (k : s.time.Sound → (f s.time).Sound) (h : Good o q s) : Good o q (s.modTime f) :=
  ⟨{ h.inv with time := k h.inv.time }, h.otp, h.queue⟩

theorem good_wdg {x : Wdg} (k : s.wdg.Sound → x.Sound) (h : Good o q s) : Good o q { s with wdg := x } :=
  ⟨{ h.inv with wdg := k h.inv.wdg }, h.otp, h.queue⟩

theorem good_modWdg {f : Wdg → Wdg} (k : s.wdg.Sound → (f s.wdg).Sound) (h : Good o q s) : Good o q (s.modWdg f) :=
  ⟨{ h.inv with wdg := k h.inv.wdg }, h.otp, h.queue⟩

theorem good_memi {x : Memi} (k : s.memi.Sound → x.Sound) (h : Good o q s) : Good o q { s with memi := x } :=
  ⟨{ h.inv with memi := k h.inv.memi }, h.otp, h.queue⟩

theorem good_modMemi {f : Memi → Memi} (k : s.memi.Sound → (f s.memi).Sound) (h : Good o q s) : Good o q (s.modMemi f) :=
  ⟨{ h.inv with memi := k h.inv.memi }, h.otp, h.queue⟩

theorem good_conv {x : Conv} (k : s.conv.Sound → x.Sound) (h : Good o q s) : Good o q { s with conv := x } :=
  ⟨{ h.inv with conv := k h.inv.conv }, h.otp, h.queue⟩

theorem good_modConv {f : Conv → Conv} (k : s.conv.Sound → (f s.conv).Sound) (h : Good o q s) : Good o q (s.modConv f) :=
  ⟨{ h.inv with conv := k h.inv.conv }, h.otp, h.queue⟩

theorem good_prot {x : Prot} (k : s.prot.Sound → x.Sound) (h : Good o q s) : Good o q { s with prot := x } :=
  ⟨{ h.inv with prot := k h.inv.prot }, h.otp, h.queue⟩

theorem good_modProt {f : Prot → Prot} (k : s.prot.Sound → (f s.prot).Sound) (h : Good o q s) : Good o q (s.modProt f) :=
  ⟨{ h.inv with prot := k h.inv.prot }, h.otp, h.queue⟩

theorem good_path {x : Path} (k : s.path.Sound → x.Sound) (h : Good o q s) : Good o q { s with path := x } :=
  ⟨{ h.inv with path := k h.inv.path }, h.otp, h.queue⟩

theorem good_modPath {f : Path → Path} (k : s.path.Sound → (f s.path).Sound) (h : Good o q s) : Good o q (s.modPath f) :=
  ⟨{ h.inv with path := k h.inv.path }, h.otp, h.queue⟩

theorem good_slolos {x : Slolos} (k : s.slolos.Sound → x.Sound) (h : Good o q s) : Good o q { s with slolos := x } :=
  ⟨{ h.inv with slolos := k h.inv.slolos }, h.otp, h.queue⟩

theorem good_modSlolos {f : Slolos → Slolos} (k : s.slolos.Sound → (f s.slolos).Sound) (h : Good o q s) : Good o q (s.modSlolos f) :=
  ⟨{ h.inv with slolos := k h.inv.slolos }, h.otp, h.queue⟩

theorem good_charge {x : Charge} (k : s.charge.Sound → x.Sound) (h : Good o q s) : Good o q { s with charge := x } :=
  ⟨{ h.inv with charge := k h.inv.charge }, h.otp, h.queue⟩

theorem good_modCharge {f : Charge → Charge} (k : s.charge.Sound → (f s.charge).Sound) (h : Good o q s) : Good o q (s.modCharge f) :=
  ⟨{ h.inv with charge := k h.inv.charge }, h.otp, h.queue⟩

theorem good_pendant {x : Pendant} (h : Good o q s) : Good o q { s with pendant := x } := ⟨{ h.inv with }, h.otp, h.queue⟩

theorem good_modPendant {f : Pendant → Pendant} (h : Good o q s) : Good o q (s.modPendant f) := ⟨{ h.inv with }, h.otp, h.queue⟩

theorem good_clasp {x : Clasp} (k : s.clasp.Sound → x.Sound) (h : Good o q s) : Good o q { s with clasp := x } :=
  ⟨{ h.inv with clasp := k h.inv.clasp }, h.otp, h.queue⟩

theorem good_modClasp {f : Clasp → Clasp} (k : s.clasp.Sound → (f s.clasp).Sound) (h : Good o q s) : Good o q (s.modClasp f) :=
  ⟨{ h.inv with clasp := k h.inv.clasp }, h.otp, h.queue⟩

theorem good_meas {x : Meas} (k : s.meas.Sound → x.Sound) (h : Good o q s) : Good o q { s with meas := x } :=
  ⟨{ h.inv with meas := k h.inv.meas }, h.otp, h.queue⟩

theorem good_modMeas {f : Meas → Meas} (k : s.meas.Sound → (f s.meas).Sound) (h : Good o q s) : Good o q (s.modMeas f) :=
  ⟨{ h.inv with meas := k h.inv.meas }, h.otp, h.queue⟩

theorem good_therm {x : Therm} (k : s.therm.Sound → x.Sound) (h : Good o q s) : Good o q { s with therm := x } :=
  ⟨{ h.inv with therm := k h.inv.therm }, h.otp, h.queue⟩

theorem good_modTherm {f : Therm → Therm} (k : s.therm.Sound → (f s.therm).Sound) (h : Good o q s) : Good o q (s.modTherm f) :=
  ⟨{ h.inv with therm := k h.inv.therm }, h.otp, h.queue⟩

theorem good_freeCtr {n : Nat} (h : Good o q s) : Good o q { s with freeCtr := n } := ⟨{ h.inv with }, h.otp, h.queue⟩

theorem good_flashOp {x : FlashOp} (h : Good o q s) : Good o q (s.modFlash fun y => { y with op := x }) :=
  good_modFlash (fun hk => ⟨hk.staging⟩) h

theorem good_foldl {α : Type} {f : State → α → State} {l : List α} (k : ∀ s x, Good o q s → Good o q (f s x))
    (h : Good o q s) : Good o q (l.foldl f s) := by
  induction l generalizing s with
  | nil => exact h
  | cons x l ih => exact ih (k s x h)

theorem good_getD {x : Option State} {d : State} (k : ∀ t, x = some t → Good o q t) (h : Good o q d) :
    Good o q (x.getD d) := by
  cases x with
  | none => exact h
  | some t => exact k t rfl

end

end Sys2Proof.Machine
end

