-- ==== Sys2Proof/Laws/SoundBlocks.lean ====
section
/-!
SUPPORT. The functions of one block keep the block sound.
-/
set_option linter.unusedTactic false
set_option linter.unreachableTactic false

namespace Sys2Proof.Machine

@[simp] theorem length_modAt {α : Type} (l : List α) (i : Nat) (f : α → α) : (modAt l i f).length = l.length := by
  simp [modAt]

@[simp] theorem length_setAt {α : Type} (l : List α) (i : Nat) (x : α) : (setAt l i x).length = l.length := by
  simp [setAt]

/-! ### Cmd -/

section
variable {c : Cmd}

/-- An update that touches none of the fields that `Cmd.Sound` names. -/
theorem Cmd.Sound.of_eq {d : Cmd} (h : c.Sound) (e1 : d.routes = c.routes) (e2 : d.lost = c.lost)
    (e3 : d.flights = c.flights) (e4 : d.inbox = c.inbox) (e5 : d.outSpi = c.outSpi) (e6 : d.outCan0 = c.outCan0)
    (e7 : d.outCan1 = c.outCan1) : d.Sound := by
  obtain ⟨h1, h2, h3, h4, h5, h6, h7, h8⟩ := h
  simp only [Cmd.depth, Cmd.spiHeld, Cmd.eventCount, Cmd.out] at h3 h5 h6 h7 h8
  exact
    { routes := by rw [e1]; exact h1
      lost := by rw [e2]; exact h2
      queue := by simp only [Cmd.depth, e3]; exact h3
      tags := by rw [e3]; exact h4
      spi := by simp only [Cmd.spiHeld, e4]; exact h5
      events0 := by simp only [Cmd.eventCount, Cmd.out, e5]; exact h6
      events1 := by simp only [Cmd.eventCount, Cmd.out, e6]; exact h7
      events2 := by simp only [Cmd.eventCount, Cmd.out, e7]; exact h8 }

/-- The flights change, the own queue does not grow and the tags stay distinct. -/
theorem Cmd.Sound.of_flights {l : List Flight} (h : c.Sound)
    (e1 : ({ c with flights := l } : Cmd).depth 0 ≤ c.depth 0)
    (e2 : (l.map fun f => (f.key.origin, f.key.tag)).Nodup) : ({ c with flights := l } : Cmd).Sound :=
  { h with queue := Nat.le_trans e1 h.queue, tags := e2 }

theorem sound_dropFlight {k : FlightKey} (h : c.Sound) :
    ({ c with flights := c.flights.filter fun f => !(f.key == k) } : Cmd).Sound := by
  refine h.of_flights ?_ (h.tags.sublist (List.filter_sublist.map _))
  simp only [Cmd.depth, List.filter_filter]
  exact List.Sublist.length_le (by
    rw [← List.filter_filter]
    exact List.Sublist.filter _ List.filter_sublist)

theorem sound_filterFlights {p : Flight → Bool} (h : c.Sound) :
    ({ c with flights := c.flights.filter p } : Cmd).Sound := by
  refine h.of_flights ?_ (h.tags.sublist (List.filter_sublist.map _))
  simp only [Cmd.depth]
  exact List.Sublist.length_le (List.Sublist.filter _ List.filter_sublist)

theorem map_modify_key (l : List Flight) {k : FlightKey} {g : Flight → Flight}
    (hk : ∀ f ∈ l, f.key = k → (g f).key = f.key) :
    (l.map fun f => if f.key == k then g f else f).map (fun f => (f.key.origin, f.key.tag))
      = l.map fun f => (f.key.origin, f.key.tag) := by
  rw [List.map_map]
  apply List.map_congr_left
  intro f hf
  by_cases e : f.key = k
  · simp [e, hk f hf e]
  · simp [e]

theorem depth_modify (l : List Flight) {k : FlightKey} {g : Flight → Flight} (n : Nat)
    (hk : ∀ f ∈ l, f.key = k → (g f).holds n = true → f.holds n = true) :
    ((l.map fun f => if f.key == k then g f else f).filter fun f => f.holds n).length
      ≤ (l.filter fun f => f.holds n).length := by
  induction l with
  | nil => exact Nat.le_refl _
  | cons f l ih =>
    have ih' := ih fun x hx => hk x (List.mem_cons_of_mem _ hx)
    have hf := hk f List.mem_cons_self
    by_cases e : f.key = k
    · simp only [List.map_cons, e, beq_self_eq_true, if_true, List.filter_cons]
      simp only [beq_iff_eq] at ih'
      cases hg : (g f).holds n
      · cases f.holds n <;> simp <;> omega
      · simpa [hf e hg] using ih'
    · have e' : (f.key == k) = false := by simpa using e
      simp only [List.map_cons, e', Bool.false_eq_true, if_false, List.filter_cons]
      split <;> simpa using ih'

theorem sound_modFlight {k : FlightKey} {g : Flight → Flight}
    (hk : ∀ f ∈ c.flights, f.key = k → (g f).key = f.key ∧ ((g f).holds 0 = true → f.holds 0 = true))
    (h : c.Sound) : ({ c with flights := c.flights.map fun f => if f.key == k then g f else f } : Cmd).Sound := by
  refine h.of_flights ?_ ?_
  · simp only [Cmd.depth]
    exact depth_modify _ 0 fun f hf e => (hk f hf e).2
  · rw [map_modify_key]
    · exact h.tags
    · exact fun f hf e => (hk f hf e).1

/-- The event counts of a queue that grows by what is no event. -/
theorem eventCount_append (l m : List OutItem) (hm : ∀ x ∈ m, x.isEvent = false) :
    ((l ++ m).filter (·.isEvent)).length = (l.filter (·.isEvent)).length := by
  have : m.filter (·.isEvent) = [] := List.filter_eq_nil_iff.mpr fun x hx => by simp [hm x hx]
  rw [List.filter_append, this, List.append_nil]

theorem sound_setOut {i : Nat} {l : List OutItem} (e : (l.filter (·.isEvent)).length ≤ Config.eventSpace)
    (h : c.Sound) : (c.setOut i l).Sound := by
  unfold Cmd.setOut
  split
  · exact { h with events0 := e }
  · exact { h with events1 := e }
  · exact { h with events2 := e }

theorem events_le (h : c.Sound) (i : Nat) : ((c.out i).filter (·.isEvent)).length ≤ Config.eventSpace := by
  match i with
  | 0 => exact h.events0
  | 1 => exact h.events1
  | _ + 2 => exact h.events2

theorem sound_sendOut {i : Nat} {x : OutItem} (hx : x.isEvent = false) (h : c.Sound) :
    (c.setOut i (c.out i ++ [x])).Sound := by
  refine sound_setOut ?_ h
  rw [eventCount_append _ _ (by simpa using hx)]
  exact events_le h i

theorem sound_dropOut {i : Nat} {x : OutItem} {r : List OutItem} (e : c.out i = x :: r) (h : c.Sound) :
    (c.setOut i r).Sound := by
  refine sound_setOut ?_ h
  have := events_le h i
  rw [e] at this
  exact Nat.le_trans (List.Sublist.length_le (List.Sublist.filter _ (List.sublist_cons_self x r))) this

theorem sound_setCan {i : Nat} {x : CanCtl} (h : c.Sound) : (c.setCan i x).Sound := by
  unfold Cmd.setCan
  split <;> exact h.of_eq rfl rfl rfl rfl rfl rfl rfl

theorem sound_pushEvent {i : Nat} {k : Packet} {n : Nat} (h : c.Sound) : (c.pushEvent i k n).Sound := by
  unfold Cmd.pushEvent
  split
  · rename_i e
    refine sound_setOut ?_ h
    simpa [List.filter_append, Cmd.eventCount, Nat.succ_le_iff] using e
  · exact { h with lost := by simpa using h.lost }

theorem filter_erase_le (l : List Inbound) (x : Inbound) (p : Inbound → Bool) :
    ((l.erase x).filter p).length ≤ (l.filter p).length :=
  List.Sublist.length_le (List.Sublist.filter _ List.erase_sublist)

theorem sound_eraseInbox {x : Inbound} (h : c.Sound) : ({ c with inbox := c.inbox.erase x } : Cmd).Sound :=
  { h with spi := Nat.le_trans (filter_erase_le _ _ _) h.spi }

theorem sound_takeInbound {x : Hdr} {n : Nat} {p : List Byte} (h : c.Sound) : (c.takeInbound x n p).Sound :=
  sound_eraseInbox h

theorem sound_appendInbox {x : Inbound} (e : x.origin ≠ .spi) (h : c.Sound) :
    ({ c with inbox := c.inbox ++ [x] } : Cmd).Sound := by
  refine { h with spi := ?_ }
  have : (x.origin == Origin.spi) = false := by simpa using e
  simpa [Cmd.spiHeld, List.filter_append, this] using h.spi

theorem sound_clearErrors (h : c.Sound) : c.clearErrors.Sound := h.of_eq rfl rfl rfl rfl rfl rfl rfl

theorem sound_countFraming (h : c.Sound) : c.countFraming.Sound := h.of_eq rfl rfl rfl rfl rfl rfl rfl

/-- A new command of this die enters the queue. -/
theorem sound_addFlight {f : Flight} (h : c.Sound) (hq : c.depth 0 < Config.queueEntries)
    (ht : ∀ g ∈ c.flights, (g.key.origin, g.key.tag) ≠ (f.key.origin, f.key.tag)) :
    ({ c with flights := c.flights ++ [f] } : Cmd).Sound := by
  refine { h with queue := ?_, tags := ?_ }
  · have hq' := hq
    simp only [Cmd.depth, List.filter_append, List.length_append] at hq' ⊢
    have : ([f].filter fun f => f.holds 0).length ≤ 1 := by
      rw [List.filter_singleton]; cases f.holds 0 <;> simp
    omega
  · rw [List.map_append, List.nodup_append]
    refine ⟨h.tags, by simp, ?_⟩
    intro a ha b hb
    simp only [List.map_cons, List.map_nil, List.mem_singleton] at hb
    simp only [List.mem_map] at ha
    obtain ⟨g, hg, rfl⟩ := ha
    rw [hb]
    exact ht g hg

/-- A command that holds no entry of this die's queue is added. -/
theorem sound_forwardFlight {f : Flight} (h : c.Sound) (hn : f.holds 0 = false)
    (ht : ∀ g ∈ c.flights, (g.key.origin, g.key.tag) ≠ (f.key.origin, f.key.tag)) :
    ({ c with flights := c.flights ++ [f] } : Cmd).Sound := by
  refine { h with queue := ?_, tags := ?_ }
  · have hq' := h.queue
    simpa [Cmd.depth, List.filter_append, hn] using hq'
  · rw [List.map_append, List.nodup_append]
    refine ⟨h.tags, by simp, ?_⟩
    intro a ha b hb
    simp only [List.map_cons, List.map_nil, List.mem_singleton] at hb
    simp only [List.mem_map] at ha
    obtain ⟨g, hg, rfl⟩ := ha
    rw [hb]
    exact ht g hg
end

/-! ### The other blocks -/

theorem sound_Path_epoch {x : Path} (h : x.Sound) : ∀ us, (Path.epoch x us).Sound := by
  intro us
  unfold Path.epoch
  repeat' split
  all_goals exact ⟨by first | exact h.chans | simpa using h.chans, by first | exact h.shares | simpa using h.shares⟩

theorem sound_Prot_closeFrom {x : Prot} (h : x.Sound) : ∀ e a s, (Prot.closeFrom x e a s).Sound := by
  intro e a s
  unfold Prot.closeFrom
  repeat' split
  all_goals exact ⟨by first | exact h.echo | simpa using h.echo, by first | exact h.crowbars | simpa using h.crowbars⟩

theorem sound_Prot_clearEcho {x : Prot} (h : x.Sound) : ∀ m, (Prot.clearEcho x m).Sound := by
  intro m
  unfold Prot.clearEcho
  repeat' split
  all_goals exact ⟨by first | exact h.echo | simpa using h.echo, by first | exact h.crowbars | simpa using h.crowbars⟩

theorem sound_Meas_modAcc {x : Meas} (h : x.Sound) : ∀ i f, (Meas.modAcc x i f).Sound := by
  intro i f
  unfold Meas.modAcc
  repeat' split
  all_goals exact ⟨by first | exact h.adcs | simpa using h.adcs, by first | exact h.accs | simpa using h.accs, by first | exact h.trks | simpa using h.trks⟩

theorem sound_Meas_modTrk {x : Meas} (h : x.Sound) : ∀ i f, (Meas.modTrk x i f).Sound := by
  intro i f
  unfold Meas.modTrk
  repeat' split
  all_goals exact ⟨by first | exact h.adcs | simpa using h.adcs, by first | exact h.accs | simpa using h.accs, by first | exact h.trks | simpa using h.trks⟩

theorem sound_Meas_modAdc {x : Meas} (h : x.Sound) : ∀ i f, (Meas.modAdc x i f).Sound := by
  intro i f
  unfold Meas.modAdc
  repeat' split
  all_goals exact ⟨by first | exact h.adcs | simpa using h.adcs, by first | exact h.accs | simpa using h.accs, by first | exact h.trks | simpa using h.trks⟩

theorem sound_Meas_startTables {x : Meas} (h : x.Sound) : ∀ e us l, (Meas.startTables x e us l).Sound := by
  intro e us l
  unfold Meas.startTables
  repeat' split
  all_goals exact ⟨by first | exact h.adcs | simpa using h.adcs, by first | exact h.accs | simpa using h.accs, by first | exact h.trks | simpa using h.trks⟩

theorem sound_Meas_stopTables {x : Meas} (h : x.Sound) : (Meas.stopTables x).Sound := by
  unfold Meas.stopTables
  repeat' split
  all_goals exact ⟨by first | exact h.adcs | simpa using h.adcs, by first | exact h.accs | simpa using h.accs, by first | exact h.trks | simpa using h.trks⟩

theorem sound_Meas_freeze {x : Meas} (h : x.Sound) : ∀ e, (Meas.freeze x e).Sound := by
  intro e
  unfold Meas.freeze
  repeat' split
  all_goals exact ⟨by first | exact h.adcs | simpa using h.adcs, by first | exact h.accs | simpa using h.accs, by first | exact h.trks | simpa using h.trks⟩

theorem sound_Meas_setHold {x : Meas} (h : x.Sound) : ∀ b, (Meas.setHold x b).Sound := by
  intro b
  unfold Meas.setHold
  repeat' split
  all_goals exact ⟨by first | exact h.adcs | simpa using h.adcs, by first | exact h.accs | simpa using h.accs, by first | exact h.trks | simpa using h.trks⟩

theorem sound_Meas_setModes {x : Meas} (h : x.Sound) : ∀ b, (Meas.setModes x b).Sound := by
  intro b
  unfold Meas.setModes
  repeat' split
  all_goals exact ⟨by first | exact h.adcs | simpa using h.adcs, by first | exact h.accs | simpa using h.accs, by first | exact h.trks | simpa using h.trks⟩

theorem sound_Meas_clear {x : Meas} (h : x.Sound) : ∀ a t, (Meas.clear x a t).Sound := by
  intro a t
  unfold Meas.clear
  repeat' split
  all_goals exact ⟨by first | exact h.adcs | simpa using h.adcs, by first | exact h.accs | simpa using h.accs, by first | exact h.trks | simpa using h.trks⟩

theorem sound_Therm_read {x : Therm} (h : x.Sound) : ∀ l, (Therm.read x l).Sound := by
  intro l
  unfold Therm.read
  repeat' split
  all_goals exact ⟨by first | exact h.ext | simpa using h.ext, by first | exact h.batt | simpa using h.batt⟩

theorem sound_Therm_freeze {x : Therm} (h : x.Sound) : (Therm.freeze x).Sound := by
  unfold Therm.freeze
  repeat' split
  all_goals exact ⟨by first | exact h.ext | simpa using h.ext, by first | exact h.batt | simpa using h.batt⟩

theorem sound_Conv_unlock {x : Conv} (h : x.Sound) : ∀ k, (Conv.unlock x k).Sound := by
  intro k
  unfold Conv.unlock
  repeat' split
  all_goals exact ⟨by first | exact h.lanes | simpa using h.lanes, by first | exact h.legs | simpa using h.legs, by first | exact h.decims | simpa using h.decims⟩

theorem sound_Path_prechargeTick {x : Path} (h : x.Sound) : ∀ us, (Path.prechargeTick x us).Sound := by
  intro us
  unfold Path.prechargeTick
  repeat' split
  all_goals exact ⟨by first | exact h.chans | simpa using h.chans, by first | exact h.shares | simpa using h.shares⟩

theorem sound_Slolos_setPort {x : Slolos} (h : x.Sound) : ∀ p y, (Slolos.setPort x p y).Sound := by
  intro p y
  unfold Slolos.setPort
  repeat' split
  all_goals exact ⟨by first | exact h.ctxs | simpa using h.ctxs, by first | exact h.marker | simpa using h.marker⟩

theorem sound_Slolos_modCtx {x : Slolos} (h : x.Sound) : ∀ k f, (Slolos.modCtx x k f).Sound := by
  intro k f
  unfold Slolos.modCtx
  repeat' split
  all_goals exact ⟨by first | exact h.ctxs | simpa using h.ctxs, by first | exact h.marker | simpa using h.marker⟩

theorem sound_Slolos_clearErrors {x : Slolos} (h : x.Sound) : (Slolos.clearErrors x).Sound := by
  unfold Slolos.clearErrors
  repeat' split
  all_goals exact ⟨by first | exact h.ctxs | simpa using h.ctxs, by first | exact h.marker | simpa using h.marker⟩

theorem sound_Slolos_join {x : Slolos} (h : x.Sound) : ∀ a, (Slolos.join x a).Sound := by
  intro a
  unfold Slolos.join
  repeat' split
  all_goals exact ⟨by first | exact h.ctxs | simpa using h.ctxs, by first | exact h.marker | simpa using h.marker⟩

theorem sound_Slolos_config {x : Slolos} (h : x.Sound) : ∀ b, (Slolos.config x b).Sound := by
  intro b
  unfold Slolos.config
  repeat' split
  all_goals exact ⟨by first | exact h.ctxs | simpa using h.ctxs, by first | exact h.marker | simpa using h.marker⟩

theorem sound_Slolos_transmit {x : Slolos} (h : x.Sound) : ∀ k, (Slolos.transmit x k).Sound := by
  intro k
  unfold Slolos.transmit
  repeat' split
  all_goals exact ⟨by first | exact h.ctxs | simpa using h.ctxs, by first | exact h.marker | simpa using h.marker⟩

theorem sound_Flash_compact {x : Flash} (h : x.Sound) : ∀ n, (Flash.compact x n).Sound := by
  intro n
  unfold Flash.compact
  repeat' split
  all_goals exact ⟨by first | exact h.staging | simpa using h.staging⟩

theorem sound_Flash_append {x : Flash} (h : x.Sound) : ∀ n, (Flash.append x n).Sound := by
  intro n
  unfold Flash.append
  repeat' split
  all_goals exact ⟨by first | exact h.staging | simpa using h.staging⟩

theorem sound_Flash_commitRecs {x : Flash} (h : x.Sound) : ∀ n b, (Flash.commitRecs x n b).Sound := by
  intro n b
  unfold Flash.commitRecs
  split
  · exact sound_Flash_append (sound_Flash_compact h _) _
  · exact sound_Flash_append h _

theorem sound_Flash_setSlot {x : Flash} (h : x.Sound) : ∀ i y, (Flash.setSlot x i y).Sound := by
  intro i y
  unfold Flash.setSlot
  repeat' split
  all_goals exact ⟨by first | exact h.staging | simpa using h.staging⟩

theorem sound_Flash_setCopy {x : Flash} (h : x.Sound) : ∀ a c, (Flash.setCopy x a c).Sound := by
  intro a c
  unfold Flash.setCopy
  repeat' split
  all_goals exact ⟨by first | exact h.staging | simpa using h.staging⟩

theorem sound_Flash_keepPart {x : Flash} (h : x.Sound) : ∀ d, (x.keepPart d).Sound := by
  intro d
  unfold Flash.keepPart
  split
  · exact sound_Flash_setSlot h _ _
  · exact h

theorem sound_Flash_eraseCopy {x : Flash} (h : x.Sound) : ∀ a, (x.eraseCopy a).Sound := by
  intro a
  unfold Flash.eraseCopy
  split
  · exact ⟨h.staging⟩
  · exact ⟨(sound_Flash_setCopy h a .partErased).staging⟩

theorem sound_Sys_forget {x : Sys} (h : x.Sound) : (Sys.forget x).Sound := by
  unfold Sys.forget
  repeat' split
  all_goals exact ⟨by first | exact h.ready | simpa using h.ready⟩

theorem sound_Sys_sleep {x : Sys} : x.sleep.Sound := ⟨by simp [Sys.sleep]⟩

theorem sound_Clasp_clearCount {x : Clasp} (h : x.Sound) : (Clasp.clearCount x).Sound := by
  unfold Clasp.clearCount
  repeat' split
  all_goals exact ⟨by first | exact h.ports | simpa using h.ports⟩


/-! ### Timers, memories, watchdog -/

theorem tickTimers_captures (k n : Nat) (b : Bool) (l : List Timer) :
    (tickTimers k n b l).timers.map (·.captures) = l.map (·.captures) := by
  induction l generalizing n b with
  | nil => rfl
  | cons t l ih =>
    have moved : (if t.counts n then t.moved (t.amount n k b) else (t, false)).1.captures = t.captures := by
      unfold Timer.moved; repeat' split
      all_goals rfl
    simp only [tickTimers, List.map_cons, ih]
    congr 1
    generalize (if t.counts n then t.moved (t.amount n k b) else (t, false)) = m at moved ⊢
    split
    · exact moved
    · exact moved

theorem tickTimers_length (k n : Nat) (b : Bool) (l : List Timer) : (tickTimers k n b l).timers.length = l.length := by
  have := congrArg List.length (tickTimers_captures k n b l)
  simpa using this

theorem tickTimers_le {k n : Nat} {b : Bool} {l : List Timer} (h : ∀ t ∈ l, t.captures.length ≤ 4) :
    ∀ t ∈ (tickTimers k n b l).timers, t.captures.length ≤ 4 := by
  intro t ht
  have : t.captures ∈ (tickTimers k n b l).timers.map (·.captures) := List.mem_map_of_mem ht
  rw [tickTimers_captures] at this
  obtain ⟨u, hu, e⟩ := List.mem_map.mp this
  rw [← e]
  exact h u hu

theorem sound_Conv_startInputs {x : Conv} (h : x.Sound) (y : Conv) : (x.startInputs y).Sound :=
  { h with decims := by simpa [Conv.startInputs] using h.decims }

theorem sound_Prot_countEpochs {x : Prot} (h : x.Sound) {b : List Echo} (e : b.length = 32) : (x.countEpochs b).Sound :=
  { h with echo := by simp [Prot.countEpochs, h.echo, e] }

theorem sound_Time_tickAll {y : Time} (h : y.Sound) (k : Nat) : (y.tickAll k).Sound := by
  unfold Time.tickAll
  split
  · exact { h with timers := by simpa [tickTimers_length] using h.timers, captures := tickTimers_le h.captures }
  · exact h

theorem sound_Time_tickMany {y : Time} (h : y.Sound) (n : Nat) : (y.tickMany n).Sound := by
  induction n generalizing y with
  | zero => exact h
  | succ n ih =>
    unfold Time.tickMany
    split
    · exact ih (sound_Time_tickAll h 1)
    · exact h

theorem sound_Time_forward {y : Time} (h : y.Sound) : ∀ k b, (y.forward k b).Sound := by
  intro k b
  unfold Time.forward
  have : (if b then y.tickMany k else y.tickAll k).Sound := by
    split
    · exact sound_Time_tickMany h k
    · exact sound_Time_tickAll h k
  exact { this with }

theorem timer_le {y : Time} (h : y.Sound) (n : Nat) : (y.timer n).captures.length ≤ 4 := by
  unfold Time.timer getAt
  by_cases e : n < y.timers.length
  · rw [List.getD_eq_getElem _ _ e]
    exact h.captures _ (List.getElem_mem e)
  · rw [List.getD_eq_default _ _ (by omega)]
    simp [Timer.reset]

theorem sound_Time_setTimer {y : Time} {t : Timer} (k : t.captures.length ≤ 4) (h : y.Sound) (n : Nat) :
    (y.setTimer n t).Sound := by
  refine { h with timers := by simpa [Time.setTimer] using h.timers, captures := ?_ }
  intro u hu
  rcases List.mem_or_eq_of_mem_set hu with e | e
  · exact h.captures u e
  · rw [e]; exact k

theorem sound_timers {y : Time} {l : List Timer} (h : y.Sound) (e : l.length = y.timers.length)
    (k : ∀ t ∈ l, t.captures.length ≤ 4) : ({ y with timers := l } : Time).Sound :=
  { h with timers := e.trans h.timers, captures := k }

theorem sound_mapTimers {y : Time} {f : Timer → Timer} (k : ∀ t, t.captures.length ≤ 4 → (f t).captures.length ≤ 4)
    (h : y.Sound) : ({ y with timers := y.timers.map f } : Time).Sound := by
  refine sound_timers h (by simp) ?_
  intro t ht
  obtain ⟨u, hu, rfl⟩ := List.mem_map.mp ht
  exact k u (h.captures u hu)

theorem sound_Time_overflow {y : Time} (h : y.Sound) (n : Nat) (hn : n < y.timers.length) : (y.overflow n).Sound := by
  unfold Time.overflow
  refine { h with timers := ?_, captures := ?_ }
  · have := h.timers
    simp only [List.length_append, List.length_cons, tickTimers_length, List.length_take, List.length_drop]
    omega
  · intro t ht
    rcases List.mem_append.mp ht with e | e
    · exact h.captures t (List.mem_of_mem_take e)
    · rcases List.mem_cons.mp e with e | e
      · rw [e]
        have := timer_le h n
        split
        · exact this
        · exact this
      · exact tickTimers_le (fun u hu => h.captures u (List.mem_of_mem_drop hu)) t e

theorem sound_Time_matchNow {y : Time} (h : y.Sound) (n : Nat) : (y.matchNow n).Sound := by
  unfold Time.matchNow
  have : (y.setTimer n (if (y.timer n).due then y.timer n else
      { y.timer n with count := (y.timer n).compare % (y.timer n).modulus }).matched).Sound := by
    refine sound_Time_setTimer ?_ h n
    have := timer_le h n
    split
    · exact this
    · exact this
  exact { this with }

theorem sound_Time_latchAbove {y : Time} (h : y.Sound) (n : Nat) : (y.latchAbove n).Sound := by
  unfold Time.latchAbove
  refine sound_timers h (by simp) ?_
  intro t ht
  obtain ⟨x, hx, rfl⟩ := List.mem_map.mp ht
  have hm := h.captures x.1 (List.fst_mem_of_mem_zipIdx hx)
  dsimp only
  split
  · exact hm
  · exact hm

theorem sound_Time_wrap {y : Time} (h : y.Sound) (b : Bool) : (y.wrap b).Sound := by
  unfold Time.wrap
  split
  · exact { h with epoch := Nat.mod_lt _ (by decide) }
  · exact h

theorem sound_Time_readTimer {y : Time} (h : y.Sound) (n r : Nat) : (y.readTimer n r).2.Sound := by
  have ht := timer_le h n
  unfold Time.readTimer
  dsimp only
  split
  · exact h
  · dsimp only
    split
    · exact sound_Time_latchAbove h n
    · exact h
  · exact h
  · exact h
  · exact h
  · exact sound_Time_setTimer (by simp; omega) h n
  · exact sound_Time_setTimer (t := { y.timer n with catchup := 0, capOvf := 0 }) ht h n

theorem sound_Memi_modRam {m : Memi} {f : Ram → Ram} (k : ∀ r, r.count ≤ r.ceiling → (f r).count ≤ (f r).ceiling)
    (h : m.Sound) (n : Nat) : (m.modRam n f).Sound := by
  refine { h with rams := by simpa [Memi.modRam] using h.rams, drip := ?_ }
  intro r hr
  simp only [Memi.modRam, modAt] at hr
  obtain ⟨i, hi, rfl⟩ := List.getElem_of_mem hr
  rw [List.getElem_modify]
  simp only [List.length_modify] at hi
  split
  · exact k _ (h.drip _ (List.getElem_mem hi))
  · exact h.drip _ (List.getElem_mem hi)

theorem sound_mapRams {m : Memi} {f : Ram → Ram} (k : ∀ r, r.count ≤ r.ceiling → (f r).count ≤ (f r).ceiling)
    (h : m.Sound) : ({ m with rams := m.rams.map f } : Memi).Sound := by
  refine { h with rams := by simpa using h.rams, drip := ?_ }
  intro r hr
  obtain ⟨u, hu, rfl⟩ := List.mem_map.mp hr
  exact k u (h.drip u hu)

theorem sound_Memi_config {m : Memi} (h : m.Sound) (b : List Byte) : (m.config b).Sound := by
  unfold Memi.config
  refine { h with rams := by simpa using h.rams, drip := ?_ }
  intro r hr
  obtain ⟨x, hx, rfl⟩ := List.mem_map.mp hr
  dsimp only
  split
  · omega
  · omega

theorem Ram.correct_le (r : Ram) : r.correct.count ≤ r.correct.ceiling := by
  unfold Ram.correct
  dsimp only
  split
  · simp
  · dsimp only; omega

theorem sound_Wdg_served {w : Wdg} : w.served.Sound := ⟨Nat.zero_le _⟩

theorem sound_Wdg_advance {w : Wdg} (k : Nat) : (w.advance k).Sound := ⟨Nat.min_le_left _ _⟩

end Sys2Proof.Machine
end

