-- ==== Sys2Proof/Laws/SoundEngine.lean ====
section
/-!
SUPPORT. Every function keeps a good state (`Good`): the shared operations, the receipt of commands, the fence and the gates.
-/
set_option linter.unusedTactic false
set_option linter.unreachableTactic false
set_option linter.unusedVariables false

namespace Sys2Proof.Machine

/-! ### Ops -/

theorem good_State_takeBit {o : Otp} {q : List Instr} {s : State} (h : Good o q s) : Good o q (State.takeBit s).2 := by
  unfold State.takeBit
  repeat' first
    | assumption
    | with_reducible apply good_sys
    | with_reducible apply good_flash
    | with_reducible apply good_geode
    | with_reducible apply good_cmd
    | with_reducible apply good_time
    | with_reducible apply good_wdg
    | with_reducible apply good_memi
    | with_reducible apply good_conv
    | with_reducible apply good_prot
    | with_reducible apply good_path
    | with_reducible apply good_slolos
    | with_reducible apply good_charge
    | with_reducible apply good_pendant
    | with_reducible apply good_clasp
    | with_reducible apply good_meas
    | with_reducible apply good_therm
    | with_reducible apply good_freeCtr
    | (with_reducible apply good_foldl; intro _ _ _)
    | dsimp only
    | split
    | (intro hk; (try dsimp only); repeat' first | exact hk | split)

theorem good_State_takeBit_eq {o : Otp} {q : List Instr} {s t : State}  {x0} (e : State.takeBit s = (x0, t)) (h : Good o q s) : Good o q t := by
  have := good_State_takeBit h
  rw [e] at this
  exact this

theorem good_State_takeNat {o : Otp} {q : List Instr} {s : State} (h : Good o q s) : Good o q (State.takeNat s).2 := by
  unfold State.takeNat
  repeat' first
    | assumption
    | with_reducible apply good_sys
    | with_reducible apply good_flash
    | with_reducible apply good_geode
    | with_reducible apply good_cmd
    | with_reducible apply good_time
    | with_reducible apply good_wdg
    | with_reducible apply good_memi
    | with_reducible apply good_conv
    | with_reducible apply good_prot
    | with_reducible apply good_path
    | with_reducible apply good_slolos
    | with_reducible apply good_charge
    | with_reducible apply good_pendant
    | with_reducible apply good_clasp
    | with_reducible apply good_meas
    | with_reducible apply good_therm
    | with_reducible apply good_freeCtr
    | (with_reducible apply good_foldl; intro _ _ _)
    | dsimp only
    | split
    | (intro hk; (try dsimp only); repeat' first | exact hk | split)

theorem good_State_takeNat_eq {o : Otp} {q : List Instr} {s t : State}  {x0} (e : State.takeNat s = (x0, t)) (h : Good o q s) : Good o q t := by
  have := good_State_takeNat h
  rw [e] at this
  exact this

theorem good_State_takeInt {o : Otp} {q : List Instr} {s : State} (h : Good o q s) : Good o q (State.takeInt s).2 := by
  unfold State.takeInt
  repeat' first
    | assumption
    | with_reducible apply good_sys
    | with_reducible apply good_flash
    | with_reducible apply good_geode
    | with_reducible apply good_cmd
    | with_reducible apply good_time
    | with_reducible apply good_wdg
    | with_reducible apply good_memi
    | with_reducible apply good_conv
    | with_reducible apply good_prot
    | with_reducible apply good_path
    | with_reducible apply good_slolos
    | with_reducible apply good_charge
    | with_reducible apply good_pendant
    | with_reducible apply good_clasp
    | with_reducible apply good_meas
    | with_reducible apply good_therm
    | with_reducible apply good_freeCtr
    | (with_reducible apply good_foldl; intro _ _ _)
    | dsimp only
    | split
    | (intro hk; (try dsimp only); repeat' first | exact hk | split)

theorem good_State_takeInt_eq {o : Otp} {q : List Instr} {s t : State}  {x0} (e : State.takeInt s = (x0, t)) (h : Good o q s) : Good o q t := by
  have := good_State_takeInt h
  rw [e] at this
  exact this

theorem good_State_setReady {o : Otp} {q : List Instr} {s : State} {b : Block} {v : Bool} (k : b ≠ .sys ∨ v = true)
    (h : Good o q s) : Good o q (s.setReady b v) := by
  refine good_modSys (fun hk => ⟨?_⟩) h
  have := hk.ready
  cases b <;> cases v <;> simp_all [BitVec.putBit, Block.index]

theorem good_State_trigger {o : Otp} {q : List Instr} {s : State} (h : Good o q s) : ∀ a1, Good o q (State.trigger s a1) := by
  intro a1
  unfold State.trigger
  repeat' first
    | assumption
    | with_reducible apply good_modSys
    | (with_reducible apply good_foldl; intro _ _ _)
    | dsimp only
    | split
    | (intro hk; (try dsimp only); repeat' first | exact hk | split | exact ⟨by first | exact hk.ready | simpa using hk.ready | simpa using h.inv.sys.ready⟩)

theorem good_State_recordFault {o : Otp} {q : List Instr} {s : State} (h : Good o q s) : ∀ a1 a2 a3, Good o q (State.recordFault s a1 a2 a3) := by
  intro a1 a2 a3
  unfold State.recordFault
  repeat' first
    | assumption
    | with_reducible apply good_modSys
    | (with_reducible apply good_foldl; intro _ _ _)
    | dsimp only
    | split
    | (intro hk; (try dsimp only); repeat' first | exact hk | split | exact ⟨by first | exact hk.ready | simpa using hk.ready | simpa using h.inv.sys.ready⟩)

theorem good_State_geodeSafe {o : Otp} {q : List Instr} {s : State} (h : Good o q s) : ∀ a1, Good o q (State.geodeSafe s a1) := by
  intro a1
  unfold State.geodeSafe
  repeat' first
    | assumption
    | with_reducible apply good_State_trigger
    | with_reducible apply good_State_recordFault
    | (with_reducible apply good_foldl; intro _ _ _)
    | dsimp only
    | split
    | (intro hk; (try dsimp only); repeat' first | exact hk | split)

theorem good_State_sendA {o : Otp} {q : List Instr} {s : State} (h : Good o q s) : ∀ a1, Good o q (State.sendA s a1) := by
  intro a1
  unfold State.sendA
  repeat' first
    | assumption
    | with_reducible apply good_modSlolos
    | (with_reducible apply good_foldl; intro _ _ _)
    | dsimp only
    | split
    | (intro hk; (try dsimp only); repeat' first | exact hk | split | exact ⟨by first | exact hk.ctxs | simpa using hk.ctxs | simpa using h.inv.slolos.ctxs, by first | exact hk.marker | simpa using hk.marker | simpa using h.inv.slolos.marker⟩)

theorem good_State_sendB {o : Otp} {q : List Instr} {s : State} (h : Good o q s) : ∀ a1, Good o q (State.sendB s a1) := by
  intro a1
  unfold State.sendB
  repeat' first
    | assumption
    | with_reducible apply good_modSlolos
    | (with_reducible apply good_foldl; intro _ _ _)
    | dsimp only
    | split
    | (intro hk; (try dsimp only); repeat' first | exact hk | split | exact ⟨by first | exact hk.ctxs | simpa using hk.ctxs | simpa using h.inv.slolos.ctxs, by first | exact hk.marker | simpa using hk.marker | simpa using h.inv.slolos.marker⟩)

theorem good_State_sendUp {o : Otp} {q : List Instr} {s : State} (h : Good o q s) : ∀ a1, Good o q (State.sendUp s a1) := by
  intro a1
  unfold State.sendUp
  repeat' first
    | assumption
    | with_reducible apply good_State_sendB
    | with_reducible apply good_State_sendA
    | (with_reducible apply good_foldl; intro _ _ _)
    | dsimp only
    | split
    | (intro hk; (try dsimp only); repeat' first | exact hk | split)

theorem good_State_repeatDown {o : Otp} {q : List Instr} {s : State} (h : Good o q s) : ∀ a1, Good o q (State.repeatDown s a1) := by
  intro a1
  unfold State.repeatDown
  repeat' first
    | assumption
    | with_reducible apply good_State_sendA
    | with_reducible apply good_State_sendB
    | (with_reducible apply good_foldl; intro _ _ _)
    | dsimp only
    | split
    | (intro hk; (try dsimp only); repeat' first | exact hk | split)

theorem good_State_sendDown {o : Otp} {q : List Instr} {s : State} (h : Good o q s) : ∀ a1, Good o q (State.sendDown s a1) := by
  intro a1
  unfold State.sendDown
  repeat' first
    | assumption
    | with_reducible apply good_State_sendA
    | with_reducible apply good_State_sendB
    | (with_reducible apply good_foldl; intro _ _ _)
    | dsimp only
    | split
    | (intro hk; (try dsimp only); repeat' first | exact hk | split)

theorem good_State_deliverOn {o : Otp} {q : List Instr} {s : State} (h : Good o q s) : ∀ a1 a2 a3, Good o q (State.deliverOn s a1 a2 a3) := by
  intro a1 a2 a3
  unfold State.deliverOn
  repeat' first
    | assumption
    | with_reducible apply good_modCmd
    | (with_reducible apply good_foldl; intro _ _ _)
    | dsimp only
    | split
    | (intro hk; (try dsimp only); repeat' first | exact hk | with_reducible apply sound_pushEvent | split | exact hk.of_eq rfl rfl rfl rfl rfl rfl rfl)

theorem good_State_deliver {o : Otp} {q : List Instr} {s : State} (h : Good o q s) : ∀ a1 a2, Good o q (State.deliver s a1 a2) := by
  intro a1 a2
  unfold State.deliver
  repeat' first
    | assumption
    | with_reducible apply good_State_deliverOn
    | (with_reducible apply good_foldl; intro _ _ _)
    | dsimp only
    | split
    | (intro hk; (try dsimp only); repeat' first | exact hk | split)

theorem good_State_eventUp {o : Otp} {q : List Instr} {s : State} (h : Good o q s) : ∀ a1, Good o q (State.eventUp s a1) := by
  intro a1
  unfold State.eventUp
  repeat' first
    | assumption
    | with_reducible apply good_State_sendUp
    | (with_reducible apply good_foldl; intro _ _ _)
    | dsimp only
    | split
    | (intro hk; (try dsimp only); repeat' first | exact hk | split)

theorem good_State_event {o : Otp} {q : List Instr} {s : State} (h : Good o q s) : ∀ a1 a2, Good o q (State.event s a1 a2) := by
  intro a1 a2
  unfold State.event
  repeat' first
    | assumption
    | with_reducible apply good_State_eventUp
    | with_reducible apply good_State_deliver
    | (with_reducible apply good_foldl; intro _ _ _)
    | dsimp only
    | split
    | (intro hk; (try dsimp only); repeat' first | exact hk | split)

theorem good_State_dueEvent {o : Otp} {q : List Instr} {s : State} (h : Good o q s) : ∀ a1 a2 a3, Good o q (State.dueEvent s a1 a2 a3) := by
  intro a1 a2 a3
  unfold State.dueEvent
  repeat' first
    | assumption
    | with_reducible apply good_modCmd
    | (with_reducible apply good_foldl; intro _ _ _)
    | dsimp only
    | split
    | (intro hk; (try dsimp only); repeat' first | exact hk | split | exact hk.of_eq rfl rfl rfl rfl rfl rfl rfl)

theorem good_State_dueFirst {o : Otp} {q : List Instr} {s : State} (h : Good o q s) : ∀ a1 a2 a3, Good o q (State.dueFirst s a1 a2 a3) := by
  intro a1 a2 a3
  unfold State.dueFirst
  repeat' first
    | assumption
    | with_reducible apply good_State_dueEvent
    | (with_reducible apply good_foldl; intro _ _ _)
    | dsimp only
    | split
    | (intro hk; (try dsimp only); repeat' first | exact hk | split)

theorem good_State_dueLatest {o : Otp} {q : List Instr} {s : State} (h : Good o q s) : ∀ a1 a2 a3, Good o q (State.dueLatest s a1 a2 a3) := by
  intro a1 a2 a3
  unfold State.dueLatest
  repeat' first
    | assumption
    | with_reducible apply good_modCmd
    | (with_reducible apply good_foldl; intro _ _ _)
    | dsimp only
    | split
    | (intro hk; (try dsimp only); repeat' first | exact hk | split | exact hk.of_eq rfl rfl rfl rfl rfl rfl rfl)

theorem good_State_eventsLost {o : Otp} {q : List Instr} {s : State} (h : Good o q s) (i : Nat) :
    Good o q (s.eventsLost i) := by
  unfold State.eventsLost
  split
  · refine good_modCmd (fun hk => ?_) h
    have hp := sound_pushEvent (i := i) (k := s.eventPacket 0x7F00 (le 4 (getAt s.cmd.lost i 0)))
      (n := if i = 0 then 0 else (s.cmd.can (i - 1)).eventNode) hk
    exact { hp with lost := by simpa using hk.lost }
  · exact h

theorem good_State_dropFlight {o : Otp} {q : List Instr} {s : State} (h : Good o q s) (k : FlightKey) :
    Good o q (s.dropFlight k) :=
  good_modCmd sound_dropFlight h

theorem good_State_modFlight {o : Otp} {q : List Instr} {s : State} {k : FlightKey} {g : Flight → Flight}
    (hk : ∀ f ∈ s.cmd.flights, f.key = k → (g f).key = f.key ∧ ((g f).holds 0 = true → f.holds 0 = true))
    (h : Good o q s) : Good o q (s.modFlight k g) :=
  good_modCmd (sound_modFlight hk) h

theorem good_modFlight_field {o : Otp} {q : List Instr} {s : State} {k : FlightKey} {g : Flight → Flight}
    (hk : ∀ f, (g f).key = f.key ∧ ((g f).holds 0 = true → f.holds 0 = true))
    (h : Good o q s) : Good o q (s.modFlight k g) :=
  good_State_modFlight (fun f _ _ => hk f) h

theorem good_State_sendBack {o : Otp} {q : List Instr} {s : State} (h : Good o q s) (f : Flight) (k : Packet)
    (frees : Option FlightKey) : Good o q (s.sendBack f k frees) := by
  unfold State.sendBack
  split
  · exact good_State_sendUp h _
  · split
    · exact good_modCmd (sound_sendOut rfl) h
    · exact h

theorem good_State_refuse {o : Otp} {q : List Instr} {s : State} (h : Good o q s) : ∀ a1 a2, Good o q (State.refuse s a1 a2) := by
  intro a1 a2
  unfold State.refuse
  repeat' first
    | assumption
    | with_reducible apply good_State_sendBack
    | (with_reducible apply good_foldl; intro _ _ _)
    | dsimp only
    | split
    | (intro hk; (try dsimp only); repeat' first | exact hk | split)

theorem good_State_replyFirst {o : Otp} {q : List Instr} {s : State} (h : Good o q s) : ∀ a1 a2, Good o q (State.replyFirst s a1 a2) := by
  intro a1 a2
  unfold State.replyFirst
  repeat' first
    | assumption
    | with_reducible apply good_State_sendBack
    | (with_reducible apply good_foldl; intro _ _ _)
    | dsimp only
    | split
    | (intro hk; (try dsimp only); repeat' first | exact hk | split)

theorem good_State_replyFinal {o : Otp} {q : List Instr} {s : State} (h : Good o q s) : ∀ a1 a2, Good o q (State.replyFinal s a1 a2) := by
  intro a1 a2
  unfold State.replyFinal
  repeat' first
    | assumption
    | with_reducible apply good_State_sendBack
    | with_reducible apply good_State_dropFlight
    | (with_reducible refine good_modFlight_field (fun _ => by (repeat' split) <;> first | exact ⟨rfl, id⟩ | exact ⟨rfl, fun e => by simp_all [Flight.holds]⟩) ?_)
    | (with_reducible apply good_foldl; intro _ _ _)
    | dsimp only
    | split
    | (intro hk; (try dsimp only); repeat' first | exact hk | split)

/-! ### Receipt -/

theorem good_State_closeStage {o : Otp} {q : List Instr} {s : State} (h : Good o q s) : ∀ a1, Good o q (State.closeStage s a1) := by
  intro a1
  unfold State.closeStage
  repeat' first
    | assumption
    | with_reducible apply good_State_replyFinal
    | (with_reducible refine good_modFlight_field (fun _ => by (repeat' split) <;> first | exact ⟨rfl, id⟩ | exact ⟨rfl, fun e => by simp [Flight.holds] at e ⊢; tauto⟩) ?_)
    | with_reducible apply good_State_replyFirst
    | (with_reducible apply good_foldl; intro _ _ _)
    | dsimp only
    | split
    | (intro hk; (try dsimp only); repeat' first | exact hk | split)

theorem findFlight_some {s : State} {k : FlightKey} {f : Flight} (e : s.findFlight k = some f) :
    f.key = k ∧ f ∈ s.cmd.flights := by
  unfold State.findFlight at e
  exact ⟨by simpa using List.find?_some e, List.mem_of_find?_eq_some e⟩

/-- Distinct tags make a command's key its own. -/
theorem flight_unique {c : Cmd} (h : c.Sound) {f g : Flight} (hf : f ∈ c.flights) (hg : g ∈ c.flights) (e : f.key = g.key) :
    f = g := by
  refine List.inj_on_of_nodup_map h.tags hf hg ?_
  rw [e]

theorem good_State_dieAnswer {o : Otp} {q : List Instr} {s : State} (h : Good o q s) (k : FlightKey) (a : Nat) (x : Answer) :
    Good o q (s.dieAnswer k a x) := by
  unfold State.dieAnswer
  split
  · exact h
  · rename_i f e
    obtain ⟨hk, hm⟩ := findFlight_some e
    split
    · have h1 : Good o q (s.modFlight k fun _ =>
          { f with awaited := f.awaited.filter (· ≠ a), answers := f.answers ++ [(a, x)] }) := by
        refine good_State_modFlight ?_ h
        intro g hg e'
        have : g = f := flight_unique h.inv.cmd hg hm (e'.trans hk.symm)
        rw [this]
        exact ⟨rfl, id⟩
      dsimp only
      split
      · exact good_State_closeStage h1 _
      · exact h1
    · split
      · exact good_modFlight_field (fun _ => ⟨rfl, id⟩) h
      · exact h

theorem good_State_finish {o : Otp} {q : List Instr} {s : State} (h : Good o q s) : ∀ a1 a2, Good o q (State.finish s a1 a2) := by
  intro a1 a2
  unfold State.finish
  repeat' first
    | assumption
    | with_reducible apply good_State_dieAnswer
    | with_reducible apply good_State_replyFinal
    | (with_reducible apply good_foldl; intro _ _ _)
    | dsimp only
    | split
    | (intro hk; (try dsimp only); repeat' first | exact hk | split)

theorem good_State_answerAccepted {o : Otp} {q : List Instr} {s : State} (h : Good o q s) : ∀ a1, Good o q (State.answerAccepted s a1) := by
  intro a1
  unfold State.answerAccepted
  repeat' first
    | assumption
    | with_reducible apply good_State_dieAnswer
    | with_reducible apply good_State_replyFirst
    | (with_reducible apply good_foldl; intro _ _ _)
    | dsimp only
    | split
    | (intro hk; (try dsimp only); repeat' first | exact hk | split)

theorem good_okay {o : Otp} {q : List Instr} {s : State} (h : Good o q s) : Good o q (okay s).1 := by
  unfold okay
  repeat' first
    | assumption
    | (with_reducible apply good_foldl; intro _ _ _)
    | dsimp only
    | split
    | (intro hk; (try dsimp only); repeat' first | exact hk | split)

theorem good_okay_eq {o : Otp} {q : List Instr} {s t : State}  {x1} (e : okay s = (t, x1)) (h : Good o q s) : Good o q t := by
  have := good_okay h
  rw [e] at this
  exact this

theorem good_okayWith {o : Otp} {q : List Instr} {s : State} (h : Good o q s) : ∀ a1, Good o q (okayWith s a1).1 := by
  intro a1
  unfold okayWith
  repeat' first
    | assumption
    | (with_reducible apply good_foldl; intro _ _ _)
    | dsimp only
    | split
    | (intro hk; (try dsimp only); repeat' first | exact hk | split)

theorem good_okayWith_eq {o : Otp} {q : List Instr} {s t : State} {a1} {x1} (e : okayWith s a1 = (t, x1)) (h : Good o q s) : Good o q t := by
  have := good_okayWith h a1
  rw [e] at this
  exact this

theorem good_answer {o : Otp} {q : List Instr} {s : State} (h : Good o q s) : ∀ a1, Good o q (answer s a1).1 := by
  intro a1
  unfold answer
  repeat' first
    | assumption
    | (with_reducible apply good_foldl; intro _ _ _)
    | dsimp only
    | split
    | (intro hk; (try dsimp only); repeat' first | exact hk | split)

theorem good_answer_eq {o : Otp} {q : List Instr} {s t : State} {a1} {x1} (e : answer s a1 = (t, x1)) (h : Good o q s) : Good o q t := by
  have := good_answer h a1
  rw [e] at this
  exact this

theorem good_later {o : Otp} {q : List Instr} {s : State} (h : Good o q s) : Good o q (later s).1 := by
  unfold later
  repeat' first
    | assumption
    | (with_reducible apply good_foldl; intro _ _ _)
    | dsimp only
    | split
    | (intro hk; (try dsimp only); repeat' first | exact hk | split)

theorem good_later_eq {o : Otp} {q : List Instr} {s t : State}  {x1} (e : later s = (t, x1)) (h : Good o q s) : Good o q t := by
  have := good_later h
  rw [e] at this
  exact this

/-- The execution of an opcode and what its acceptance does keep a good state. -/
structure OpSpec.Keeps (p : OpSpec) : Prop where
  run : ∀ o q s f, Good o q s → Good o q (p.run s f).1
  accept : ∀ o q s f, Good o q s → Good o q (p.accept s f)

theorem good_OpSpec_execute {o : Otp} {q : List Instr} {s : State} {p : OpSpec} (k : p.Keeps) (h : Good o q s) (f : Flight) :
    Good o q (p.execute s f) := by
  unfold OpSpec.execute
  have hr := k.run o q s f h
  split
  · exact good_State_finish h _ _
  · split
    · exact good_modFlight_field (fun _ => ⟨rfl, id⟩) h
    · split
      · rename_i e
        rw [e] at hr
        exact good_State_finish hr _ _
      · rename_i e
        rw [e] at hr
        exact good_modFlight_field (fun _ => by split <;> exact ⟨rfl, id⟩) hr

theorem good_addFlight {o : Otp} {q : List Instr} {s : State} {f : Flight} (hq : s.cmd.depth 0 < Config.queueEntries)
    (ht : ∀ g ∈ s.cmd.flights, (g.key.origin, g.key.tag) ≠ (f.key.origin, f.key.tag)) (h : Good o q s) :
    Good o q (s.modCmd fun c => { c with flights := c.flights ++ [f] }) :=
  good_modCmd (fun hk => sound_addFlight hk hq ht) h

theorem good_receiveOwn {o : Otp} {q : List Instr} {s : State} {p : OpSpec} {f : Flight} (k : p.Keeps)
    (hq : s.cmd.depth 0 < Config.queueEntries)
    (ht : ∀ g ∈ s.cmd.flights, (g.key.origin, g.key.tag) ≠ (f.key.origin, f.key.tag)) (h : Good o q s) :
    Good o q (receiveOwn p f s) := by
  unfold receiveOwn
  split
  · exact good_State_refuse h _ _
  · split
    · exact k.accept _ _ _ _ (good_addFlight hq ht h)
    · exact good_OpSpec_execute k (good_addFlight hq ht h) _

theorem good_forward {o : Otp} {q : List Instr} {s : State} {f : Flight} (hn : f.holds 0 = false)
    (ht : ∀ g ∈ s.cmd.flights, (g.key.origin, g.key.tag) ≠ (f.key.origin, f.key.tag)) (h : Good o q s) (n : Nat) :
    Good o q (forward f n s) := by
  unfold forward
  exact good_State_sendDown
    (good_modCmd (fun hk => sound_forwardFlight (f := { f with phase := .forwarded }) hk hn ht) h) _

theorem good_broadcast {o : Otp} {q : List Instr} {s : State} {p : OpSpec} {f : Flight} (k : p.Keeps)
    (hq : s.cmd.depth 0 < Config.queueEntries)
    (ht : ∀ g ∈ s.cmd.flights, (g.key.origin, g.key.tag) ≠ (f.key.origin, f.key.tag)) (h : Good o q s) :
    Good o q (broadcast p f s) := by
  unfold broadcast
  extract_lets ws g s1 s2
  have h1 : Good o q s1 := good_addFlight (f := g) hq ht h
  have h2 : Good o q s2 := good_foldl (fun _ _ h => good_State_sendDown h _) h1
  split
  · refine good_State_dieAnswer (good_modFlight_field ?_ h2) _ _ _
    exact fun _ => ⟨rfl, id⟩
  · split
    · exact k.accept _ _ _ _ h2
    · exact good_OpSpec_execute k h2 _

theorem firstOf_none {l : List (Option Answer)} (h : firstOf l = none) : ∀ x ∈ l, x = none := by
  induction l with
  | nil => simp
  | cons x l ih =>
    cases x with
    | none => simpa [firstOf] using ih h
    | some a => simp [firstOf] at h

theorem need_none {c : Bool} {a : Byte} (h : need c a = none) : c = true := by
  unfold need at h
  split at h
  · assumption
  · cases h

/-- What steps 4 to 12 of Table 06-2 leave of a request that they do not refuse. -/
theorem receiptRefusal_none {p : OpSpec} {x : Hdr} {f : Flight} {s : State} (h : receiptRefusal p x f s = none) :
    badHeader x = false ∧ badBroadcast p x s = false ∧ absentTarget x s = false ∧ (p.mqOnly && s.otp.partWq) = false
      ∧ (s.cmd.flights.any fun g => g.key.origin == x.origin && g.key.tag == x.tag.toNat) = false ∧ noTag x s = false
      ∧ badScheduling p x = false ∧ windowRefusal x s = none ∧ queueFull f s = false := by
  have hn := firstOf_none h
  simp only [List.mem_cons, List.not_mem_nil, or_false, forall_eq_or_imp, forall_eq] at hn
  obtain ⟨h1, h2, h3, h4, h5, h6, h7, h8, h9⟩ := hn
  have g1 := need_none h1
  have g2 := need_none h2
  have g3 := need_none h3
  have g4 := need_none h4
  have g5 := need_none h5
  have g6 := need_none h6
  have g7 := need_none h7
  have g9 := need_none h9
  simp only [Bool.not_eq_true'] at g1 g2 g3 g4 g5 g6 g7 g9
  exact ⟨g1, g2, g3, g4, g5, g6, g7, h8, g9⟩

theorem good_receive {o : Otp} {q : List Instr} {s : State} {p : OpSpec} (k : p.Keeps) (h : Good o q s) (x : Hdr)
    (b : List Byte) : Good o q (receive p x b s) := by
  unfold receive
  dsimp only
  have h1 : Good o q (s.modCmd fun c => c.takeInbound x p.code b) := good_modCmd sound_takeInbound h
  generalize (s.modCmd fun c => c.takeInbound x p.code b) = t at h1
  split
  · exact h1
  · split
    · exact good_State_refuse h1 _ _
    · rename_i e
      obtain ⟨-, -, ha, -, hd, -, -, -, hf⟩ := receiptRefusal_none e
      have ht : ∀ g ∈ t.cmd.flights, (g.key.origin, g.key.tag)
          ≠ ((mkFlight t x p.code b).key.origin, (mkFlight t x p.code b).key.tag) := by
        intro g hg e'
        simp only [Prod.mk.injEq, mkFlight] at e'
        have := List.any_eq_false.mp hd g hg
        simp [e'.1, e'.2] at this
      by_cases hb : (mkFlight t x p.code b).bcast = true
      · rw [if_pos hb]
        refine good_broadcast k ?_ ht h1
        simp only [queueFull, hb, if_true, List.any_cons, Bool.or_eq_false_iff, decide_eq_false_iff_not] at hf
        omega
      · rw [if_neg hb]
        simp only [queueFull, hb, Bool.false_eq_true, if_false, decide_eq_false_iff_not] at hf
        split
        · rename_i ho
          refine good_receiveOwn k ?_ ht h1
          have : (mkFlight t x p.code b).target = 0 := by
            simp only [ownTarget, Bool.or_eq_true, beq_iff_eq, Bool.and_eq_true] at ho
            simp only [mkFlight]
            rcases ho with ho | ho
            · simp [ho]
            · simp [ho.1.1]
          rw [this] at hf
          omega
        · rename_i ho
          refine good_forward ?_ ht h1 _
          simp only [absentTarget, ho, Bool.not_false, Bool.true_and, Bool.not_eq_false', Bool.and_eq_true] at ha
          have hw : t.isWorker = false := by
            have := ha.1
            simp only [State.isManager, State.isWorker, beq_iff_eq] at this ⊢
            rw [this]; rfl
          have := ha.2
          simp only [State.enumerated, Bool.and_eq_true, ne_eq, decide_eq_true_eq] at this
          simp [mkFlight, hw, Flight.holds, this.1]

theorem good_State_place {o : Otp} {q : List Instr} {s : State} (h : Good o q s) : ∀ a1, Good o q (State.place s a1) := by
  intro a1
  unfold State.place
  repeat' first
    | assumption
    | with_reducible apply good_modConv
    | with_reducible apply good_modCharge
    | with_reducible apply good_modPath
    | with_reducible apply good_modMeas
    | with_reducible apply good_modTherm
    | (with_reducible apply good_foldl; intro _ _ _)
    | dsimp only
    | split
    | (intro hk; (try dsimp only); repeat' first | exact hk | split | exact ⟨by first | exact hk.lanes | simpa using hk.lanes | simpa using h.inv.conv.lanes, by first | exact hk.legs | simpa using hk.legs | simpa using h.inv.conv.legs, by first | exact hk.decims | simpa using hk.decims | simpa using h.inv.conv.decims⟩ | exact ⟨by first | exact hk.chans | simpa using hk.chans | simpa using h.inv.path.chans, by first | exact hk.shares | simpa using hk.shares | simpa using h.inv.path.shares⟩ | exact ⟨by first | exact hk.strands | simpa using hk.strands | simpa using h.inv.charge.strands⟩ | exact ⟨by first | exact hk.adcs | simpa using hk.adcs | simpa using h.inv.meas.adcs, by first | exact hk.accs | simpa using hk.accs | simpa using h.inv.meas.accs, by first | exact hk.trks | simpa using hk.trks | simpa using h.inv.meas.trks⟩ | exact ⟨by first | exact hk.ext | simpa using hk.ext | simpa using h.inv.therm.ext, by first | exact hk.batt | simpa using hk.batt | simpa using h.inv.therm.batt⟩)

theorem good_State_ahead {o : Otp} {q : List Instr} {s : State} (h : Good o q s) : ∀ a1, Good o q (State.ahead s a1) := by
  intro a1
  unfold State.ahead
  repeat' first
    | assumption
    | with_reducible apply good_State_place
    | (with_reducible apply good_foldl; intro _ _ _)
    | dsimp only
    | split
    | (intro hk; (try dsimp only); repeat' first | exact hk | split)

theorem good_State_endWaiting {o : Otp} {q : List Instr} {s : State} (h : Good o q s) : ∀ a1 a2, Good o q (State.endWaiting s a1 a2) := by
  intro a1 a2
  unfold State.endWaiting
  repeat' first
    | assumption
    | with_reducible apply good_State_finish
    | (with_reducible apply good_foldl; intro _ _ _)
    | dsimp only
    | split
    | (intro hk; (try dsimp only); repeat' first | exact hk | split)

theorem good_State_loseQueue {o : Otp} {q : List Instr} {s : State} (h : Good o q s) : ∀ a1, Good o q (State.loseQueue s a1) := by
  intro a1
  unfold State.loseQueue
  repeat' first
    | assumption
    | with_reducible apply good_State_replyFinal
    | with_reducible apply good_State_dieAnswer
    | (with_reducible refine good_modFlight_field (fun _ => by (repeat' split) <;> first | exact ⟨rfl, id⟩ | exact ⟨rfl, fun e => by simp [Flight.holds] at e ⊢; tauto⟩) ?_)
    | (with_reducible apply good_foldl; intro _ _ _)
    | dsimp only
    | split
    | (intro hk; (try dsimp only); repeat' first | exact hk | split)

/-! ### Fence -/

theorem good_State_countClamps {o : Otp} {q : List Instr} {s : State} (h : Good o q s) : ∀ a1 a2, Good o q (State.countClamps s a1 a2) := by
  intro a1 a2
  unfold State.countClamps
  repeat' first
    | assumption
    | with_reducible apply good_modGeode
    | (with_reducible apply good_foldl; intro _ _ _)
    | dsimp only
    | split
    | (intro hk; (try dsimp only); repeat' first | exact hk | split)

theorem good_State_clampTo {o : Otp} {q : List Instr} {s : State} (h : Good o q s) : ∀ a1 a2 a3, Good o q (State.clampTo s a1 a2 a3).2 := by
  intro a1 a2 a3
  unfold State.clampTo
  repeat' first
    | assumption
    | with_reducible apply good_State_countClamps
    | (with_reducible apply good_foldl; intro _ _ _)
    | dsimp only
    | split
    | (intro hk; (try dsimp only); repeat' first | exact hk | split)

theorem good_State_clampTo_eq {o : Otp} {q : List Instr} {s t : State} {a1} {a2} {a3} {x0} (e : State.clampTo s a1 a2 a3 = (x0, t)) (h : Good o q s) : Good o q t := by
  have := good_State_clampTo h a1 a2 a3
  rw [e] at this
  exact this

theorem good_State_clampMax {o : Otp} {q : List Instr} {s : State} (h : Good o q s) : ∀ a1 a2 a3, Good o q (State.clampMax s a1 a2 a3).2 := by
  intro a1 a2 a3
  unfold State.clampMax
  repeat' first
    | assumption
    | with_reducible apply good_State_clampTo
    | with_reducible refine good_State_clampTo_eq (by assumption) ?_
    | (with_reducible apply good_foldl; intro _ _ _)
    | dsimp only
    | split
    | (intro hk; (try dsimp only); repeat' first | exact hk | split)

theorem good_State_clampMax_eq {o : Otp} {q : List Instr} {s t : State} {a1} {a2} {a3} {x0} (e : State.clampMax s a1 a2 a3 = (x0, t)) (h : Good o q s) : Good o q t := by
  have := good_State_clampMax h a1 a2 a3
  rw [e] at this
  exact this

theorem good_State_clampCoeff {o : Otp} {q : List Instr} {s : State} (h : Good o q s) : ∀ a1 a2 a3 a4, Good o q (State.clampCoeff s a1 a2 a3 a4).2 := by
  intro a1 a2 a3 a4
  unfold State.clampCoeff
  repeat' first
    | assumption
    | with_reducible apply good_State_countClamps
    | (with_reducible apply good_foldl; intro _ _ _)
    | dsimp only
    | split
    | (intro hk; (try dsimp only); repeat' first | exact hk | split)

theorem good_State_clampCoeff_eq {o : Otp} {q : List Instr} {s t : State} {a1} {a2} {a3} {a4} {x0} (e : State.clampCoeff s a1 a2 a3 a4 = (x0, t)) (h : Good o q s) : Good o q t := by
  have := good_State_clampCoeff h a1 a2 a3 a4
  rw [e] at this
  exact this

theorem good_State_fenceEvent {o : Otp} {q : List Instr} {s : State} (h : Good o q s) : ∀ a1, Good o q (State.fenceEvent s a1) := by
  intro a1
  unfold State.fenceEvent
  repeat' first
    | assumption
    | with_reducible apply good_modGeode
    | with_reducible apply good_State_event
    | (with_reducible apply good_foldl; intro _ _ _)
    | dsimp only
    | split
    | (intro hk; (try dsimp only); repeat' first | exact hk | split)

/-! ### Gates -/

theorem good_State_modLane {o : Otp} {q : List Instr} {s : State} (h : Good o q s) : ∀ a1 a2, Good o q (State.modLane s a1 a2) := by
  intro a1 a2
  unfold State.modLane
  repeat' first
    | assumption
    | with_reducible apply good_modConv
    | (with_reducible apply good_foldl; intro _ _ _)
    | dsimp only
    | split
    | (intro hk; (try dsimp only); repeat' first | exact hk | split | exact ⟨by first | exact hk.lanes | simpa using hk.lanes | simpa using h.inv.conv.lanes, by first | exact hk.legs | simpa using hk.legs | simpa using h.inv.conv.legs, by first | exact hk.decims | simpa using hk.decims | simpa using h.inv.conv.decims⟩)

theorem good_State_modLegs {o : Otp} {q : List Instr} {s : State} (h : Good o q s) : ∀ a1 a2, Good o q (State.modLegs s a1 a2) := by
  intro a1 a2
  unfold State.modLegs
  repeat' first
    | assumption
    | with_reducible apply good_modConv
    | (with_reducible apply good_foldl; intro _ _ _)
    | dsimp only
    | split
    | (intro hk; (try dsimp only); repeat' first | exact hk | split | exact ⟨by first | exact hk.lanes | simpa using hk.lanes | simpa using h.inv.conv.lanes, by first | exact hk.legs | simpa using hk.legs | simpa using h.inv.conv.legs, by first | exact hk.decims | simpa using hk.decims | simpa using h.inv.conv.decims⟩)

theorem good_State_gatesLow {o : Otp} {q : List Instr} {s : State} (h : Good o q s) : ∀ a1, Good o q (State.gatesLow s a1) := by
  intro a1
  unfold State.gatesLow
  repeat' first
    | assumption
    | with_reducible apply good_State_modLegs
    | (with_reducible apply good_foldl; intro _ _ _)
    | dsimp only
    | split
    | (intro hk; (try dsimp only); repeat' first | exact hk | split)

theorem good_State_endPulses {o : Otp} {q : List Instr} {s : State} (h : Good o q s) : ∀ a1, Good o q (State.endPulses s a1) := by
  intro a1
  unfold State.endPulses
  repeat' first
    | assumption
    | with_reducible apply good_State_modLegs
    | (with_reducible apply good_foldl; intro _ _ _)
    | dsimp only
    | split
    | (intro hk; (try dsimp only); repeat' first | exact hk | split)

theorem good_State_modeEvent {o : Otp} {q : List Instr} {s : State} (h : Good o q s) : ∀ a1 a2 a3, Good o q (State.modeEvent s a1 a2 a3) := by
  intro a1 a2 a3
  unfold State.modeEvent
  repeat' first
    | assumption
    | with_reducible apply good_State_dueFirst
    | (with_reducible apply good_foldl; intro _ _ _)
    | dsimp only
    | split
    | (intro hk; (try dsimp only); repeat' first | exact hk | split)

theorem good_State_pendantEnd {o : Otp} {q : List Instr} {s : State} (h : Good o q s) : ∀ a1 a2, Good o q (State.pendantEnd s a1 a2) := by
  intro a1 a2
  unfold State.pendantEnd
  repeat' first
    | assumption
    | with_reducible apply good_modPendant
    | with_reducible apply good_State_dueEvent
    | (with_reducible apply good_foldl; intro _ _ _)
    | dsimp only
    | split
    | (intro hk; (try dsimp only); repeat' first | exact hk | split)

theorem good_State_pendantAim {o : Otp} {q : List Instr} {s : State} (h : Good o q s) : Good o q (State.pendantAim s) := by
  unfold State.pendantAim
  repeat' first
    | assumption
    | with_reducible apply good_modPendant
    | (with_reducible apply good_foldl; intro _ _ _)
    | dsimp only
    | split
    | (intro hk; (try dsimp only); repeat' first | exact hk | split)

theorem good_State_pendantLanes {o : Otp} {q : List Instr} {s : State} (h : Good o q s) : ∀ a1 a2, Good o q (State.pendantLanes s a1 a2) := by
  intro a1 a2
  unfold State.pendantLanes
  repeat' first
    | assumption
    | with_reducible apply good_State_pendantEnd
    | with_reducible apply good_State_pendantAim
    | (with_reducible apply good_foldl; intro _ _ _)
    | dsimp only
    | split
    | (intro hk; (try dsimp only); repeat' first | exact hk | split)

theorem good_State_setMode {o : Otp} {q : List Instr} {s : State} (h : Good o q s) : ∀ a1 a2, Good o q (State.setMode s a1 a2) := by
  intro a1 a2
  unfold State.setMode
  repeat' first
    | assumption
    | with_reducible apply good_State_modeEvent
    | with_reducible apply good_State_modLane
    | with_reducible apply good_modProt
    | with_reducible apply good_modConv
    | with_reducible apply good_State_pendantLanes
    | (with_reducible apply good_foldl; intro _ _ _)
    | dsimp only
    | split
    | (intro hk; (try dsimp only); repeat' first | exact hk | with_reducible apply sound_Conv_unlock | split | exact ⟨by first | exact hk.lanes | simpa using hk.lanes | simpa using h.inv.conv.lanes, by first | exact hk.legs | simpa using hk.legs | simpa using h.inv.conv.legs, by first | exact hk.decims | simpa using hk.decims | simpa using h.inv.conv.decims⟩ | exact ⟨by first | exact hk.echo | simpa using hk.echo | simpa using h.inv.prot.echo, by first | exact hk.crowbars | simpa using hk.crowbars | simpa using h.inv.prot.crowbars⟩)

theorem good_State_stopLane {o : Otp} {q : List Instr} {s : State} (h : Good o q s) : ∀ a1, Good o q (State.stopLane s a1) := by
  intro a1
  unfold State.stopLane
  repeat' first
    | assumption
    | with_reducible apply good_State_modLane
    | with_reducible apply good_State_setMode
    | with_reducible apply good_State_endPulses
    | (with_reducible apply good_foldl; intro _ _ _)
    | dsimp only
    | split
    | (intro hk; (try dsimp only); repeat' first | exact hk | split)

theorem good_State_stopNow {o : Otp} {q : List Instr} {s : State} (h : Good o q s) : ∀ a1, Good o q (State.stopNow s a1) := by
  intro a1
  unfold State.stopNow
  repeat' first
    | assumption
    | with_reducible apply good_State_stopLane
    | with_reducible apply good_State_modLane
    | (with_reducible apply good_foldl; intro _ _ _)
    | dsimp only
    | split
    | (intro hk; (try dsimp only); repeat' first | exact hk | split)

theorem good_State_announce {o : Otp} {q : List Instr} {s : State} (h : Good o q s) : ∀ a1, Good o q (State.announce s a1) := by
  intro a1
  unfold State.announce
  repeat' first
    | assumption
    | with_reducible apply good_modProt
    | with_reducible apply good_State_sendUp
    | (with_reducible apply good_foldl; intro _ _ _)
    | dsimp only
    | split
    | (intro hk; (try dsimp only); repeat' first | exact hk | split | exact ⟨by first | exact hk.echo | simpa using hk.echo | simpa using h.inv.prot.echo, by first | exact hk.crowbars | simpa using hk.crowbars | simpa using h.inv.prot.crowbars⟩)

theorem good_State_recordClassAs {o : Otp} {q : List Instr} {s : State} (h : Good o q s) : ∀ a1 a2 a3 a4 a5 a6, Good o q (State.recordClassAs s a1 a2 a3 a4 a5 a6) := by
  intro a1 a2 a3 a4 a5 a6
  unfold State.recordClassAs
  repeat' first
    | assumption
    | with_reducible apply good_modProt
    | with_reducible apply good_State_announce
    | with_reducible apply good_State_recordFault
    | (with_reducible apply good_foldl; intro _ _ _)
    | dsimp only
    | split
    | (intro hk; (try dsimp only); repeat' first | exact hk | split | exact ⟨by first | exact hk.echo | simpa using hk.echo | simpa using h.inv.prot.echo, by first | exact hk.crowbars | simpa using hk.crowbars | simpa using h.inv.prot.crowbars⟩)

theorem good_State_recordClass {o : Otp} {q : List Instr} {s : State} (h : Good o q s) : ∀ a1 a2 a3 a4 a5, Good o q (State.recordClass s a1 a2 a3 a4 a5) := by
  intro a1 a2 a3 a4 a5
  unfold State.recordClass
  repeat' first
    | assumption
    | with_reducible apply good_State_recordClassAs
    | (with_reducible apply good_foldl; intro _ _ _)
    | dsimp only
    | split
    | (intro hk; (try dsimp only); repeat' first | exact hk | split)

theorem good_State_recordProt {o : Otp} {q : List Instr} {s : State} (h : Good o q s) : ∀ a1 a2 a3 a4, Good o q (State.recordProt s a1 a2 a3 a4) := by
  intro a1 a2 a3 a4
  unfold State.recordProt
  repeat' first
    | assumption
    | with_reducible apply good_State_recordClass
    | (with_reducible apply good_foldl; intro _ _ _)
    | dsimp only
    | split
    | (intro hk; (try dsimp only); repeat' first | exact hk | split)

theorem good_State_hiccup {o : Otp} {q : List Instr} {s : State} (h : Good o q s) : ∀ a1 a2, Good o q (State.hiccup s a1 a2) := by
  intro a1 a2
  unfold State.hiccup
  repeat' first
    | assumption
    | with_reducible apply good_State_recordProt
    | with_reducible apply good_State_setMode
    | with_reducible apply good_State_gatesLow
    | with_reducible apply good_State_modLane
    | (with_reducible apply good_foldl; intro _ _ _)
    | dsimp only
    | split
    | (intro hk; (try dsimp only); repeat' first | exact hk | split)

theorem good_State_modChan {o : Otp} {q : List Instr} {s : State} (h : Good o q s) : ∀ a1 a2, Good o q (State.modChan s a1 a2) := by
  intro a1 a2
  unfold State.modChan
  repeat' first
    | assumption
    | with_reducible apply good_modPath
    | (with_reducible apply good_foldl; intro _ _ _)
    | dsimp only
    | split
    | (intro hk; (try dsimp only); repeat' first | exact hk | split | exact ⟨by first | exact hk.chans | simpa using hk.chans | simpa using h.inv.path.chans, by first | exact hk.shares | simpa using hk.shares | simpa using h.inv.path.shares⟩)

theorem good_State_setChan {o : Otp} {q : List Instr} {s : State} (h : Good o q s) : ∀ a1 a2 a3, Good o q (State.setChan s a1 a2 a3) := by
  intro a1 a2 a3
  unfold State.setChan
  repeat' first
    | assumption
    | with_reducible apply good_State_dueFirst
    | with_reducible apply good_State_modChan
    | (with_reducible apply good_foldl; intro _ _ _)
    | dsimp only
    | split
    | (intro hk; (try dsimp only); repeat' first | exact hk | split)

theorem good_State_bz4LanesTrip {o : Otp} {q : List Instr} {s : State} (h : Good o q s) : ∀ a1, Good o q (State.bz4LanesTrip s a1) := by
  intro a1
  unfold State.bz4LanesTrip
  repeat' first
    | assumption
    | with_reducible apply good_State_hiccup
    | (with_reducible apply good_foldl; intro _ _ _)
    | dsimp only
    | split
    | (intro hk; (try dsimp only); repeat' first | exact hk | split)

theorem good_State_ovOpenBz4 {o : Otp} {q : List Instr} {s : State} (h : Good o q s) : ∀ a1, Good o q (State.ovOpenBz4 s a1) := by
  intro a1
  unfold State.ovOpenBz4
  repeat' first
    | assumption
    | with_reducible apply good_State_bz4LanesTrip
    | with_reducible apply good_State_setChan
    | (with_reducible apply good_foldl; intro _ _ _)
    | dsimp only
    | split
    | (intro hk; (try dsimp only); repeat' first | exact hk | split)

theorem good_State_lowSidesOn {o : Otp} {q : List Instr} {s : State} (h : Good o q s) : ∀ a1, Good o q (State.lowSidesOn s a1) := by
  intro a1
  unfold State.lowSidesOn
  repeat' first
    | assumption
    | with_reducible apply good_State_modLegs
    | (with_reducible apply good_foldl; intro _ _ _)
    | dsimp only
    | split
    | (intro hk; (try dsimp only); repeat' first | exact hk | split)

theorem good_State_crowbar {o : Otp} {q : List Instr} {s : State} (h : Good o q s) : ∀ a1 a2, Good o q (State.crowbar s a1 a2) := by
  intro a1 a2
  unfold State.crowbar
  repeat' first
    | assumption
    | with_reducible apply good_State_modLane
    | with_reducible apply good_State_setMode
    | with_reducible apply good_State_gatesLow
    | with_reducible apply good_modProt
    | with_reducible apply good_State_lowSidesOn
    | with_reducible apply good_State_ovOpenBz4
    | (with_reducible apply good_foldl; intro _ _ _)
    | dsimp only
    | split
    | (intro hk; (try dsimp only); repeat' first | exact hk | split | exact ⟨by first | exact hk.echo | simpa using hk.echo | simpa using h.inv.prot.echo, by first | exact hk.crowbars | simpa using hk.crowbars | simpa using h.inv.prot.crowbars⟩)

theorem good_State_overVoltage {o : Otp} {q : List Instr} {s : State} (h : Good o q s) : ∀ a1 a2 a3 a4, Good o q (State.overVoltage s a1 a2 a3 a4) := by
  intro a1 a2 a3 a4
  unfold State.overVoltage
  repeat' first
    | assumption
    | with_reducible apply good_State_recordProt
    | with_reducible apply good_State_crowbar
    | (with_reducible apply good_foldl; intro _ _ _)
    | dsimp only
    | split
    | (intro hk; (try dsimp only); repeat' first | exact hk | split)

theorem good_State_divert {o : Otp} {q : List Instr} {s : State} (h : Good o q s) : ∀ a1 a2, Good o q (State.divert s a1 a2) := by
  intro a1 a2
  unfold State.divert
  repeat' first
    | assumption
    | with_reducible apply good_State_recordProt
    | with_reducible apply good_State_modLegs
    | with_reducible apply good_modProt
    | (with_reducible apply good_foldl; intro _ _ _)
    | dsimp only
    | split
    | (intro hk; (try dsimp only); repeat' first | exact hk | split | exact ⟨by first | exact hk.echo | simpa using hk.echo | simpa using h.inv.prot.echo, by first | exact hk.crowbars | simpa using hk.crowbars | simpa using h.inv.prot.crowbars⟩)

theorem good_State_driverFault {o : Otp} {q : List Instr} {s : State} (h : Good o q s) : ∀ a1, Good o q (State.driverFault s a1) := by
  intro a1
  unfold State.driverFault
  repeat' first
    | assumption
    | with_reducible apply good_State_recordProt
    | with_reducible apply good_State_modLegs
    | with_reducible apply good_modProt
    | (with_reducible apply good_foldl; intro _ _ _)
    | dsimp only
    | split
    | (intro hk; (try dsimp only); repeat' first | exact hk | split | exact ⟨by first | exact hk.echo | simpa using hk.echo | simpa using h.inv.prot.echo, by first | exact hk.crowbars | simpa using hk.crowbars | simpa using h.inv.prot.crowbars⟩)

theorem good_State_armDflt {o : Otp} {q : List Instr} {s : State} (h : Good o q s) : Good o q (State.armDflt s) := by
  unfold State.armDflt
  repeat' first
    | assumption
    | with_reducible apply good_State_driverFault
    | (with_reducible apply good_foldl; intro _ _ _)
    | dsimp only
    | split
    | (intro hk; (try dsimp only); repeat' first | exact hk | split)

/-! ### ClaspPort -/

theorem good_State_modPort {o : Otp} {q : List Instr} {s : State} (h : Good o q s) : ∀ a1 a2, Good o q (State.modPort s a1 a2) := by
  intro a1 a2
  unfold State.modPort
  repeat' first
    | with_reducible assumption
    | with_reducible apply good_modClasp
    | (with_reducible apply good_foldl; intro _ _ _)
    | dsimp only
    | split
    | (intro hk; (try dsimp only); repeat' first | exact hk | split | exact ⟨by first | exact hk.ports | simpa using hk.ports | simpa using h.inv.clasp.ports⟩)

theorem good_State_setPort {o : Otp} {q : List Instr} {s : State} (h : Good o q s) : ∀ a1 a2 a3, Good o q (State.setPort s a1 a2 a3) := by
  intro a1 a2 a3
  unfold State.setPort
  repeat' first
    | with_reducible assumption
    | with_reducible apply good_State_dueFirst
    | with_reducible apply good_State_modPort
    | (with_reducible apply good_foldl; intro _ _ _)
    | dsimp only
    | split
    | (intro hk; (try dsimp only); repeat' first | exact hk | split)

theorem good_State_contractEvent {o : Otp} {q : List Instr} {s : State} (h : Good o q s) : ∀ a1 a2 a3 a4, Good o q (State.contractEvent s a1 a2 a3 a4) := by
  intro a1 a2 a3 a4
  unfold State.contractEvent
  repeat' first
    | with_reducible assumption
    | with_reducible apply good_State_dueEvent
    | (with_reducible apply good_foldl; intro _ _ _)
    | dsimp only
    | split
    | (intro hk; (try dsimp only); repeat' first | exact hk | split)

theorem good_State_jsEvent {o : Otp} {q : List Instr} {s : State} (h : Good o q s) : ∀ a1, Good o q (State.jsEvent s a1) := by
  intro a1
  unfold State.jsEvent
  repeat' first
    | with_reducible assumption
    | with_reducible apply good_State_dueEvent
    | (with_reducible apply good_foldl; intro _ _ _)
    | dsimp only
    | split
    | (intro hk; (try dsimp only); repeat' first | exact hk | split)

theorem good_State_setJs {o : Otp} {q : List Instr} {s : State} (h : Good o q s) : ∀ a1 a2 a3, Good o q (State.setJs s a1 a2 a3) := by
  intro a1 a2 a3
  unfold State.setJs
  repeat' first
    | with_reducible assumption
    | with_reducible apply good_State_jsEvent
    | with_reducible apply good_State_modPort
    | (with_reducible apply good_foldl; intro _ _ _)
    | dsimp only
    | split
    | (intro hk; (try dsimp only); repeat' first | exact hk | split)

theorem good_State_portSend {o : Otp} {q : List Instr} {s : State} (h : Good o q s) : ∀ a1 a2 a3, Good o q (State.portSend s a1 a2 a3) := by
  intro a1 a2 a3
  unfold State.portSend
  repeat' first
    | with_reducible assumption
    | with_reducible apply good_State_modPort
    | (with_reducible apply good_foldl; intro _ _ _)
    | dsimp only
    | split
    | (intro hk; (try dsimp only); repeat' first | exact hk | split)

theorem good_State_portHold {o : Otp} {q : List Instr} {s : State} (h : Good o q s) : ∀ a1 a2, Good o q (State.portHold s a1 a2) := by
  intro a1 a2
  unfold State.portHold
  repeat' first
    | with_reducible assumption
    | with_reducible apply good_State_modPort
    | with_reducible apply good_State_setPort
    | with_reducible apply good_State_contractEvent
    | (with_reducible apply good_foldl; intro _ _ _)
    | dsimp only
    | split
    | (intro hk; (try dsimp only); repeat' first | exact hk | split)

theorem good_State_sendHold {o : Otp} {q : List Instr} {s : State} (h : Good o q s) : ∀ a1 a2, Good o q (State.sendHold s a1 a2) := by
  intro a1 a2
  unfold State.sendHold
  repeat' first
    | with_reducible assumption
    | with_reducible apply good_State_modPort
    | with_reducible apply good_State_portSend
    | with_reducible apply good_State_portHold
    | (with_reducible apply good_foldl; intro _ _ _)
    | dsimp only
    | split
    | (intro hk; (try dsimp only); repeat' first | exact hk | split)

theorem good_State_portRecover {o : Otp} {q : List Instr} {s : State} (h : Good o q s) : ∀ a1 a2, Good o q (State.portRecover s a1 a2) := by
  intro a1 a2
  unfold State.portRecover
  repeat' first
    | with_reducible assumption
    | with_reducible apply good_State_setPort
    | with_reducible apply good_State_contractEvent
    | with_reducible apply good_State_modPort
    | with_reducible apply good_State_setJs
    | (with_reducible apply good_foldl; intro _ _ _)
    | dsimp only
    | split
    | (intro hk; (try dsimp only); repeat' first | exact hk | split)

theorem good_State_tieOpened {o : Otp} {q : List Instr} {s : State} (h : Good o q s) : ∀ a1, Good o q (State.tieOpened s a1) := by
  intro a1
  unfold State.tieOpened
  repeat' first
    | with_reducible assumption
    | with_reducible apply good_State_modPort
    | (with_reducible apply good_foldl; intro _ _ _)
    | dsimp only
    | split
    | (intro hk; (try dsimp only); repeat' first | exact hk | split)

theorem good_State_tieLocked {o : Otp} {q : List Instr} {s : State} (h : Good o q s) : ∀ a1, Good o q (State.tieLocked s a1) := by
  intro a1
  unfold State.tieLocked
  repeat' first
    | with_reducible assumption
    | with_reducible apply good_State_sendHold
    | (with_reducible apply good_foldl; intro _ _ _)
    | dsimp only
    | split
    | (intro hk; (try dsimp only); repeat' first | exact hk | split)

theorem good_State_tieClosed {o : Otp} {q : List Instr} {s : State} (h : Good o q s) : ∀ a1, Good o q (State.tieClosed s a1) := by
  intro a1
  unfold State.tieClosed
  repeat' first
    | with_reducible assumption
    | with_reducible apply good_State_modPort
    | with_reducible apply good_State_portSend
    | (with_reducible apply good_foldl; intro _ _ _)
    | dsimp only
    | split
    | (intro hk; (try dsimp only); repeat' first | exact hk | split)

theorem good_State_portStart {o : Otp} {q : List Instr} {s : State} (h : Good o q s) : ∀ a1, Good o q (State.portStart s a1) := by
  intro a1
  unfold State.portStart
  repeat' first
    | with_reducible assumption
    | with_reducible apply good_State_contractEvent
    | with_reducible apply good_State_modPort
    | with_reducible apply good_State_setPort
    | with_reducible apply good_State_setJs
    | (with_reducible apply good_foldl; intro _ _ _)
    | dsimp only
    | split
    | (intro hk; (try dsimp only); repeat' first | exact hk | split)

theorem good_State_claspStart {o : Otp} {q : List Instr} {s : State} (h : Good o q s) : Good o q (State.claspStart s) := by
  unfold State.claspStart
  repeat' first
    | with_reducible assumption
    | with_reducible apply good_State_portStart
    | (with_reducible apply good_foldl; intro _ _ _)
    | dsimp only
    | split
    | (intro hk; (try dsimp only); repeat' first | exact hk | split)

theorem good_State_claspReady {o : Otp} {q : List Instr} {s : State} (h : Good o q s) : Good o q (State.claspReady s) := by
  unfold State.claspReady
  repeat' first
    | with_reducible assumption
    | with_reducible apply good_modClasp
    | (with_reducible apply good_foldl; intro _ _ _)
    | dsimp only
    | split
    | (intro hk; (try dsimp only); repeat' first | exact hk | split | exact ⟨by first | exact hk.ports | simpa using hk.ports | simpa using h.inv.clasp.ports⟩)

end Sys2Proof.Machine
end

