-- ==== Sys2Proof/Laws/SoundPower.lean ====
section
/-!
SUPPORT. Every function keeps a good state (`Good`): Bezel, conversion, protection, measurement and thermal.
-/
set_option linter.unusedTactic false
set_option linter.unreachableTactic false
set_option linter.unusedVariables false

namespace Sys2Proof.Machine

/-! ### Bezel -/

theorem good_State_recordBezel {o : Otp} {q : List Instr} {s : State} (h : Good o q s) : ∀ a1 a2 a3 a4, Good o q (State.recordBezel s a1 a2 a3 a4) := by
  intro a1 a2 a3 a4
  unfold State.recordBezel
  repeat' first
    | with_reducible assumption
    | with_reducible apply good_State_recordClass
    | with_reducible apply good_State_modChan
    | (with_reducible apply good_foldl; intro _ _ _)
    | dsimp only
    | split
    | (intro hk; (try dsimp only); repeat' first | exact hk | split)

theorem good_State_openTrip {o : Otp} {q : List Instr} {s : State} (h : Good o q s) : ∀ a1 a2, Good o q (State.openTrip s a1 a2) := by
  intro a1 a2
  unfold State.openTrip
  repeat' first
    | with_reducible assumption
    | with_reducible apply good_State_setChan
    | with_reducible apply good_State_bz4LanesTrip
    | with_reducible apply good_State_tieLocked
    | (with_reducible apply good_foldl; intro _ _ _)
    | dsimp only
    | split
    | (intro hk; (try dsimp only); repeat' first | exact hk | split)

theorem good_State_bezelTrip {o : Otp} {q : List Instr} {s : State} (h : Good o q s) : ∀ a1 a2 a3 a4, Good o q (State.bezelTrip s a1 a2 a3 a4) := by
  intro a1 a2 a3 a4
  unfold State.bezelTrip
  repeat' first
    | with_reducible assumption
    | with_reducible apply good_State_recordBezel
    | with_reducible apply good_State_openTrip
    | (with_reducible apply good_foldl; intro _ _ _)
    | dsimp only
    | split
    | (intro hk; (try dsimp only); repeat' first | exact hk | split)

theorem good_State_slowSample {o : Otp} {q : List Instr} {s : State} (h : Good o q s) : ∀ a1 a2, Good o q (State.slowSample s a1 a2) := by
  intro a1 a2
  unfold State.slowSample
  repeat' first
    | with_reducible assumption
    | with_reducible apply good_State_modChan
    | with_reducible apply good_State_bezelTrip
    | (with_reducible apply good_foldl; intro _ _ _)
    | dsimp only
    | split
    | (intro hk; (try dsimp only); repeat' first | exact hk | split)

theorem good_State_slowSamples {o : Otp} {q : List Instr} {s : State} (h : Good o q s) : ∀ a1 a2, Good o q (State.slowSamples s a1 a2) := by
  intro a1 a2
  unfold State.slowSamples
  repeat' first
    | with_reducible assumption
    | with_reducible apply good_State_slowSample
    | (with_reducible apply good_foldl; intro _ _ _)
    | dsimp only
    | split
    | (intro hk; (try dsimp only); repeat' first | exact hk | split)

theorem good_State_fbQualified {o : Otp} {q : List Instr} {s : State} (h : Good o q s) : ∀ a1, Good o q (State.fbQualified s a1) := by
  intro a1
  unfold State.fbQualified
  repeat' first
    | with_reducible assumption
    | with_reducible apply good_State_tieClosed
    | with_reducible apply good_State_setChan
    | with_reducible apply good_State_openTrip
    | with_reducible apply good_State_recordBezel
    | with_reducible apply good_State_tieOpened
    | with_reducible apply good_State_modChan
    | with_reducible apply good_State_tieLocked
    | (with_reducible apply good_foldl; intro _ _ _)
    | dsimp only
    | split
    | (intro hk; (try dsimp only); repeat' first | exact hk | split)

theorem good_State_closeChan {o : Otp} {q : List Instr} {s : State} (h : Good o q s) : ∀ a1, Good o q (State.closeChan s a1) := by
  intro a1
  unfold State.closeChan
  repeat' first
    | with_reducible assumption
    | with_reducible apply good_State_setChan
    | with_reducible apply good_State_modChan
    | (with_reducible apply good_foldl; intro _ _ _)
    | dsimp only
    | split
    | (intro hk; (try dsimp only); repeat' first | exact hk | split)

theorem good_State_openChan {o : Otp} {q : List Instr} {s : State} (h : Good o q s) : ∀ a1, Good o q (State.openChan s a1) := by
  intro a1
  unfold State.openChan
  repeat' first
    | with_reducible assumption
    | with_reducible apply good_State_setChan
    | (with_reducible apply good_foldl; intro _ _ _)
    | dsimp only
    | split
    | (intro hk; (try dsimp only); repeat' first | exact hk | split)

theorem good_State_tiePulled {o : Otp} {q : List Instr} {s : State} (h : Good o q s) : ∀ a1, Good o q (State.tiePulled s a1) := by
  intro a1
  unfold State.tiePulled
  repeat' first
    | with_reducible assumption
    | with_reducible apply good_State_openTrip
    | (with_reducible apply good_foldl; intro _ _ _)
    | dsimp only
    | split
    | (intro hk; (try dsimp only); repeat' first | exact hk | split)

/-! ### Conversion -/

theorem good_State_clearMeans {o : Otp} {q : List Instr} {s : State} (h : Good o q s) : ∀ a1, Good o q (State.clearMeans s a1) := by
  intro a1
  unfold State.clearMeans
  repeat' first
    | with_reducible assumption
    | with_reducible apply good_modConv
    | (with_reducible apply good_foldl; intro _ _ _)
    | dsimp only
    | split
    | (intro hk; (try dsimp only); repeat' first | exact hk | split | exact ⟨by first | exact hk.lanes | simpa using hk.lanes | simpa using h.inv.conv.lanes, by first | exact hk.legs | simpa using hk.legs | simpa using h.inv.conv.legs, by first | exact hk.decims | simpa using hk.decims | simpa using h.inv.conv.decims⟩)

theorem good_State_startLane {o : Otp} {q : List Instr} {s : State} (h : Good o q s) : ∀ a1 a2, Good o q (State.startLane s a1 a2) := by
  intro a1 a2
  unfold State.startLane
  repeat' first
    | with_reducible assumption
    | with_reducible apply good_State_modLane
    | with_reducible apply good_State_modLegs
    | with_reducible apply good_State_clearMeans
    | with_reducible apply good_State_setMode
    | (with_reducible apply good_foldl; intro _ _ _)
    | dsimp only
    | split
    | (intro hk; (try dsimp only); repeat' first | exact hk | split)

theorem good_State_reverse {o : Otp} {q : List Instr} {s : State} (h : Good o q s) : ∀ a1 a2, Good o q (State.reverse s a1 a2) := by
  intro a1 a2
  unfold State.reverse
  repeat' first
    | with_reducible assumption
    | with_reducible apply good_State_modLane
    | (with_reducible apply good_foldl; intro _ _ _)
    | dsimp only
    | split
    | (intro hk; (try dsimp only); repeat' first | exact hk | split)

theorem good_State_reverseAtBoundary {o : Otp} {q : List Instr} {s : State} (h : Good o q s) : ∀ a1 a2, Good o q (State.reverseAtBoundary s a1 a2) := by
  intro a1 a2
  unfold State.reverseAtBoundary
  repeat' first
    | with_reducible assumption
    | with_reducible apply good_State_reverse
    | with_reducible apply good_State_modeEvent
    | (with_reducible apply good_foldl; intro _ _ _)
    | dsimp only
    | split
    | (intro hk; (try dsimp only); repeat' first | exact hk | split)

theorem good_State_replan {o : Otp} {q : List Instr} {s : State} (h : Good o q s) : ∀ a1, Good o q (State.replan s a1) := by
  intro a1
  unfold State.replan
  repeat' first
    | with_reducible assumption
    | with_reducible apply good_modConv
    | (with_reducible apply good_foldl; intro _ _ _)
    | dsimp only
    | split
    | (intro hk; (try dsimp only); repeat' first | exact hk | split | exact ⟨by first | exact hk.lanes | simpa using hk.lanes | simpa using h.inv.conv.lanes, by first | exact hk.legs | simpa using hk.legs | simpa using h.inv.conv.legs, by first | exact hk.decims | simpa using hk.decims | simpa using h.inv.conv.decims⟩)

theorem good_State_lockFrame {o : Otp} {q : List Instr} {s : State} (h : Good o q s) : ∀ a1, Good o q (State.lockFrame s a1) := by
  intro a1
  unfold State.lockFrame
  repeat' first
    | with_reducible assumption
    | with_reducible apply good_State_modLane
    | (with_reducible apply good_foldl; intro _ _ _)
    | dsimp only
    | split
    | (intro hk; (try dsimp only); repeat' first | exact hk | split)

theorem good_State_openFrame {o : Otp} {q : List Instr} {s : State} (h : Good o q s) : ∀ a1, Good o q (State.openFrame s a1) := by
  intro a1
  unfold State.openFrame
  repeat' first
    | with_reducible assumption
    | with_reducible apply good_State_lockFrame
    | with_reducible apply good_State_modLane
    | with_reducible apply good_State_endPulses
    | with_reducible apply good_modConv
    | (with_reducible apply good_foldl; intro _ _ _)
    | dsimp only
    | split
    | (intro hk; (try dsimp only); repeat' first | exact hk | split | exact ⟨by first | exact hk.lanes | simpa using hk.lanes | simpa using h.inv.conv.lanes, by first | exact hk.legs | simpa using hk.legs | simpa using h.inv.conv.legs, by first | exact hk.decims | simpa using hk.decims | simpa using h.inv.conv.decims⟩)

theorem good_State_compute {o : Otp} {q : List Instr} {s : State} (h : Good o q s) : ∀ a1 a2 a3, Good o q (State.compute s a1 a2 a3) := by
  intro a1 a2 a3
  unfold State.compute
  repeat' first
    | with_reducible assumption
    | with_reducible apply good_modConv
    | with_reducible apply good_State_modLane
    | (with_reducible apply good_foldl; intro _ _ _)
    | dsimp only
    | split
    | (intro hk; (try dsimp only); repeat' first | exact hk | split | exact ⟨by first | exact hk.lanes | simpa using hk.lanes | simpa using h.inv.conv.lanes, by first | exact hk.legs | simpa using hk.legs | simpa using h.inv.conv.legs, by first | exact hk.decims | simpa using hk.decims | simpa using h.inv.conv.decims⟩)

theorem good_State_frameModes {o : Otp} {q : List Instr} {s : State} (h : Good o q s) : ∀ a1 a2 a3, Good o q (State.frameModes s a1 a2 a3) := by
  intro a1 a2 a3
  unfold State.frameModes
  repeat' first
    | with_reducible assumption
    | with_reducible apply good_State_setMode
    | with_reducible apply good_State_modLane
    | with_reducible apply good_State_event
    | with_reducible apply good_State_reverse
    | (with_reducible apply good_foldl; intro _ _ _)
    | dsimp only
    | split
    | (intro hk; (try dsimp only); repeat' first | exact hk | split)

theorem good_State_rest {o : Otp} {q : List Instr} {s : State} (h : Good o q s) : ∀ a1 a2, Good o q (State.rest s a1 a2) := by
  intro a1 a2
  unfold State.rest
  repeat' first
    | with_reducible assumption
    | with_reducible apply good_State_setMode
    | with_reducible apply good_State_modLane
    | with_reducible apply good_State_gatesLow
    | (with_reducible apply good_foldl; intro _ _ _)
    | dsimp only
    | split
    | (intro hk; (try dsimp only); repeat' first | exact hk | split)

theorem good_State_resume {o : Otp} {q : List Instr} {s : State} (h : Good o q s) : ∀ a1 a2, Good o q (State.resume s a1 a2) := by
  intro a1 a2
  unfold State.resume
  repeat' first
    | with_reducible assumption
    | with_reducible apply good_State_stopLane
    | with_reducible apply good_State_countClamps
    | with_reducible apply good_State_modLane
    | with_reducible apply good_State_setMode
    | with_reducible apply good_State_modLegs
    | (with_reducible apply good_foldl; intro _ _ _)
    | dsimp only
    | split
    | (intro hk; (try dsimp only); repeat' first | exact hk | split)

theorem good_State_runFrame {o : Otp} {q : List Instr} {s : State} (h : Good o q s) : ∀ a1 a2, Good o q (State.runFrame s a1 a2) := by
  intro a1 a2
  unfold State.runFrame
  repeat' first
    | with_reducible assumption
    | with_reducible apply good_State_clearMeans
    | with_reducible apply good_State_hiccup
    | with_reducible apply good_State_recordProt
    | with_reducible apply good_State_frameModes
    | with_reducible apply good_State_compute
    | with_reducible apply good_State_modLane
    | (with_reducible apply good_foldl; intro _ _ _)
    | dsimp only
    | split
    | (intro hk; (try dsimp only); repeat' first | exact hk | split)

theorem good_State_burstEnd {o : Otp} {q : List Instr} {s : State} (h : Good o q s) : ∀ a1 a2, Good o q (State.burstEnd s a1 a2) := by
  intro a1 a2
  unfold State.burstEnd
  repeat' first
    | with_reducible assumption
    | with_reducible apply good_State_runFrame
    | with_reducible apply good_State_modLane
    | with_reducible apply good_State_setMode
    | with_reducible apply good_State_clearMeans
    | with_reducible apply good_State_gatesLow
    | (with_reducible apply good_foldl; intro _ _ _)
    | dsimp only
    | split
    | (intro hk; (try dsimp only); repeat' first | exact hk | split)

theorem good_State_activeFrame {o : Otp} {q : List Instr} {s : State} (h : Good o q s) : ∀ a1 a2, Good o q (State.activeFrame s a1 a2) := by
  intro a1 a2
  unfold State.activeFrame
  repeat' first
    | with_reducible assumption
    | with_reducible apply good_State_runFrame
    | with_reducible apply good_State_modLane
    | with_reducible apply good_State_setMode
    | with_reducible apply good_State_clearMeans
    | with_reducible apply good_State_burstEnd
    | (with_reducible apply good_foldl; intro _ _ _)
    | dsimp only
    | split
    | (intro hk; (try dsimp only); repeat' first | exact hk | split)

theorem good_State_frame {o : Otp} {q : List Instr} {s : State} (h : Good o q s) : ∀ a1 a2, Good o q (State.frame s a1 a2) := by
  intro a1 a2
  unfold State.frame
  repeat' first
    | with_reducible assumption
    | with_reducible apply good_State_setMode
    | with_reducible apply good_State_modLane
    | with_reducible apply good_State_endPulses
    | with_reducible apply good_State_openFrame
    | with_reducible apply good_State_runFrame
    | with_reducible apply good_State_clearMeans
    | with_reducible apply good_State_resume
    | with_reducible apply good_State_rest
    | with_reducible apply good_State_activeFrame
    | (with_reducible apply good_foldl; intro _ _ _)
    | dsimp only
    | split
    | (intro hk; (try dsimp only); repeat' first | exact hk | split)

theorem good_State_passSlots {o : Otp} {q : List Instr} {s : State} (h : Good o q s) : ∀ a1 a2, Good o q (State.passSlots s a1 a2) := by
  intro a1 a2
  unfold State.passSlots
  repeat' first
    | with_reducible assumption
    | with_reducible apply good_modConv
    | (with_reducible apply good_foldl; intro _ _ _)
    | dsimp only
    | split
    | (intro hk; (try dsimp only); repeat' first | exact hk | split | exact ⟨by first | exact hk.lanes | simpa using hk.lanes | simpa using h.inv.conv.lanes, by first | exact hk.legs | simpa using hk.legs | simpa using h.inv.conv.legs, by first | exact hk.decims | simpa using hk.decims | simpa using h.inv.conv.decims⟩)

theorem good_State_brakeCheck {o : Otp} {q : List Instr} {s : State} (h : Good o q s) : ∀ a1 a2 a3, Good o q (State.brakeCheck s a1 a2 a3) := by
  intro a1 a2 a3
  unfold State.brakeCheck
  repeat' first
    | with_reducible assumption
    | with_reducible apply good_State_modLane
    | with_reducible apply good_State_setMode
    | with_reducible apply good_State_gatesLow
    | (with_reducible apply good_foldl; intro _ _ _)
    | dsimp only
    | split
    | (intro hk; (try dsimp only); repeat' first | exact hk | split)

theorem good_State_ovCheck {o : Otp} {q : List Instr} {s : State} (h : Good o q s) : ∀ a1 a2 a3, Good o q (State.ovCheck s a1 a2 a3) := by
  intro a1 a2 a3
  unfold State.ovCheck
  repeat' first
    | with_reducible assumption
    | with_reducible apply good_modProt
    | with_reducible apply good_State_overVoltage
    | (with_reducible apply good_foldl; intro _ _ _)
    | dsimp only
    | split
    | (intro hk; (try dsimp only); repeat' first | exact hk | split | exact ⟨by first | exact hk.echo | simpa using hk.echo | simpa using h.inv.prot.echo, by first | exact hk.crowbars | simpa using hk.crowbars | simpa using h.inv.prot.crowbars⟩)

theorem good_State_burstWake {o : Otp} {q : List Instr} {s : State} (h : Good o q s) : ∀ a1 a2 a3, Good o q (State.burstWake s a1 a2 a3) := by
  intro a1 a2 a3
  unfold State.burstWake
  repeat' first
    | with_reducible assumption
    | with_reducible apply good_State_modLane
    | (with_reducible apply good_foldl; intro _ _ _)
    | dsimp only
    | split
    | (intro hk; (try dsimp only); repeat' first | exact hk | split)

theorem good_State_voltageChecks {o : Otp} {q : List Instr} {s : State} (h : Good o q s) : ∀ a1 a2 a3, Good o q (State.voltageChecks s a1 a2 a3) := by
  intro a1 a2 a3
  unfold State.voltageChecks
  repeat' first
    | with_reducible assumption
    | with_reducible apply good_State_burstWake
    | with_reducible apply good_State_ovCheck
    | with_reducible apply good_State_brakeCheck
    | (with_reducible apply good_foldl; intro _ _ _)
    | dsimp only
    | split
    | (intro hk; (try dsimp only); repeat' first | exact hk | split)

theorem good_State_closeLanes {o : Otp} {q : List Instr} {s : State} (h : Good o q s) : Good o q (State.closeLanes s) := by
  unfold State.closeLanes
  repeat' first
    | with_reducible assumption
    | with_reducible apply good_modConv
    | (with_reducible apply good_foldl; intro _ _ _)
    | dsimp only
    | split
    | (intro hk; (try dsimp only); repeat' first | exact hk | split | exact ⟨by first | exact hk.lanes | simpa using hk.lanes | simpa using h.inv.conv.lanes, by first | exact hk.legs | simpa using hk.legs | simpa using h.inv.conv.legs, by first | exact hk.decims | simpa using hk.decims | simpa using h.inv.conv.decims⟩)

/-! ### Protection -/

theorem good_State_limitCross {o : Otp} {q : List Instr} {s : State} (h : Good o q s) : ∀ a1 a2, Good o q (State.limitCross s a1 a2) := by
  intro a1 a2
  unfold State.limitCross
  repeat' first
    | with_reducible assumption
    | with_reducible apply good_State_modLane
    | with_reducible apply good_State_modLegs
    | (with_reducible apply good_foldl; intro _ _ _)
    | dsimp only
    | split
    | (intro hk; (try dsimp only); repeat' first | exact hk | split)

theorem good_State_tripCross {o : Otp} {q : List Instr} {s : State} (h : Good o q s) : ∀ a1, Good o q (State.tripCross s a1) := by
  intro a1
  unfold State.tripCross
  repeat' first
    | with_reducible assumption
    | with_reducible apply good_State_recordProt
    | with_reducible apply good_State_hiccup
    | (with_reducible apply good_foldl; intro _ _ _)
    | dsimp only
    | split
    | (intro hk; (try dsimp only); repeat' first | exact hk | split)

theorem good_State_cross {o : Otp} {q : List Instr} {s : State} (h : Good o q s) : ∀ a1 a2, Good o q (State.cross s a1 a2) := by
  intro a1 a2
  unfold State.cross
  repeat' first
    | with_reducible assumption
    | with_reducible apply good_State_divert
    | with_reducible apply good_State_limitCross
    | with_reducible apply good_State_tripCross
    | with_reducible apply good_State_overVoltage
    | (with_reducible apply good_foldl; intro _ _ _)
    | dsimp only
    | split
    | (intro hk; (try dsimp only); repeat' first | exact hk | split)

theorem good_State_recheck {o : Otp} {q : List Instr} {s : State} (h : Good o q s) : ∀ a1, Good o q (State.recheck s a1) := by
  intro a1
  unfold State.recheck
  repeat' first
    | with_reducible assumption
    | with_reducible apply good_State_cross
    | (with_reducible apply good_foldl; intro _ _ _)
    | dsimp only
    | split
    | (intro hk; (try dsimp only); repeat' first | exact hk | split)

theorem good_State_launch {o : Otp} {q : List Instr} {s : State} (h : Good o q s) : ∀ a1 a2, Good o q (State.launch s a1 a2) := by
  intro a1 a2
  unfold State.launch
  repeat' first
    | with_reducible assumption
    | with_reducible apply good_State_recheck
    | with_reducible apply good_State_startLane
    | (with_reducible apply good_foldl; intro _ _ _)
    | dsimp only
    | split
    | (intro hk; (try dsimp only); repeat' first | exact hk | split)

theorem good_State_closeCrowbar {o : Otp} {q : List Instr} {s : State} (h : Good o q s) : ∀ a1 a2, Good o q (State.closeCrowbar s a1 a2) := by
  intro a1 a2
  unfold State.closeCrowbar
  repeat' first
    | with_reducible assumption
    | with_reducible apply good_State_lowSidesOn
    | with_reducible apply good_modProt
    | (with_reducible apply good_foldl; intro _ _ _)
    | dsimp only
    | split
    | (intro hk; (try dsimp only); repeat' first | exact hk | split | exact ⟨by first | exact hk.echo | simpa using hk.echo | simpa using h.inv.prot.echo, by first | exact hk.crowbars | simpa using hk.crowbars | simpa using h.inv.prot.crowbars⟩)

theorem good_State_newLegSet {o : Otp} {q : List Instr} {s : State} (h : Good o q s) : ∀ a1 a2, Good o q (State.newLegSet s a1 a2) := by
  intro a1 a2
  unfold State.newLegSet
  repeat' first
    | with_reducible assumption
    | with_reducible apply good_State_replan
    | with_reducible apply good_State_modLane
    | with_reducible apply good_State_endPulses
    | (with_reducible apply good_foldl; intro _ _ _)
    | dsimp only
    | split
    | (intro hk; (try dsimp only); repeat' first | exact hk | split)

theorem good_State_removeLegs {o : Otp} {q : List Instr} {s : State} (h : Good o q s) : ∀ a1, Good o q (State.removeLegs s a1) := by
  intro a1
  unfold State.removeLegs
  repeat' first
    | with_reducible assumption
    | with_reducible apply good_State_newLegSet
    | (with_reducible apply good_foldl; intro _ _ _)
    | dsimp only
    | split
    | (intro hk; (try dsimp only); repeat' first | exact hk | split)

theorem sound_Path_dropPrecharge {x : Path} (h : x.Sound) : (Path.dropPrecharge x).Sound := by
  unfold Path.dropPrecharge
  repeat' first | exact h | dsimp only | split | exact ⟨by first | exact h.chans | simpa using h.chans, by first | exact h.shares | simpa using h.shares⟩

theorem good_State_consequence {o : Otp} {q : List Instr} {s : State} (h : Good o q s) : ∀ a1, Good o q (State.consequence s a1) := by
  intro a1
  unfold State.consequence
  repeat' first
    | with_reducible assumption
    | with_reducible apply good_State_removeLegs
    | with_reducible apply good_modProt
    | with_reducible apply good_modPath
    | (with_reducible apply good_foldl; intro _ _ _)
    | dsimp only
    | split
    | (intro hk; (try dsimp only); repeat' first | exact hk | with_reducible apply sound_Path_dropPrecharge | split | exact ⟨by first | exact hk.echo | simpa using hk.echo | simpa using h.inv.prot.echo, by first | exact hk.crowbars | simpa using hk.crowbars | simpa using h.inv.prot.crowbars⟩ | exact ⟨by first | exact hk.chans | simpa using hk.chans | simpa using h.inv.path.chans, by first | exact hk.shares | simpa using hk.shares | simpa using h.inv.path.shares⟩)

theorem good_State_freezeReports {o : Otp} {q : List Instr} {s : State} (h : Good o q s) : Good o q (State.freezeReports s) := by
  unfold State.freezeReports
  repeat' first
    | with_reducible assumption
    | with_reducible apply good_modProt
    | with_reducible apply good_State_event
    | (with_reducible apply good_foldl; intro _ _ _)
    | dsimp only
    | split
    | (intro hk; (try dsimp only); repeat' first | exact hk | split | exact ⟨by first | exact hk.echo | simpa using hk.echo | simpa using h.inv.prot.echo, by first | exact hk.crowbars | simpa using hk.crowbars | simpa using h.inv.prot.crowbars⟩)

theorem good_State_retry {o : Otp} {q : List Instr} {s : State} (h : Good o q s) : ∀ a1, Good o q (State.retry s a1) := by
  intro a1
  unfold State.retry
  repeat' first
    | with_reducible assumption
    | with_reducible apply good_State_setMode
    | with_reducible apply good_State_launch
    | (with_reducible apply good_foldl; intro _ _ _)
    | dsimp only
    | split
    | (intro hk; (try dsimp only); repeat' first | exact hk | split)

theorem good_State_retries {o : Otp} {q : List Instr} {s : State} (h : Good o q s) : Good o q (State.retries s) := by
  unfold State.retries
  repeat' first
    | with_reducible assumption
    | with_reducible apply good_State_retry
    | (with_reducible apply good_foldl; intro _ _ _)
    | dsimp only
    | split
    | (intro hk; (try dsimp only); repeat' first | exact hk | split)

theorem sound_closeFrom_all (e : Nat) (l : List (Nat × List (Nat × BitVec 16))) : ∀ {x : Prot}, x.Sound →
    (l.foldl (fun q y => q.closeFrom e y.1 y.2) x).Sound := by
  induction l with
  | nil => exact id
  | cons y l ih => exact fun h => ih (sound_Prot_closeFrom h _ _ _)

theorem sound_Prot_closeEcho {x : Prot} (h : x.Sound) : (Prot.closeEcho x).Sound := by
  unfold Prot.closeEcho
  split
  · rename_i e l _
    have k := sound_Prot_countEpochs (sound_closeFrom_all e l h) h.echo
    exact ⟨k.echo, k.crowbars⟩
  · exact h

theorem good_State_echoEvents {o : Otp} {q : List Instr} {s : State} (h : Good o q s) : Good o q (State.echoEvents s) := by
  unfold State.echoEvents
  repeat' first
    | with_reducible assumption
    | with_reducible apply good_modProt
    | with_reducible apply good_State_event
    | (with_reducible apply good_foldl; intro _ _ _)
    | dsimp only
    | split
    | (intro hk; (try dsimp only); repeat' first | exact hk | split | exact ⟨by first | exact hk.echo | simpa using hk.echo | simpa using h.inv.prot.echo, by first | exact hk.crowbars | simpa using hk.crowbars | simpa using h.inv.prot.crowbars⟩)

theorem sound_Prot_load {x : Prot} (h : x.Sound) : ∀ a1, (Prot.load x a1).Sound := by
  intro a1
  unfold Prot.load
  repeat' first | exact h | dsimp only | split | exact ⟨by first | exact h.echo | simpa using h.echo, by first | exact h.crowbars | simpa using h.crowbars⟩

theorem good_protClear {o : Otp} {q : List Instr} {s : State} (h : Good o q s) : ∀ a1, Good o q (protClear s a1) := by
  intro a1
  unfold protClear
  repeat' first
    | with_reducible assumption
    | with_reducible apply good_modProt
    | with_reducible apply good_State_setMode
    | with_reducible apply good_State_gatesLow
    | (with_reducible apply good_foldl; intro _ _ _)
    | dsimp only
    | split
    | (intro hk; (try dsimp only); repeat' first | exact hk | split | exact ⟨by first | exact hk.echo | simpa using hk.echo | simpa using h.inv.prot.echo, by first | exact hk.crowbars | simpa using hk.crowbars | simpa using h.inv.prot.crowbars⟩)

/-! ### Measurement -/

theorem good_State_conversion {o : Otp} {q : List Instr} {s : State} (h : Good o q s) : ∀ a1 a2 a3, Good o q (State.conversion s a1 a2 a3) := by
  intro a1 a2 a3
  unfold State.conversion
  repeat' first
    | with_reducible assumption
    | with_reducible apply good_modMeas
    | with_reducible apply good_State_slowSamples
    | (with_reducible apply good_foldl; intro _ _ _)
    | dsimp only
    | split
    | (intro hk; (try dsimp only); repeat' first | exact hk | with_reducible apply sound_Meas_modAcc | with_reducible apply sound_Meas_modAdc | with_reducible apply sound_Meas_modTrk | split | exact ⟨by first | exact hk.adcs | simpa using hk.adcs | simpa using h.inv.meas.adcs, by first | exact hk.accs | simpa using hk.accs | simpa using h.inv.meas.accs, by first | exact hk.trks | simpa using hk.trks | simpa using h.inv.meas.trks⟩)

theorem sound_Meas_halt {x : Meas} (h : x.Sound) : (Meas.halt x).Sound := by
  unfold Meas.halt
  repeat' first | exact h | dsimp only | split | exact ⟨by first | exact h.adcs | simpa using h.adcs, by first | exact h.accs | simpa using h.accs, by first | exact h.trks | simpa using h.trks⟩

theorem good_State_saturatedEvents {o : Otp} {q : List Instr} {s : State} (h : Good o q s) : ∀ a1, Good o q (State.saturatedEvents s a1) := by
  intro a1
  unfold State.saturatedEvents
  repeat' first
    | with_reducible assumption
    | with_reducible apply good_State_event
    | (with_reducible apply good_foldl; intro _ _ _)
    | dsimp only
    | split
    | (intro hk; (try dsimp only); repeat' first | exact hk | split)

/-! ### Thermal -/

theorem good_State_levelEvent {o : Otp} {q : List Instr} {s : State} (h : Good o q s) : ∀ a1 a2 a3 a4, Good o q (State.levelEvent s a1 a2 a3 a4) := by
  intro a1 a2 a3 a4
  unfold State.levelEvent
  repeat' first
    | with_reducible assumption
    | with_reducible apply good_State_dueEvent
    | (with_reducible apply good_foldl; intro _ _ _)
    | dsimp only
    | split
    | (intro hk; (try dsimp only); repeat' first | exact hk | split)

theorem good_State_sensorEvents {o : Otp} {q : List Instr} {s : State} (h : Good o q s) : ∀ a1 a2 a3, Good o q (State.sensorEvents s a1 a2 a3) := by
  intro a1 a2 a3
  unfold State.sensorEvents
  repeat' first
    | with_reducible assumption
    | with_reducible apply good_State_dueEvent
    | (with_reducible apply good_foldl; intro _ _ _)
    | dsimp only
    | split
    | (intro hk; (try dsimp only); repeat' first | exact hk | split)

theorem good_State_thermalShutdown {o : Otp} {q : List Instr} {s : State} (h : Good o q s) : Good o q (State.thermalShutdown s) := by
  unfold State.thermalShutdown
  repeat' first
    | with_reducible assumption
    | with_reducible apply good_State_trigger
    | with_reducible apply good_modTherm
    | with_reducible apply good_State_recordClassAs
    | (with_reducible apply good_foldl; intro _ _ _)
    | dsimp only
    | split
    | (intro hk; (try dsimp only); repeat' first | exact hk | split | exact ⟨by first | exact hk.ext | simpa using hk.ext | simpa using h.inv.therm.ext, by first | exact hk.batt | simpa using hk.batt | simpa using h.inv.therm.batt⟩)

theorem good_State_nameHottest {o : Otp} {q : List Instr} {s : State} (h : Good o q s) : ∀ a1, Good o q (State.nameHottest s a1) := by
  intro a1
  unfold State.nameHottest
  repeat' first
    | with_reducible assumption
    | with_reducible apply good_modTherm
    | (with_reducible apply good_foldl; intro _ _ _)
    | dsimp only
    | split
    | (intro hk; (try dsimp only); repeat' first | exact hk | split | exact ⟨by first | exact hk.ext | simpa using hk.ext | simpa using h.inv.therm.ext, by first | exact hk.batt | simpa using hk.batt | simpa using h.inv.therm.batt⟩)

theorem good_State_thermalRead {o : Otp} {q : List Instr} {s : State} (h : Good o q s) : ∀ a1, Good o q (State.thermalRead s a1) := by
  intro a1
  unfold State.thermalRead
  repeat' first
    | with_reducible assumption
    | with_reducible apply good_State_nameHottest
    | with_reducible apply good_modTherm
    | with_reducible apply good_State_sensorEvents
    | with_reducible apply good_State_levelEvent
    | with_reducible apply good_State_thermalShutdown
    | (with_reducible apply good_foldl; intro _ _ _)
    | dsimp only
    | split
    | (intro hk; (try dsimp only); repeat' first | exact hk | with_reducible apply sound_Therm_read | split | exact ⟨by first | exact hk.ext | simpa using hk.ext | simpa using h.inv.therm.ext, by first | exact hk.batt | simpa using hk.batt | simpa using h.inv.therm.batt⟩)

theorem good_State_evalThermal {o : Otp} {q : List Instr} {s : State} (h : Good o q s) : Good o q (State.evalThermal s) := by
  unfold State.evalThermal
  repeat' first
    | with_reducible assumption
    | with_reducible apply good_State_levelEvent
    | with_reducible apply good_modTherm
    | (with_reducible apply good_foldl; intro _ _ _)
    | dsimp only
    | split
    | (intro hk; (try dsimp only); repeat' first | exact hk | split | exact ⟨by first | exact hk.ext | simpa using hk.ext | simpa using h.inv.therm.ext, by first | exact hk.batt | simpa using hk.batt | simpa using h.inv.therm.batt⟩)

theorem sound_Therm_start {x : Therm} (h : x.Sound) : (Therm.start x).Sound := by
  unfold Therm.start
  repeat' first | exact h | dsimp only | split | exact ⟨by first | exact h.ext | simpa using h.ext, by first | exact h.batt | simpa using h.batt⟩

end Sys2Proof.Machine
end

