-- ==== Sys2Proof/Laws/SoundCharge.lean ====
section
/-!
SUPPORT. Every function keeps a good state (`Good`): charging, lane commands and the power path.
-/
set_option linter.unusedTactic false
set_option linter.unreachableTactic false
set_option linter.unusedVariables false

namespace Sys2Proof.Machine

/-! ### Charging -/

theorem good_State_modStrand {o : Otp} {q : List Instr} {s : State} (h : Good o q s) : ∀ a1 a2, Good o q (State.modStrand s a1 a2) := by
  intro a1 a2
  unfold State.modStrand
  repeat' first
    | with_reducible assumption
    | with_reducible apply good_modCharge
    | (with_reducible apply good_foldl; intro _ _ _)
    | dsimp only
    | split
    | (intro hk; (try dsimp only); repeat' first | exact hk | split | exact ⟨by first | exact hk.strands | simpa using hk.strands | simpa using h.inv.charge.strands⟩)

theorem good_State_laneEvent {o : Otp} {q : List Instr} {s : State} (h : Good o q s) : ∀ a1 a2 a3, Good o q (State.laneEvent s a1 a2 a3) := by
  intro a1 a2 a3
  unfold State.laneEvent
  repeat' first
    | with_reducible assumption
    | with_reducible apply good_State_event
    | (with_reducible apply good_foldl; intro _ _ _)
    | dsimp only
    | split
    | (intro hk; (try dsimp only); repeat' first | exact hk | split)

theorem good_State_exclusions {o : Otp} {q : List Instr} {s : State} (h : Good o q s) : ∀ a1, Good o q (State.exclusions s a1) := by
  intro a1
  unfold State.exclusions
  repeat' first
    | with_reducible assumption
    | with_reducible apply good_State_laneEvent
    | with_reducible apply good_State_modStrand
    | (with_reducible apply good_foldl; intro _ _ _)
    | dsimp only
    | split
    | (intro hk; (try dsimp only); repeat' first | exact hk | split)

theorem good_State_computeStrand {o : Otp} {q : List Instr} {s : State} (h : Good o q s) : ∀ a1, Good o q (State.computeStrand s a1) := by
  intro a1
  unfold State.computeStrand
  repeat' first
    | with_reducible assumption
    | with_reducible apply good_State_exclusions
    | with_reducible apply good_State_modStrand
    | (with_reducible apply good_foldl; intro _ _ _)
    | dsimp only
    | split
    | (intro hk; (try dsimp only); repeat' first | exact hk | split)

theorem freeInternal_free (c : Cmd) (h : c.freeInternal ≠ 0) :
    ∀ g ∈ c.flights, (g.key.origin, g.key.tag) ≠ (Origin.internal, c.freeInternal) := by
  unfold Cmd.freeInternal at h ⊢
  cases e : (List.range 128).find? fun t => t ≠ 0 && !(c.flights.any fun f => f.key.origin == .internal && f.key.tag == t) with
  | none => rw [e] at h; exact absurd rfl h
  | some t =>
    intro g hg k
    simp only [Option.getD_some, Prod.mk.injEq] at k
    have := List.find?_some e
    simp only [Bool.and_eq_true, Bool.not_eq_true'] at this
    have := List.any_eq_false.mp this.2 g hg
    simp [k.1, k.2] at this

theorem good_State_sendPlan {o : Otp} {q : List Instr} {s : State} {k : Nat} (hk : k ≠ 0) (h : Good o q s) (n : Nat)
    (p : Plan) : Good o q (s.sendPlan n k p) := by
  unfold State.sendPlan
  dsimp only
  split
  · exact h
  · rename_i e
    refine good_forward (by simp [Flight.holds, hk]) ?_ h _
    refine freeInternal_free s.cmd ?_
    intro e'
    simp [e'] at e

theorem good_foldl_mem {α : Type} {o : Otp} {q : List Instr} {f : State → α → State} {l : List α} {s : State}
    (k : ∀ s, ∀ x ∈ l, Good o q s → Good o q (f s x)) (h : Good o q s) : Good o q (l.foldl f s) := by
  induction l generalizing s with
  | nil => exact h
  | cons x l ih =>
    exact ih (fun s y hy => k s y (List.mem_cons_of_mem _ hy)) (k s x List.mem_cons_self h)

theorem enumerated_pos {s : State} {k : Nat} (h : s.enumerated k = true) : k ≠ 0 := by
  simp only [State.enumerated, Bool.and_eq_true, ne_eq, decide_eq_true_eq] at h
  exact h.1

theorem good_State_decidePlan {o : Otp} {q : List Instr} {s : State} (h : Good o q s) (n : Nat) :
    Good o q (s.decidePlan n) := by
  unfold State.decidePlan
  extract_lets st p changed workers owed waits lowers s1
  split
  · exact h
  · have hw : ∀ k ∈ workers, k ≠ 0 := fun k hk => by
      simp only [workers, List.mem_filter, Bool.and_eq_true, decide_eq_true_eq] at hk
      exact hk.2.1
    refine good_foldl_mem ?_ (good_State_modStrand h _ _)
    intro t k hk ht
    have hp : k ≠ 0 := by
      simp only [owed] at hk
      split at hk
      · exact hw k hk
      · rcases List.mem_append.mp hk with hk | hk
        · exact enumerated_pos (s := s) (List.mem_filter.mp hk).2
        · exact hw k (List.mem_filter.mp hk).1
    split
    · exact ht
    · exact good_State_sendPlan hp ht _ _

theorem good_State_planAnswered {o : Otp} {q : List Instr} {s : State} (h : Good o q s) : ∀ a1 a2, Good o q (State.planAnswered s a1 a2) := by
  intro a1 a2
  unfold State.planAnswered
  repeat' first
    | with_reducible assumption
    | with_reducible apply good_State_modStrand
    | (with_reducible apply good_foldl; intro _ _ _)
    | dsimp only
    | split
    | (intro hk; (try dsimp only); repeat' first | exact hk | split)

theorem good_State_closeStrand {o : Otp} {q : List Instr} {s : State} (h : Good o q s) : ∀ a1, Good o q (State.closeStrand s a1) := by
  intro a1
  unfold State.closeStrand
  repeat' first
    | with_reducible assumption
    | with_reducible apply good_State_modStrand
    | (with_reducible apply good_foldl; intro _ _ _)
    | dsimp only
    | split
    | (intro hk; (try dsimp only); repeat' first | exact hk | split)

theorem good_State_enterLimits {o : Otp} {q : List Instr} {s : State} (h : Good o q s) : Good o q (State.enterLimits s) := by
  unfold State.enterLimits
  repeat' first
    | with_reducible assumption
    | with_reducible apply good_State_modStrand
    | with_reducible apply good_State_event
    | (with_reducible apply good_foldl; intro _ _ _)
    | dsimp only
    | split
    | (intro hk; (try dsimp only); repeat' first | exact hk | split)

theorem good_State_applyMachines {o : Otp} {q : List Instr} {s : State} (h : Good o q s) : Good o q (State.applyMachines s) := by
  unfold State.applyMachines
  repeat' first
    | with_reducible assumption
    | with_reducible apply good_modCharge
    | (with_reducible apply good_foldl; intro _ _ _)
    | dsimp only
    | split
    | (intro hk; (try dsimp only); repeat' first | exact hk | split | exact ⟨by first | exact hk.strands | simpa using hk.strands | simpa using h.inv.charge.strands⟩)

theorem good_State_dropMachines {o : Otp} {q : List Instr} {s : State} (h : Good o q s) : Good o q (State.dropMachines s) := by
  unfold State.dropMachines
  repeat' first
    | with_reducible assumption
    | with_reducible apply good_modCharge
    | (with_reducible apply good_foldl; intro _ _ _)
    | dsimp only
    | split
    | (intro hk; (try dsimp only); repeat' first | exact hk | split | exact ⟨by first | exact hk.strands | simpa using hk.strands | simpa using h.inv.charge.strands⟩)

theorem good_State_applyPlans {o : Otp} {q : List Instr} {s : State} (h : Good o q s) : Good o q (State.applyPlans s) := by
  unfold State.applyPlans
  repeat' first
    | with_reducible assumption
    | with_reducible apply good_modCharge
    | (with_reducible apply good_foldl; intro _ _ _)
    | dsimp only
    | split
    | (intro hk; (try dsimp only); repeat' first | exact hk | split | exact ⟨by first | exact hk.strands | simpa using hk.strands | simpa using h.inv.charge.strands⟩)

theorem good_State_autoStart {o : Otp} {q : List Instr} {s : State} (h : Good o q s) : ∀ a1, Good o q (State.autoStart s a1) := by
  intro a1
  unfold State.autoStart
  repeat' first
    | with_reducible assumption
    | with_reducible apply good_modCharge
    | (with_reducible apply good_foldl; intro _ _ _)
    | dsimp only
    | split
    | (intro hk; (try dsimp only); repeat' first | exact hk | split | exact ⟨by first | exact hk.strands | simpa using hk.strands | simpa using h.inv.charge.strands⟩)

theorem good_State_phaseEvents {o : Otp} {q : List Instr} {s : State} (h : Good o q s) : ∀ a1, Good o q (State.phaseEvents s a1) := by
  intro a1
  unfold State.phaseEvents
  repeat' first
    | with_reducible assumption
    | with_reducible apply good_State_event
    | (with_reducible apply good_foldl; intro _ _ _)
    | dsimp only
    | split
    | (intro hk; (try dsimp only); repeat' first | exact hk | split)

theorem good_State_showStrands {o : Otp} {q : List Instr} {s : State} (h : Good o q s) : Good o q (State.showStrands s) := by
  unfold State.showStrands
  repeat' first
    | with_reducible assumption
    | with_reducible apply good_modCharge
    | (with_reducible apply good_foldl; intro _ _ _)
    | dsimp only
    | split
    | (intro hk; (try dsimp only); repeat' first | exact hk | split | exact ⟨by first | exact hk.strands | simpa using hk.strands | simpa using h.inv.charge.strands⟩)

/-! ### LaneCommands -/

theorem good_State_placeProfile {o : Otp} {q : List Instr} {s : State} (h : Good o q s) : ∀ a1 a2, Good o q (State.placeProfile s a1 a2) := by
  intro a1 a2
  unfold State.placeProfile
  repeat' first
    | with_reducible assumption
    | with_reducible apply good_modConv
    | with_reducible apply good_State_modLane
    | (with_reducible apply good_foldl; intro _ _ _)
    | dsimp only
    | split
    | (intro hk; (try dsimp only); repeat' first | exact hk | with_reducible apply sound_Conv_startInputs | with_reducible apply sound_Conv_unlock | split | exact ⟨by first | exact hk.lanes | simpa using hk.lanes | simpa using h.inv.conv.lanes, by first | exact hk.legs | simpa using hk.legs | simpa using h.inv.conv.legs, by first | exact hk.decims | simpa using hk.decims | simpa using h.inv.conv.decims⟩)

theorem good_State_configureLane {o : Otp} {q : List Instr} {s : State} (h : Good o q s) : ∀ a1 a2, Good o q (State.configureLane s a1 a2) := by
  intro a1 a2
  unfold State.configureLane
  repeat' first
    | with_reducible assumption
    | with_reducible apply good_State_setMode
    | with_reducible apply good_State_placeProfile
    | (with_reducible apply good_foldl; intro _ _ _)
    | dsimp only
    | split
    | (intro hk; (try dsimp only); repeat' first | exact hk | split)

theorem good_State_loadLane {o : Otp} {q : List Instr} {s : State} (h : Good o q s) : ∀ a1 a2, Good o q (State.loadLane s a1 a2) := by
  intro a1 a2
  unfold State.loadLane
  repeat' first
    | with_reducible assumption
    | with_reducible apply good_State_modLane
    | with_reducible apply good_State_placeProfile
    | (with_reducible apply good_foldl; intro _ _ _)
    | dsimp only
    | split
    | (intro hk; (try dsimp only); repeat' first | exact hk | split)

theorem good_State_checkLocks {o : Otp} {q : List Instr} {s : State} (h : Good o q s) : Good o q (State.checkLocks s) := by
  unfold State.checkLocks
  repeat' first
    | with_reducible assumption
    | with_reducible apply good_State_modLane
    | (with_reducible apply good_foldl; intro _ _ _)
    | dsimp only
    | split
    | (intro hk; (try dsimp only); repeat' first | exact hk | split)

theorem good_State_setLegs {o : Otp} {q : List Instr} {s : State} (h : Good o q s) : ∀ a1 a2, Good o q (State.setLegs s a1 a2) := by
  intro a1 a2
  unfold State.setLegs
  repeat' first
    | with_reducible assumption
    | with_reducible apply good_State_modLegs
    | with_reducible apply good_modConv
    | with_reducible apply good_State_newLegSet
    | (with_reducible apply good_foldl; intro _ _ _)
    | dsimp only
    | split
    | (intro hk; (try dsimp only); repeat' first | exact hk | with_reducible apply sound_Conv_startInputs | split | exact ⟨by first | exact hk.lanes | simpa using hk.lanes | simpa using h.inv.conv.lanes, by first | exact hk.legs | simpa using hk.legs | simpa using h.inv.conv.legs, by first | exact hk.decims | simpa using hk.decims | simpa using h.inv.conv.decims⟩)

theorem good_State_fitWindow {o : Otp} {q : List Instr} {s : State} (h : Good o q s) : ∀ a1, Good o q (State.fitWindow s a1) := by
  intro a1
  unfold State.fitWindow
  repeat' first
    | with_reducible assumption
    | with_reducible apply good_State_modLane
    | (with_reducible apply good_foldl; intro _ _ _)
    | dsimp only
    | split
    | (intro hk; (try dsimp only); repeat' first | exact hk | split)

theorem good_State_fenceDesign {o : Otp} {q : List Instr} {s : State} (h : Good o q s) (k : Nat) (l : List Int) :
    Good o q (s.fenceDesign k l).2 := by
  unfold State.fenceDesign
  have : ∀ (m : List (Int × Nat)) (a : List Int × State), Good o q a.2 → Good o q (m.foldl (fun a x =>
      if (s.coeffBounds k 0 x.2).isSome then
        let (v, t) := a.2.clampCoeff k 0 x.2 x.1
        (a.1 ++ [v], t)
      else (a.1 ++ [getAt (s.lane k).buck x.2 0], a.2)) a).2 := by
    intro m
    induction m with
    | nil => exact fun _ ha => ha
    | cons x m ih =>
      intro a ha
      refine ih _ ?_
      dsimp only
      split
      · exact good_State_clampCoeff ha _ _ _ _
      · exact ha
  exact this _ _ h

theorem good_State_fenceDesign_eq {o : Otp} {q : List Instr} {s t : State} {k : Nat} {l : List Int} {x}
    (e : s.fenceDesign k l = (x, t)) (h : Good o q s) : Good o q t := by
  have := good_State_fenceDesign h k l
  rw [e] at this
  exact this

theorem good_State_applyTuning {o : Otp} {q : List Instr} {s : State} (h : Good o q s) : ∀ a1, Good o q (State.applyTuning s a1) := by
  intro a1
  unfold State.applyTuning
  repeat' first
    | with_reducible assumption
    | with_reducible apply good_State_fenceDesign
    | with_reducible refine good_State_fenceDesign_eq (by assumption) ?_
    | with_reducible apply good_State_event
    | with_reducible apply good_State_modLane
    | (with_reducible apply good_foldl; intro _ _ _)
    | dsimp only
    | split
    | (intro hk; (try dsimp only); repeat' first | exact hk | split)

theorem good_State_tuneLane {o : Otp} {q : List Instr} {s : State} (h : Good o q s) : ∀ a1 a2 a3 a4, Good o q (State.tuneLane s a1 a2 a3 a4) := by
  intro a1 a2 a3 a4
  unfold State.tuneLane
  repeat' first
    | with_reducible assumption
    | with_reducible apply good_State_modLane
    | with_reducible apply good_State_applyTuning
    | with_reducible apply good_State_fitWindow
    | (with_reducible apply good_foldl; intro _ _ _)
    | dsimp only
    | split
    | (intro hk; (try dsimp only); repeat' first | exact hk | split)

theorem good_State_tuneLanes {o : Otp} {q : List Instr} {s : State} (h : Good o q s) : ∀ a1 a2 a3, Good o q (State.tuneLanes s a1 a2 a3) := by
  intro a1 a2 a3
  unfold State.tuneLanes
  repeat' first
    | with_reducible assumption
    | with_reducible apply good_State_tuneLane
    | (with_reducible apply good_foldl; intro _ _ _)
    | dsimp only
    | split
    | (intro hk; (try dsimp only); repeat' first | exact hk | split)

/-! ### PowerPath -/

theorem good_State_freezePath {o : Otp} {q : List Instr} {s : State} (h : Good o q s) : Good o q (State.freezePath s) := by
  unfold State.freezePath
  repeat' first
    | with_reducible assumption
    | with_reducible apply good_modPath
    | (with_reducible apply good_foldl; intro _ _ _)
    | dsimp only
    | split
    | (intro hk; (try dsimp only); repeat' first | exact hk | split | exact ⟨by first | exact hk.chans | simpa using hk.chans | simpa using h.inv.path.chans, by first | exact hk.shares | simpa using hk.shares | simpa using h.inv.path.shares⟩)

theorem good_State_qualifyTick {o : Otp} {q : List Instr} {s : State} (h : Good o q s) : Good o q (State.qualifyTick s) := by
  unfold State.qualifyTick
  repeat' first
    | with_reducible assumption
    | with_reducible apply good_State_modChan
    | (with_reducible apply good_foldl; intro _ _ _)
    | dsimp only
    | split
    | (intro hk; (try dsimp only); repeat' first | exact hk | split)

theorem good_State_tellBoost {o : Otp} {q : List Instr} {s : State} (h : Good o q s) : ∀ a1, Good o q (State.tellBoost s a1) := by
  intro a1
  unfold State.tellBoost
  repeat' first
    | with_reducible assumption
    | with_reducible apply good_modPath
    | (with_reducible apply good_foldl; intro _ _ _)
    | dsimp only
    | split
    | (intro hk; (try dsimp only); repeat' first | exact hk | split | exact ⟨by first | exact hk.chans | simpa using hk.chans | simpa using h.inv.path.chans, by first | exact hk.shares | simpa using hk.shares | simpa using h.inv.path.shares⟩)

theorem good_State_keepAliveMachines {o : Otp} {q : List Instr} {s : State} (h : Good o q s) (l : List Nat) :
    Good o q (s.keepAliveMachines l) := by
  unfold State.keepAliveMachines
  refine good_foldl ?_ h
  intro t n ht
  extract_lets st m x
  split
  · exact ht
  · split
    · split
      · exact ht
      · exact good_State_modStrand ht _ _
    · split
      · exact good_State_modStrand ht _ _
      · exact ht

theorem good_State_noteReversals {o : Otp} {q : List Instr} {s : State} (h : Good o q s) : ∀ a1 a2, Good o q (State.noteReversals s a1 a2) := by
  intro a1 a2
  unfold State.noteReversals
  repeat' first
    | with_reducible assumption
    | with_reducible apply good_State_modStrand
    | (with_reducible apply good_foldl; intro _ _ _)
    | dsimp only
    | split
    | (intro hk; (try dsimp only); repeat' first | exact hk | split)

theorem good_State_enterDrops {o : Otp} {q : List Instr} {s : State} (h : Good o q s) : Good o q (State.enterDrops s) := by
  unfold State.enterDrops
  repeat' first
    | with_reducible assumption
    | with_reducible apply good_modConv
    | (with_reducible apply good_foldl; intro _ _ _)
    | dsimp only
    | split
    | (intro hk; (try dsimp only); repeat' first | exact hk | split | exact ⟨by first | exact hk.lanes | simpa using hk.lanes | simpa using h.inv.conv.lanes, by first | exact hk.legs | simpa using hk.legs | simpa using h.inv.conv.legs, by first | exact hk.decims | simpa using hk.decims | simpa using h.inv.conv.decims⟩)

theorem good_State_pathDecision {o : Otp} {q : List Instr} {s : State} (h : Good o q s) : Good o q (State.pathDecision s).2.2.2.2 := by
  unfold State.pathDecision
  repeat' first
    | with_reducible assumption
    | with_reducible apply good_State_tellBoost
    | with_reducible apply good_State_clampTo
    | with_reducible refine good_State_clampTo_eq (by assumption) ?_
    | (with_reducible apply good_foldl; intro _ _ _)
    | dsimp only
    | split
    | (intro hk; (try dsimp only); repeat' first | exact hk | split)

theorem good_State_pathDecision_eq {o : Otp} {q : List Instr} {s t : State}  {x0} {x1} {x2} {x3} (e : State.pathDecision s = (x0, x1, x2, x3, t)) (h : Good o q s) : Good o q t := by
  have := good_State_pathDecision h
  rw [e] at this
  exact this

theorem good_State_computeAllotment {o : Otp} {q : List Instr} {s : State} (h : Good o q s) : Good o q s.computeAllotment := by
  unfold State.computeAllotment
  extract_lets s1 s2
  have h2 : Good o q s2 :=
    good_foldl (fun _ _ h => good_State_decidePlan h _) (good_foldl (fun _ _ h => good_State_computeStrand h _) h)
  split
  rename_i p r boost vT s3 e
  have h3 : Good o q s3 := good_State_pathDecision_eq e h2
  extract_lets s4 s5 s6 fields bz4 vLink need
  have h5 : Good o q s5 :=
    good_modCharge (fun hk => ⟨by simpa using hk.strands⟩) (good_State_keepAliveMachines h3 _)
  have h6 : Good o q s6 := good_State_noteReversals (good_foldl (fun _ _ h => good_State_closeStrand h _) h5) _ _
  clear_value s6 s2
  refine good_modPath (fun hk => ⟨hk.chans, ?_⟩) h6
  simpa using h6.inv.charge.strands

theorem good_State_fieldOff {o : Otp} {q : List Instr} {s : State} (h : Good o q s) : ∀ a1, Good o q (State.fieldOff s a1) := by
  intro a1
  unfold State.fieldOff
  repeat' first
    | with_reducible assumption
    | with_reducible apply good_State_stopLane
    | with_reducible apply good_State_modLane
    | (with_reducible apply good_foldl; intro _ _ _)
    | dsimp only
    | split
    | (intro hk; (try dsimp only); repeat' first | exact hk | split)

theorem good_State_runIn {o : Otp} {q : List Instr} {s : State} (h : Good o q s) : ∀ a1 a2, Good o q (State.runIn s a1 a2) := by
  intro a1 a2
  unfold State.runIn
  repeat' first
    | with_reducible assumption
    | with_reducible apply good_State_launch
    | with_reducible apply good_State_reverseAtBoundary
    | with_reducible apply good_State_modLane
    | (with_reducible apply good_foldl; intro _ _ _)
    | dsimp only
    | split
    | (intro hk; (try dsimp only); repeat' first | exact hk | split)

theorem good_State_fieldCharge {o : Otp} {q : List Instr} {s : State} (h : Good o q s) : ∀ a1 a2 a3 a4, Good o q (State.fieldCharge s a1 a2 a3 a4) := by
  intro a1 a2 a3 a4
  unfold State.fieldCharge
  repeat' first
    | with_reducible assumption
    | with_reducible apply good_State_clampMax
    | with_reducible refine good_State_clampMax_eq (by assumption) ?_
    | with_reducible apply good_State_runIn
    | with_reducible apply good_State_modLane
    | (with_reducible apply good_foldl; intro _ _ _)
    | dsimp only
    | split
    | (intro hk; (try dsimp only); repeat' first | exact hk | split)

theorem good_State_fieldBoost {o : Otp} {q : List Instr} {s : State} (h : Good o q s) : ∀ a1 a2 a3 a4, Good o q (State.fieldBoost s a1 a2 a3 a4) := by
  intro a1 a2 a3 a4
  unfold State.fieldBoost
  repeat' first
    | with_reducible assumption
    | with_reducible apply good_State_fieldOff
    | with_reducible apply good_State_countClamps
    | with_reducible apply good_State_clampMax
    | with_reducible refine good_State_clampMax_eq (by assumption) ?_
    | with_reducible apply good_State_clampTo
    | with_reducible refine good_State_clampTo_eq (by assumption) ?_
    | with_reducible apply good_State_runIn
    | with_reducible apply good_State_modLane
    | (with_reducible apply good_foldl; intro _ _ _)
    | dsimp only
    | split
    | (intro hk; (try dsimp only); repeat' first | exact hk | split)

theorem good_State_applyField {o : Otp} {q : List Instr} {s : State} (h : Good o q s) : ∀ a1 a2 a3 a4, Good o q (State.applyField s a1 a2 a3 a4) := by
  intro a1 a2 a3 a4
  unfold State.applyField
  repeat' first
    | with_reducible assumption
    | with_reducible apply good_State_modLane
    | with_reducible apply good_State_fieldOff
    | with_reducible apply good_State_fieldBoost
    | with_reducible apply good_State_fieldCharge
    | (with_reducible apply good_foldl; intro _ _ _)
    | dsimp only
    | split
    | (intro hk; (try dsimp only); repeat' first | exact hk | split)

theorem good_State_applyEntry {o : Otp} {q : List Instr} {s : State} (h : Good o q s) : ∀ a1 a2 a3, Good o q (State.applyEntry s a1 a2 a3) := by
  intro a1 a2 a3
  unfold State.applyEntry
  repeat' first
    | with_reducible assumption
    | with_reducible apply good_State_applyField
    | (with_reducible apply good_foldl; intro _ _ _)
    | dsimp only
    | split
    | (intro hk; (try dsimp only); repeat' first | exact hk | split)

theorem good_State_applyBz4 {o : Otp} {q : List Instr} {s : State} (h : Good o q s) : ∀ a1, Good o q (State.applyBz4 s a1) := by
  intro a1
  unfold State.applyBz4
  repeat' first
    | with_reducible assumption
    | with_reducible apply good_State_modChan
    | with_reducible apply good_State_closeChan
    | with_reducible apply good_State_openChan
    | (with_reducible apply good_foldl; intro _ _ _)
    | dsimp only
    | split
    | (intro hk; (try dsimp only); repeat' first | exact hk | split)

theorem good_State_failPrecharge {o : Otp} {q : List Instr} {s : State} (h : Good o q s) : ∀ a1, Good o q (State.failPrecharge s a1) := by
  intro a1
  unfold State.failPrecharge
  repeat' first
    | with_reducible assumption
    | with_reducible apply good_State_openChan
    | with_reducible apply good_State_event
    | with_reducible apply good_State_openTrip
    | (with_reducible apply good_foldl; intro _ _ _)
    | dsimp only
    | split
    | (intro hk; (try dsimp only); repeat' first | exact hk | split)

theorem good_State_applyDecided {o : Otp} {q : List Instr} {s : State} (h : Good o q s) : Good o q (State.applyDecided s) := by
  unfold State.applyDecided
  repeat' first
    | with_reducible assumption
    | with_reducible apply good_State_applyEntry
    | with_reducible apply good_State_openChan
    | with_reducible apply good_modPath
    | with_reducible apply good_State_failPrecharge
    | with_reducible apply good_State_closeChan
    | with_reducible apply good_State_applyBz4
    | (with_reducible apply good_foldl; intro _ _ _)
    | dsimp only
    | split
    | (intro hk; (try dsimp only); repeat' first | exact hk | split | exact ⟨by first | exact hk.chans | simpa using hk.chans | simpa using h.inv.path.chans, by first | exact hk.shares | simpa using hk.shares | simpa using h.inv.path.shares⟩)

theorem good_State_decideHolder {o : Otp} {q : List Instr} {s : State} (h : Good o q s) : Good o q (State.decideHolder s) := by
  unfold State.decideHolder
  repeat' first
    | with_reducible assumption
    | with_reducible apply good_State_event
    | with_reducible apply good_modPath
    | with_reducible apply good_State_pendantEnd
    | with_reducible apply good_State_pendantAim
    | (with_reducible apply good_foldl; intro _ _ _)
    | dsimp only
    | split
    | (intro hk; (try dsimp only); repeat' first | exact hk | split | exact ⟨by first | exact hk.chans | simpa using hk.chans | simpa using h.inv.path.chans, by first | exact hk.shares | simpa using hk.shares | simpa using h.inv.path.shares⟩)

theorem good_State_samplePendant {o : Otp} {q : List Instr} {s : State} (h : Good o q s) : Good o q (State.samplePendant s) := by
  unfold State.samplePendant
  repeat' first
    | with_reducible assumption
    | with_reducible apply good_modPath
    | (with_reducible apply good_foldl; intro _ _ _)
    | dsimp only
    | split
    | (intro hk; (try dsimp only); repeat' first | exact hk | split | exact ⟨by first | exact hk.chans | simpa using hk.chans | simpa using h.inv.path.chans, by first | exact hk.shares | simpa using hk.shares | simpa using h.inv.path.shares⟩)

theorem good_State_enterPeer {o : Otp} {q : List Instr} {s : State} (h : Good o q s) : Good o q (State.enterPeer s) := by
  unfold State.enterPeer
  repeat' first
    | with_reducible assumption
    | with_reducible apply good_modPath
    | with_reducible apply good_State_event
    | (with_reducible apply good_foldl; intro _ _ _)
    | dsimp only
    | split
    | (intro hk; (try dsimp only); repeat' first | exact hk | split | exact ⟨by first | exact hk.chans | simpa using hk.chans | simpa using h.inv.path.chans, by first | exact hk.shares | simpa using hk.shares | simpa using h.inv.path.shares⟩)

theorem good_State_sendPeer {o : Otp} {q : List Instr} {s : State} (h : Good o q s) : Good o q (State.sendPeer s) := by
  unfold State.sendPeer
  repeat' first
    | with_reducible assumption
    | with_reducible apply good_modCmd
    | (with_reducible apply good_foldl; intro _ _ _)
    | dsimp only
    | split
    | (intro hk; (try dsimp only); repeat' first | exact hk | exact sound_sendOut rfl hk | with_reducible apply sound_setOut | split | exact hk.of_eq rfl rfl rfl rfl rfl rfl rfl)

theorem good_State_loadChan {o : Otp} {q : List Instr} {s : State} (h : Good o q s) : ∀ a1 a2, Good o q (State.loadChan s a1 a2) := by
  intro a1 a2
  unfold State.loadChan
  repeat' first
    | with_reducible assumption
    | with_reducible apply good_State_modChan
    | with_reducible apply good_State_setChan
    | (with_reducible apply good_foldl; intro _ _ _)
    | dsimp only
    | split
    | (intro hk; (try dsimp only); repeat' first | exact hk | split)

end Sys2Proof.Machine
end

