-- ==== Sys2Proof/Laws/SoundChain.lean ====
section
/-!
SUPPORT. Every function keeps a good state (`Good`): the chain, the Pendant, flash, system, timers and memory integrity.
-/
set_option linter.unusedTactic false
set_option linter.unreachableTactic false
set_option linter.unusedVariables false

namespace Sys2Proof.Machine

/-! ### Slolos -/

theorem good_State_repliesGone {o : Otp} {q : List Instr} {s : State} (h : Good o q s) : Good o q (State.repliesGone s) := by
  unfold State.repliesGone
  repeat' first
    | with_reducible assumption
    | with_reducible apply good_modCmd
    | (with_reducible apply good_foldl; intro _ _ _)
    | dsimp only
    | split
    | (intro hk; (try dsimp only); repeat' first | exact hk | split | exact sound_filterFlights hk | exact sound_dropFlight hk | exact hk.of_eq rfl rfl rfl rfl rfl rfl rfl)

theorem sound_Slolos_passBurst {x : Slolos} (h : x.Sound) : ∀ a1, (Slolos.passBurst x a1).Sound := by
  intro a1
  unfold Slolos.passBurst
  repeat' first | exact h | dsimp only | split | exact ⟨by first | exact h.ctxs | simpa using h.ctxs, by first | exact h.marker | simpa using h.marker⟩

theorem good_State_relayBulk {o : Otp} {q : List Instr} {s : State} (h : Good o q s) : ∀ a1, Good o q (State.relayBulk s a1) := by
  intro a1
  unfold State.relayBulk
  repeat' first
    | with_reducible assumption
    | with_reducible apply good_modSlolos
    | with_reducible apply good_State_sendUp
    | (with_reducible apply good_foldl; intro _ _ _)
    | dsimp only
    | split
    | (intro hk; (try dsimp only); repeat' first | exact hk | split | exact ⟨by first | exact hk.ctxs | simpa using hk.ctxs | simpa using h.inv.slolos.ctxs, by first | exact hk.marker | simpa using hk.marker | simpa using h.inv.slolos.marker⟩)

theorem sound_Slolos_halt {x : Slolos} (h : x.Sound) : (Slolos.halt x).Sound := by
  unfold Slolos.halt
  repeat' first | exact h | dsimp only | split | exact ⟨by first | exact h.ctxs | simpa using h.ctxs, by first | exact h.marker | simpa using h.marker⟩

theorem good_State_badFrame {o : Otp} {q : List Instr} {s : State} (h : Good o q s) : ∀ a1, Good o q (State.badFrame s a1) := by
  intro a1
  unfold State.badFrame
  repeat' first
    | with_reducible assumption
    | with_reducible apply good_modSlolos
    | (with_reducible apply good_foldl; intro _ _ _)
    | dsimp only
    | split
    | (intro hk; (try dsimp only); repeat' first | exact hk | split | exact ⟨by first | exact hk.ctxs | simpa using hk.ctxs | simpa using h.inv.slolos.ctxs, by first | exact hk.marker | simpa using hk.marker | simpa using h.inv.slolos.marker⟩)

theorem good_State_hearFrame {o : Otp} {q : List Instr} {s : State} (h : Good o q s) : ∀ a1, Good o q (State.hearFrame s a1) := by
  intro a1
  unfold State.hearFrame
  repeat' first
    | with_reducible assumption
    | with_reducible apply good_State_badFrame
    | (with_reducible apply good_foldl; intro _ _ _)
    | dsimp only
    | split
    | (intro hk; (try dsimp only); repeat' first | exact hk | split)

theorem good_State_chainBit {o : Otp} {q : List Instr} {s : State} (h : Good o q s) : Good o q (State.chainBit s) := by
  unfold State.chainBit
  repeat' first
    | with_reducible assumption
    | with_reducible apply good_modTime
    | (with_reducible apply good_foldl; intro _ _ _)
    | dsimp only
    | split
    | (intro hk; (try dsimp only); repeat' first | exact hk | split | exact ⟨by first | exact hk.timers | simpa using hk.timers | simpa using h.inv.time.timers, by first | exact hk.captures | simpa using hk.captures | simpa using h.inv.time.captures, by first | exact hk.epoch | simpa using hk.epoch | simpa using h.inv.time.epoch⟩)

theorem good_State_chainEvent {o : Otp} {q : List Instr} {s : State} (h : Good o q s) : ∀ a1 a2 a3 a4 a5, Good o q (State.chainEvent s a1 a2 a3 a4 a5) := by
  intro a1 a2 a3 a4 a5
  unfold State.chainEvent
  repeat' first
    | with_reducible assumption
    | with_reducible apply good_State_dueFirst
    | (with_reducible apply good_foldl; intro _ _ _)
    | dsimp only
    | split
    | (intro hk; (try dsimp only); repeat' first | exact hk | split)

theorem good_State_chainBroken {o : Otp} {q : List Instr} {s : State} (h : Good o q s) : ∀ a1 a2, Good o q (State.chainBroken s a1 a2) := by
  intro a1 a2
  unfold State.chainBroken
  repeat' first
    | with_reducible assumption
    | with_reducible apply good_modSlolos
    | with_reducible apply good_State_chainBit
    | with_reducible apply good_State_chainEvent
    | (with_reducible apply good_foldl; intro _ _ _)
    | dsimp only
    | split
    | (intro hk; (try dsimp only); repeat' first | exact hk | split | exact ⟨by first | exact hk.ctxs | simpa using hk.ctxs | simpa using h.inv.slolos.ctxs, by first | exact hk.marker | simpa using hk.marker | simpa using h.inv.slolos.marker⟩)

theorem good_State_wakeWorkers {o : Otp} {q : List Instr} {s : State} (h : Good o q s) : Good o q (State.wakeWorkers s) := by
  unfold State.wakeWorkers
  repeat' first
    | with_reducible assumption
    | with_reducible apply good_State_sendB
    | with_reducible apply good_State_sendA
    | (with_reducible apply good_foldl; intro _ _ _)
    | dsimp only
    | split
    | (intro hk; (try dsimp only); repeat' first | exact hk | split)

theorem good_State_startPass {o : Otp} {q : List Instr} {s : State} (h : Good o q s) : ∀ a1, Good o q (State.startPass s a1) := by
  intro a1
  unfold State.startPass
  repeat' first
    | with_reducible assumption
    | with_reducible apply good_State_sendB
    | with_reducible apply good_modSlolos
    | (with_reducible apply good_foldl; intro _ _ _)
    | dsimp only
    | split
    | (intro hk; (try dsimp only); repeat' first | exact hk | split | exact ⟨by first | exact hk.ctxs | simpa using hk.ctxs | simpa using h.inv.slolos.ctxs, by first | exact hk.marker | simpa using hk.marker | simpa using h.inv.slolos.marker⟩)

theorem good_State_ringRestored {o : Otp} {q : List Instr} {s : State} (h : Good o q s) : Good o q (State.ringRestored s) := by
  unfold State.ringRestored
  repeat' first
    | with_reducible assumption
    | with_reducible apply good_State_chainEvent
    | with_reducible apply good_modSlolos
    | (with_reducible apply good_foldl; intro _ _ _)
    | dsimp only
    | split
    | (intro hk; (try dsimp only); repeat' first | exact hk | split | exact ⟨by first | exact hk.ctxs | simpa using hk.ctxs | simpa using h.inv.slolos.ctxs, by first | exact hk.marker | simpa using hk.marker | simpa using h.inv.slolos.marker⟩)

theorem good_State_finishPass {o : Otp} {q : List Instr} {s : State} (h : Good o q s) : ∀ a1 a2, Good o q (State.finishPass s a1 a2) := by
  intro a1 a2
  unfold State.finishPass
  repeat' first
    | with_reducible assumption
    | with_reducible apply good_modSlolos
    | with_reducible apply good_State_ringRestored
    | (with_reducible refine good_State_setReady (by simp) ?_)
    | with_reducible apply good_State_setReady
    | with_reducible apply good_State_chainEvent
    | (with_reducible apply good_foldl; intro _ _ _)
    | dsimp only
    | split
    | (intro hk; (try dsimp only); repeat' first | exact hk | split | exact ⟨by first | exact hk.ctxs | simpa using hk.ctxs | simpa using h.inv.slolos.ctxs, by first | exact hk.marker | simpa using hk.marker | simpa using h.inv.slolos.marker⟩)

theorem good_State_takeAddress {o : Otp} {q : List Instr} {s : State} (h : Good o q s) : ∀ a1 a2 a3, Good o q (State.takeAddress s a1 a2 a3).2 := by
  intro a1 a2 a3
  unfold State.takeAddress
  repeat' first
    | with_reducible assumption
    | with_reducible apply good_State_takeBit
    | with_reducible refine good_State_takeBit_eq (by assumption) ?_
    | (with_reducible apply good_foldl; intro _ _ _)
    | dsimp only
    | split
    | (intro hk; (try dsimp only); repeat' first | exact hk | split)

theorem good_State_takeAddress_eq {o : Otp} {q : List Instr} {s t : State} {a1} {a2} {a3} {x0} (e : State.takeAddress s a1 a2 a3 = (x0, t)) (h : Good o q s) : Good o q t := by
  have := good_State_takeAddress h a1 a2 a3
  rw [e] at this
  exact this

theorem good_State_workerEnum {o : Otp} {q : List Instr} {s : State} (h : Good o q s) : ∀ a1 a2 a3 a4 a5, Good o q (State.workerEnum s a1 a2 a3 a4 a5) := by
  intro a1 a2 a3 a4 a5
  unfold State.workerEnum
  repeat' first
    | with_reducible assumption
    | with_reducible apply good_State_sendUp
    | with_reducible apply good_modSlolos
    | with_reducible apply good_State_sendA
    | with_reducible apply good_State_takeAddress
    | with_reducible refine good_State_takeAddress_eq (by assumption) ?_
    | with_reducible apply good_modTime
    | with_reducible apply good_State_sendB
    | (with_reducible apply good_foldl; intro _ _ _)
    | dsimp only
    | split
    | (intro hk; (try dsimp only); repeat' first | exact hk | with_reducible apply sound_Slolos_join | split | exact ⟨by first | exact hk.timers | simpa using hk.timers | simpa using h.inv.time.timers, by first | exact hk.captures | simpa using hk.captures | simpa using h.inv.time.captures, by first | exact hk.epoch | simpa using hk.epoch | simpa using h.inv.time.epoch⟩ | exact ⟨by first | exact hk.ctxs | simpa using hk.ctxs | simpa using h.inv.slolos.ctxs, by first | exact hk.marker | simpa using hk.marker | simpa using h.inv.slolos.marker⟩)

theorem good_State_cappedAt {o : Otp} {q : List Instr} {s : State} (h : Good o q s) : ∀ a1, Good o q (State.cappedAt s a1) := by
  intro a1
  unfold State.cappedAt
  repeat' first
    | with_reducible assumption
    | with_reducible apply good_modTime
    | with_reducible apply good_modSlolos
    | (with_reducible apply good_foldl; intro _ _ _)
    | dsimp only
    | split
    | (intro hk; (try dsimp only); repeat' first | exact hk | split | exact ⟨by first | exact hk.timers | simpa using hk.timers | simpa using h.inv.time.timers, by first | exact hk.captures | simpa using hk.captures | simpa using h.inv.time.captures, by first | exact hk.epoch | simpa using hk.epoch | simpa using h.inv.time.epoch⟩ | exact ⟨by first | exact hk.ctxs | simpa using hk.ctxs | simpa using h.inv.slolos.ctxs, by first | exact hk.marker | simpa using hk.marker | simpa using h.inv.slolos.marker⟩)

theorem good_State_enumAnswer {o : Otp} {q : List Instr} {s : State} (h : Good o q s) (die : List Byte) (r a d : Nat) :
    Good o q (s.enumAnswer die r a d) := by
  unfold State.enumAnswer
  extract_lets y c s0 x s1
  have hm : ∀ f, Good o q (s.modSlolos fun y => y.modCtx a f) := fun f =>
    good_modSlolos (f := fun y => y.modCtx a f) (fun hk => sound_Slolos_modCtx hk _ _) h
  have h0 : Good o q s0 := good_State_chainEvent h _ _ _ _ _
  have h1 : Good o q s1 := good_modSlolos (fun hk => by
    have := sound_Slolos_modCtx hk a (fun c =>
      { Ctx.absent with state := .enumerated, joining := true, wq := r % 2 = 1, dieId := die, d := heldDelay d, dRev := c.dRev })
    exact ⟨this.ctxs, this.marker⟩) h
  clear_value s0 s1
  split
  · exact hm _
  split
  · split
    · exact good_State_chainEvent h0 _ _ _ _ _
    split
    · exact good_State_cappedAt h0 _
    · exact h0
  split
  · exact h
  split
  · exact good_State_cappedAt (hm _) _
  split
  · exact good_State_chainEvent h _ _ _ _ _
  split
  · exact good_State_chainEvent h1 _ _ _ _ _
  · exact h1

theorem good_State_joinPass {o : Otp} {q : List Instr} {s : State} (h : Good o q s) : Good o q (State.joinPass s) := by
  unfold State.joinPass
  repeat' first
    | with_reducible assumption
    | with_reducible apply good_State_startPass
    | (with_reducible apply good_foldl; intro _ _ _)
    | dsimp only
    | split
    | (intro hk; (try dsimp only); repeat' first | exact hk | split)

theorem good_State_cutOffBz4 {o : Otp} {q : List Instr} {s : State} (h : Good o q s) : Good o q (State.cutOffBz4 s) := by
  unfold State.cutOffBz4
  repeat' first
    | with_reducible assumption
    | with_reducible apply good_State_openChan
    | with_reducible apply good_State_modChan
    | (with_reducible apply good_foldl; intro _ _ _)
    | dsimp only
    | split
    | (intro hk; (try dsimp only); repeat' first | exact hk | split)

theorem good_State_cutOffNow {o : Otp} {q : List Instr} {s : State} (h : Good o q s) : Good o q s.cutOffNow := by
  unfold State.cutOffNow
  extract_lets s1 s2 s3
  have h1 : Good o q s1 := good_modSlolos (fun hk => ⟨hk.ctxs, hk.marker⟩) h
  have h2 : Good o q s2 := good_foldl (fun _ _ h => good_State_stopNow h _) h1
  have h3 : Good o q s3 := good_modCmd (fun hk => sound_filterFlights hk) h2
  exact good_State_cutOffBz4 (good_modGeode h3)

theorem leNat_lt (l : List Byte) : leNat l < 256 ^ l.length := by
  induction l with
  | nil => simp [leNat]
  | cons b l ih =>
    simp only [leNat, List.length_cons, Nat.pow_succ]
    have := b.isLt
    omega

theorem fieldAt_lt (p : List Byte) (off len : Nat) : fieldAt p off len < 256 ^ len := by
  unfold fieldAt
  refine Nat.lt_of_lt_of_le (leNat_lt _) (Nat.pow_le_pow_right (by decide) ?_)
  simp [slice]

theorem good_State_takeMarker {o : Otp} {q : List Instr} {s : State} (h : Good o q s) (b : Bool) (p : List Byte) :
    Good o q (s.takeMarker b p) := by
  unfold State.takeMarker
  extract_lets e y
  split
  · exact good_State_badFrame h _
  · split
    · exact h
    · refine good_modSlolos (fun hk => ⟨hk.ctxs, ?_⟩) h
      intro m hm
      simp only [Option.some.injEq] at hm
      rw [← hm]
      exact fieldAt_lt p 0 4

theorem good_State_loseWorker {o : Otp} {q : List Instr} {s : State} (h : Good o q s) : ∀ a1, Good o q (State.loseWorker s a1) := by
  intro a1
  unfold State.loseWorker
  repeat' first
    | with_reducible assumption
    | with_reducible apply good_State_chainEvent
    | with_reducible apply good_State_loseQueue
    | with_reducible apply good_modSlolos
    | (with_reducible apply good_foldl; intro _ _ _)
    | dsimp only
    | split
    | (intro hk; (try dsimp only); repeat' first | exact hk | with_reducible apply sound_Slolos_modCtx | split | exact ⟨by first | exact hk.ctxs | simpa using hk.ctxs | simpa using h.inv.slolos.ctxs, by first | exact hk.marker | simpa using hk.marker | simpa using h.inv.slolos.marker⟩)

theorem good_State_beginSum {o : Otp} {q : List Instr} {s : State} (h : Good o q s) : Good o q s.beginSum := by
  unfold State.beginSum
  extract_lets e missing s1 s2 gone
  have h1 : Good o q s1 := good_modSlolos (fun hk => ⟨by simpa using hk.ctxs, hk.marker⟩) h
  have h2 : Good o q s2 := good_modTime (fun hk => ⟨hk.timers, hk.captures, hk.epoch⟩) h1
  exact good_foldl (fun _ _ h => good_State_loseWorker h _) h2

theorem good_State_sumEcho {o : Otp} {q : List Instr} {s : State} (h : Good o q s) : Good o q (State.sumEcho s) := by
  unfold State.sumEcho
  repeat' first
    | with_reducible assumption
    | with_reducible apply good_modProt
    | (with_reducible apply good_foldl; intro _ _ _)
    | dsimp only
    | split
    | (intro hk; (try dsimp only); repeat' first | exact hk | split | exact ⟨by first | exact hk.echo | simpa using hk.echo | simpa using h.inv.prot.echo, by first | exact hk.crowbars | simpa using hk.crowbars | simpa using h.inv.prot.crowbars⟩)

theorem good_State_allotmentFrame {o : Otp} {q : List Instr} {s : State} (h : Good o q s) : Good o q (State.allotmentFrame s) := by
  unfold State.allotmentFrame
  repeat' first
    | with_reducible assumption
    | with_reducible apply good_State_sendDown
    | with_reducible apply good_modSlolos
    | (with_reducible apply good_foldl; intro _ _ _)
    | dsimp only
    | split
    | (intro hk; (try dsimp only); repeat' first | exact hk | split | exact ⟨by first | exact hk.ctxs | simpa using hk.ctxs | simpa using h.inv.slolos.ctxs, by first | exact hk.marker | simpa using hk.marker | simpa using h.inv.slolos.marker⟩)

theorem good_State_applyAllotment {o : Otp} {q : List Instr} {s : State} (h : Good o q s) : Good o q (State.applyAllotment s) := by
  unfold State.applyAllotment
  repeat' first
    | with_reducible assumption
    | with_reducible apply good_modPath
    | with_reducible apply good_modSlolos
    | with_reducible apply good_State_applyBz4
    | with_reducible apply good_State_applyEntry
    | (with_reducible apply good_foldl; intro _ _ _)
    | dsimp only
    | split
    | (intro hk; (try dsimp only); repeat' first | exact hk | split | exact ⟨by first | exact hk.chans | simpa using hk.chans | simpa using h.inv.path.chans, by first | exact hk.shares | simpa using hk.shares | simpa using h.inv.path.shares⟩ | exact ⟨by first | exact hk.ctxs | simpa using hk.ctxs | simpa using h.inv.slolos.ctxs, by first | exact hk.marker | simpa using hk.marker | simpa using h.inv.slolos.marker⟩)

theorem good_State_chainBoundary {o : Otp} {q : List Instr} {s : State} (h : Good o q s) : Good o q (State.chainBoundary s) := by
  unfold State.chainBoundary
  repeat' first
    | with_reducible assumption
    | with_reducible apply good_modSlolos
    | with_reducible apply good_State_joinPass
    | with_reducible apply good_State_chainBit
    | (with_reducible apply good_foldl; intro _ _ _)
    | dsimp only
    | split
    | (intro hk; (try dsimp only); repeat' first | exact hk | split | exact ⟨by first | exact hk.ctxs | simpa using hk.ctxs | simpa using h.inv.slolos.ctxs, by first | exact hk.marker | simpa using hk.marker | simpa using h.inv.slolos.marker⟩)

theorem good_State_fullEnumeration {o : Otp} {q : List Instr} {s : State} (h : Good o q s) : Good o q (State.fullEnumeration s) := by
  unfold State.fullEnumeration
  repeat' first
    | with_reducible assumption
    | with_reducible apply good_State_loseQueue
    | with_reducible apply good_State_sendDown
    | with_reducible apply good_State_startPass
    | with_reducible apply good_modSlolos
    | (with_reducible apply good_foldl; intro _ _ _)
    | dsimp only
    | split
    | (intro hk; (try dsimp only); repeat' first | exact hk | split | exact ⟨by first | exact hk.ctxs | simpa using hk.ctxs | simpa using h.inv.slolos.ctxs, by first | exact hk.marker | simpa using hk.marker | simpa using h.inv.slolos.marker⟩)

theorem good_State_managerFault {o : Otp} {q : List Instr} {s : State} (h : Good o q s) : ∀ a1 a2 a3, Good o q (State.managerFault s a1 a2 a3) := by
  intro a1 a2 a3
  unfold State.managerFault
  repeat' first
    | with_reducible assumption
    | with_reducible apply good_modProt
    | (with_reducible apply good_foldl; intro _ _ _)
    | dsimp only
    | split
    | (intro hk; (try dsimp only); repeat' first | exact hk | split | exact ⟨by first | exact hk.echo | simpa using hk.echo | simpa using h.inv.prot.echo, by first | exact hk.crowbars | simpa using hk.crowbars | simpa using h.inv.prot.crowbars⟩)

theorem good_State_workerFault {o : Otp} {q : List Instr} {s : State} (h : Good o q s) : ∀ a1 a2 a3 a4 a5, Good o q (State.workerFault s a1 a2 a3 a4 a5) := by
  intro a1 a2 a3 a4 a5
  unfold State.workerFault
  repeat' first
    | with_reducible assumption
    | with_reducible apply good_State_sendA
    | with_reducible apply good_State_sendB
    | with_reducible apply good_modSlolos
    | with_reducible apply good_modProt
    | (with_reducible apply good_foldl; intro _ _ _)
    | dsimp only
    | split
    | (intro hk; (try dsimp only); repeat' first | exact hk | split | exact ⟨by first | exact hk.echo | simpa using hk.echo | simpa using h.inv.prot.echo, by first | exact hk.crowbars | simpa using hk.crowbars | simpa using h.inv.prot.crowbars⟩ | exact ⟨by first | exact hk.ctxs | simpa using hk.ctxs | simpa using h.inv.slolos.ctxs, by first | exact hk.marker | simpa using hk.marker | simpa using h.inv.slolos.marker⟩)

/-! ### PendantLink -/

theorem good_State_pendantAnswer {o : Otp} {q : List Instr} {s : State} (h : Good o q s) : ∀ a1 a2 a3, Good o q (State.pendantAnswer s a1 a2 a3) := by
  intro a1 a2 a3
  unfold State.pendantAnswer
  repeat' first
    | with_reducible assumption
    | with_reducible apply good_modPendant
    | (with_reducible apply good_foldl; intro _ _ _)
    | dsimp only
    | split
    | (intro hk; (try dsimp only); repeat' first | exact hk | split)

theorem good_State_startTransition {o : Otp} {q : List Instr} {s : State} (h : Good o q s) : ∀ a1 a2 a3, Good o q (State.startTransition s a1 a2 a3) := by
  intro a1 a2 a3
  unfold State.startTransition
  repeat' first
    | with_reducible assumption
    | with_reducible apply good_State_pendantEnd
    | with_reducible apply good_modPendant
    | (with_reducible apply good_foldl; intro _ _ _)
    | dsimp only
    | split
    | (intro hk; (try dsimp only); repeat' first | exact hk | split)

theorem good_State_setpoint {o : Otp} {q : List Instr} {s : State} (h : Good o q s) : ∀ a1, Good o q (State.setpoint s a1) := by
  intro a1
  unfold State.setpoint
  repeat' first
    | with_reducible assumption
    | with_reducible apply good_State_pendantAnswer
    | with_reducible apply good_State_startTransition
    | with_reducible apply good_modPendant
    | (with_reducible apply good_foldl; intro _ _ _)
    | dsimp only
    | split
    | (intro hk; (try dsimp only); repeat' first | exact hk | split)

theorem good_State_statusFrame {o : Otp} {q : List Instr} {s : State} (h : Good o q s) : ∀ a1, Good o q (State.statusFrame s a1) := by
  intro a1
  unfold State.statusFrame
  repeat' first
    | with_reducible assumption
    | with_reducible apply good_modPendant
    | with_reducible apply good_State_pendantAnswer
    | (with_reducible apply good_foldl; intro _ _ _)
    | dsimp only
    | split
    | (intro hk; (try dsimp only); repeat' first | exact hk | split)

theorem good_State_pendantFrame {o : Otp} {q : List Instr} {s : State} (h : Good o q s) : ∀ a1, Good o q (State.pendantFrame s a1) := by
  intro a1
  unfold State.pendantFrame
  repeat' first
    | with_reducible assumption
    | with_reducible apply good_State_pendantAnswer
    | with_reducible apply good_State_setpoint
    | with_reducible apply good_State_statusFrame
    | (with_reducible apply good_foldl; intro _ _ _)
    | dsimp only
    | split
    | (intro hk; (try dsimp only); repeat' first | exact hk | split)

theorem good_State_clampPendant {o : Otp} {q : List Instr} {s : State} (h : Good o q s) : Good o q (State.clampPendant s) := by
  unfold State.clampPendant
  repeat' first
    | with_reducible assumption
    | with_reducible apply good_State_clampTo
    | with_reducible refine good_State_clampTo_eq (by assumption) ?_
    | with_reducible apply good_modPendant
    | (with_reducible apply good_foldl; intro _ _ _)
    | dsimp only
    | split
    | (intro hk; (try dsimp only); repeat' first | exact hk | split)

/-! ### FlashOps -/

theorem good_State_ownRecord {o : Otp} {q : List Instr} {s : State} (h : Good o q s) : ∀ a1, Good o q (State.ownRecord s a1).2 := by
  intro a1
  unfold State.ownRecord
  repeat' first
    | with_reducible assumption
    | with_reducible apply good_State_takeNat
    | with_reducible refine good_State_takeNat_eq (by assumption) ?_
    | (with_reducible apply good_foldl; intro _ _ _)
    | dsimp only
    | split
    | (intro hk; (try dsimp only); repeat' first | exact hk | split)

theorem good_State_ownRecord_eq {o : Otp} {q : List Instr} {s t : State} {a1} {x0} (e : State.ownRecord s a1 = (x0, t)) (h : Good o q s) : Good o q t := by
  have := good_State_ownRecord h a1
  rw [e] at this
  exact this

theorem keeps_or {n : Nat} (x m : BitVec n) : x &&& ~~~(x ||| m) = 0 := by
  ext i hi
  simp
  intro a b
  simp [a] at b

theorem keeps_putBit {n : Nat} (x : BitVec n) (i : Nat) : x &&& ~~~(x.putBit i true) = 0 := by
  simp only [BitVec.putBit, if_true]
  exact keeps_or _ _

theorem Triple.keeps_program (t : Triple) (m : BitVec 4) : t.keeps (t.program m) :=
  ⟨keeps_or _ _, keeps_or _ _, keeps_or _ _⟩

theorem Otp.keeps_program (x : Otp) (c : Nat) (p : List Byte) (v : Nat) : x.Keeps (x.program c p v) := by
  have r := Otp.Keeps.refl x
  unfold Otp.program
  split
  · exact { r with keys := keeps_putBit _ _ }
  · exact { r with iRevoked := keeps_putBit _ _ }
  · exact { r with role := keeps_or _ _, wdg := keeps_or _ _ }
  · exact { r with rollback := Nat.le_max_left _ _ }
  · exact r

theorem good_State_programOtp {o : Otp} {q : List Instr} {s : State} (h : Good o q s) (f : Flight) :
    Good o q (s.programOtp f) :=
  good_modOtp (Otp.keeps_program _ _ _ _) h

theorem good_State_growFill {o : Otp} {q : List Instr} {s : State} (h : Good o q s) : ∀ a1, Good o q (State.growFill s a1) := by
  intro a1
  unfold State.growFill
  repeat' first
    | with_reducible assumption
    | with_reducible apply good_State_takeNat
    | with_reducible refine good_State_takeNat_eq (by assumption) ?_
    | with_reducible apply good_modFlash
    | (with_reducible apply good_foldl; intro _ _ _)
    | dsimp only
    | split
    | (intro hk; (try dsimp only); repeat' first | exact hk | split | exact ⟨by first | exact hk.staging | simpa using hk.staging | simpa using h.inv.flash.staging⟩)

theorem good_State_cutAppend {o : Otp} {q : List Instr} {s : State} (h : Good o q s) : ∀ a1 a2, Good o q (State.cutAppend s a1 a2) := by
  intro a1 a2
  unfold State.cutAppend
  repeat' first
    | with_reducible assumption
    | with_reducible apply good_modFlash
    | with_reducible apply good_State_growFill
    | (with_reducible apply good_foldl; intro _ _ _)
    | dsimp only
    | split
    | (intro hk; (try dsimp only); repeat' first | exact hk | split | exact ⟨by first | exact hk.staging | simpa using hk.staging | simpa using h.inv.flash.staging⟩)

theorem good_State_interruptFlash {o : Otp} {q : List Instr} {s : State} (h : Good o q s) : Good o q (State.interruptFlash s) := by
  unfold State.interruptFlash
  repeat' first
    | with_reducible assumption
    | with_reducible apply good_modFlash
    | with_reducible apply good_State_growFill
    | with_reducible apply good_State_cutAppend
    | with_reducible apply good_State_takeBit
    | with_reducible refine good_State_takeBit_eq (by assumption) ?_
    | with_reducible apply good_State_programOtp
    | (with_reducible apply good_foldl; intro _ _ _)
    | dsimp only
    | split
    | (intro hk; (try dsimp only); repeat' first | exact hk | with_reducible apply sound_Flash_keepPart | with_reducible apply sound_Flash_setCopy | split | exact ⟨by first | exact hk.staging | simpa using hk.staging | simpa using h.inv.flash.staging⟩)

/-! ### System -/

theorem good_State_pinReset {o : Otp} {q : List Instr} {s : State} (h : Good o q s) : Good o q (State.pinReset s) := by
  unfold State.pinReset
  repeat' first
    | with_reducible assumption
    | with_reducible apply good_modSys
    | with_reducible apply good_State_trigger
    | (with_reducible apply good_foldl; intro _ _ _)
    | dsimp only
    | split
    | (intro hk; (try dsimp only); repeat' first | exact hk | split | exact ⟨by first | exact hk.ready | simpa using hk.ready | simpa using h.inv.sys.ready⟩)

theorem sound_Cmd_reset : Cmd.reset.Sound := ⟨rfl, rfl, by decide, by decide, by decide, by decide, by decide, by decide⟩
theorem sound_Time_reset : Time.reset.Sound := ⟨rfl, by decide, by decide⟩
theorem sound_Memi_reset : Memi.reset.Sound := ⟨rfl, by decide⟩
theorem sound_Conv_reset : Conv.reset.Sound := ⟨rfl, rfl, rfl⟩
theorem sound_Prot_reset : Prot.reset.Sound := ⟨rfl, rfl⟩
theorem sound_Slolos_reset : Slolos.reset.Sound := ⟨List.length_replicate, by simp [Slolos.reset]⟩
theorem sound_Charge_reset : Charge.reset.Sound := ⟨rfl⟩
theorem sound_Meas_reset : Meas.reset.Sound := ⟨rfl, List.length_replicate, List.length_replicate⟩
theorem sound_Therm_reset : Therm.reset.Sound := ⟨rfl, rfl⟩

theorem good_State_wipe {o : Otp} {q : List Instr} {s : State} (h : Good o q s) (b : Bool) : Good o q (s.wipe b) := by
  refine ⟨?_, h.otp, h.queue⟩
  exact
    { sys := h.inv.sys
      flash := ⟨rfl⟩
      cmd := sound_Cmd_reset
      time := ⟨rfl, sound_Time_reset.captures, h.inv.time.epoch⟩
      wdg := ⟨Nat.zero_le _⟩
      memi := sound_Memi_reset
      conv := sound_Conv_reset
      prot := ⟨rfl, rfl⟩
      path := ⟨by simpa [State.wipe] using h.inv.path.chans, rfl⟩
      slolos := sound_Slolos_reset
      charge := sound_Charge_reset
      clasp := ⟨by simpa [State.wipe] using h.inv.clasp.ports⟩
      meas := sound_Meas_reset
      therm := by
        unfold State.wipe
        cases b
        · exact sound_Therm_reset
        · exact ⟨rfl, rfl⟩ }

theorem good_State_cutCrossing {α : Type} {o : Otp} {q : List Instr} {s : State} (h : Good o q s) (x : Option (Nat × α)) (n : α) :
    Good o q (s.cutCrossing x n).2 := by
  unfold State.cutCrossing
  split
  · exact h
  · split
    · exact h
    · exact good_State_takeBit h

theorem good_State_cutCrossing_eq {α : Type} {o : Otp} {q : List Instr} {s t : State} {x : Option (Nat × α)} {n y : α}
    (e : s.cutCrossing x n = (y, t)) (h : Good o q s) : Good o q t := by
  have := good_State_cutCrossing h x n
  rw [e] at this
  exact this

theorem good_State_cutCrossings {o : Otp} {q : List Instr} {s : State} (h : Good o q s) : Good o q (State.cutCrossings s) := by
  unfold State.cutCrossings
  repeat' first
    | with_reducible assumption
    | with_reducible apply good_State_cutCrossing
    | with_reducible refine good_State_cutCrossing_eq (by assumption) ?_
    | with_reducible apply good_modSys
    | (with_reducible apply good_foldl; intro _ _ _)
    | dsimp only
    | split
    | (intro hk; (try dsimp only); repeat' first | exact hk | split | exact ⟨by first | exact hk.ready | simpa using hk.ready | simpa using h.inv.sys.ready⟩)

theorem good_State_sampleStrap {o : Otp} {q : List Instr} {s : State} (h : Good o q s) : ∀ a1 a2, Good o q (State.sampleStrap s a1 a2).2 := by
  intro a1 a2
  unfold State.sampleStrap
  repeat' first
    | with_reducible assumption
    | with_reducible apply good_State_takeBit
    | with_reducible refine good_State_takeBit_eq (by assumption) ?_
    | (with_reducible apply good_foldl; intro _ _ _)
    | dsimp only
    | split
    | (intro hk; (try dsimp only); repeat' first | exact hk | split)

theorem good_State_sampleStrap_eq {o : Otp} {q : List Instr} {s t : State} {a1} {a2} {x0} (e : State.sampleStrap s a1 a2 = (x0, t)) (h : Good o q s) : Good o q t := by
  have := good_State_sampleStrap h a1 a2
  rw [e] at this
  exact this

theorem good_State_sampleStraps {o : Otp} {q : List Instr} {s : State} (h : Good o q s) : ∀ a1, Good o q (State.sampleStraps s a1) := by
  intro a1
  unfold State.sampleStraps
  repeat' first
    | with_reducible assumption
    | with_reducible apply good_State_sampleStrap
    | with_reducible refine good_State_sampleStrap_eq (by assumption) ?_
    | with_reducible apply good_modSys
    | (with_reducible apply good_foldl; intro _ _ _)
    | dsimp only
    | split
    | (intro hk; (try dsimp only); repeat' first | exact hk | split | exact ⟨by first | exact hk.ready | simpa using hk.ready | simpa using h.inv.sys.ready⟩)

theorem good_State_clockStart {o : Otp} {q : List Instr} {s : State} (h : Good o q s) : Good o q (State.clockStart s) := by
  unfold State.clockStart
  repeat' first
    | with_reducible assumption
    | with_reducible apply good_modSys
    | with_reducible apply good_modGeode
    | with_reducible apply good_State_recordFault
    | (with_reducible apply good_foldl; intro _ _ _)
    | dsimp only
    | split
    | (intro hk; (try dsimp only); repeat' first | exact hk | split | exact ⟨by first | exact hk.ready | simpa using hk.ready | simpa using h.inv.sys.ready⟩)

theorem good_State_endReset {o : Otp} {q : List Instr} {s : State} (h : Good o q s) (x : Straps) :
    Good o q (s.endReset x) := by
  unfold State.endReset
  extract_lets t restart cold s0 s1 forced code cause y1 y2
  have h0 : Good o q s0 := by
    simp only [s0]
    split
    · exact good_State_sampleStraps h _
    · exact h
  have h1 : Good o q s1 := by
    simp only [s1]
    split
    · exact good_modSys sound_Sys_forget h0
    · exact h0
  clear_value s0 s1
  split
  rename_i role refused e
  extract_lets epoch s2 s3
  have he : epoch < 2 ^ 32 := by
    simp only [epoch]
    split
    · decide
    · exact Nat.mod_lt _ (by decide)
  have h2 : Good o q s2 := by
    refine ⟨?_, h1.otp, h1.queue⟩
    exact { h1.inv with time := ⟨rfl, sound_Time_reset.captures, he⟩, wdg := ⟨Nat.zero_le _⟩, therm := sound_Therm_reset }
  clear_value s2
  have h3 : Good o q s3 := good_modSys (fun hk => ⟨hk.ready⟩) h2
  split
  · exact good_State_clockStart h3
  · exact h3

theorem good_State_clockLost {o : Otp} {q : List Instr} {s : State} (h : Good o q s) : ∀ a1, Good o q (State.clockLost s a1) := by
  intro a1
  unfold State.clockLost
  repeat' first
    | with_reducible assumption
    | with_reducible apply good_modSys
    | with_reducible apply good_State_trigger
    | with_reducible apply good_State_recordFault
    | (with_reducible apply good_foldl; intro _ _ _)
    | dsimp only
    | split
    | (intro hk; (try dsimp only); repeat' first | exact hk | split | exact ⟨by first | exact hk.ready | simpa using hk.ready | simpa using h.inv.sys.ready⟩)

theorem good_runLowPower {o : Otp} {q : List Instr} {s : State} (h : Good o q s) : ∀ a1 a2, Good o q (runLowPower a1 s a2).1 := by
  intro a1 a2
  unfold runLowPower
  repeat' first
    | with_reducible assumption
    | with_reducible apply good_State_dropFlight
    | with_reducible apply good_later
    | with_reducible refine good_later_eq (by assumption) ?_
    | with_reducible apply good_State_event
    | with_reducible apply good_modSys
    | (with_reducible apply good_foldl; intro _ _ _)
    | dsimp only
    | split
    | (intro hk; (try dsimp only); repeat' first | exact hk | split | exact ⟨by first | exact hk.ready | simpa using hk.ready | simpa using h.inv.sys.ready⟩)

theorem good_runLowPower_eq {o : Otp} {q : List Instr} {s t : State} {a1} {a2} {x1} (e : runLowPower a1 s a2 = (t, x1)) (h : Good o q s) : Good o q t := by
  have := good_runLowPower h a1 a2
  rw [e] at this
  exact this

theorem good_State_enterLowPower {o : Otp} {q : List Instr} {s : State} (h : Good o q s) : Good o q s.enterLowPower := by
  unfold State.enterLowPower
  split
  · exact h
  · rename_i hib _
    extract_lets s1
    have h1 : Good o q s1 := good_modSys (fun _ => ⟨(sound_Sys_sleep (x := s.sys)).ready⟩) h
    clear_value s1
    split
    · exact good_modSys (fun hk => ⟨hk.ready⟩) h1
    · exact good_modMeas sound_Meas_halt (good_State_claspStart (good_modTherm sound_Therm_start h1))

theorem good_State_latchWake {o : Otp} {q : List Instr} {s : State} (h : Good o q s) : ∀ a1, Good o q (State.latchWake s a1) := by
  intro a1
  unfold State.latchWake
  repeat' first
    | with_reducible assumption
    | with_reducible apply good_modSys
    | (with_reducible apply good_foldl; intro _ _ _)
    | dsimp only
    | split
    | (intro hk; (try dsimp only); repeat' first | exact hk | split | exact ⟨by first | exact hk.ready | simpa using hk.ready | simpa using h.inv.sys.ready⟩)

theorem good_State_endPast {o : Otp} {q : List Instr} {s : State} (h : Good o q s) : Good o q (State.endPast s) := by
  unfold State.endPast
  repeat' first
    | with_reducible assumption
    | with_reducible apply good_State_endWaiting
    | (with_reducible apply good_foldl; intro _ _ _)
    | dsimp only
    | split
    | (intro hk; (try dsimp only); repeat' first | exact hk | split)

/-! ### Timers -/

theorem good_State_timerWake {o : Otp} {q : List Instr} {s : State} (h : Good o q s) : ∀ a1, Good o q (State.timerWake s a1) := by
  intro a1
  unfold State.timerWake
  repeat' first
    | with_reducible assumption
    | with_reducible apply good_modSys
    | (with_reducible apply good_foldl; intro _ _ _)
    | dsimp only
    | split
    | (intro hk; (try dsimp only); repeat' first | exact hk | split | exact ⟨by first | exact hk.ready | simpa using hk.ready | simpa using h.inv.sys.ready⟩)

theorem good_State_timerEvents {o : Otp} {q : List Instr} {s : State} (h : Good o q s) : ∀ a1, Good o q (State.timerEvents s a1) := by
  intro a1
  unfold State.timerEvents
  repeat' first
    | with_reducible assumption
    | with_reducible apply good_State_event
    | with_reducible apply good_modTime
    | (with_reducible apply good_foldl; intro _ _ _)
    | dsimp only
    | split
    | (intro hk; (try dsimp only); repeat' first | exact hk | split | exact ⟨by first | exact hk.timers | simpa using hk.timers | simpa using h.inv.time.timers, by first | exact hk.captures | simpa using hk.captures | simpa using h.inv.time.captures, by first | exact hk.epoch | simpa using hk.epoch | simpa using h.inv.time.epoch⟩)

/-! ### MemoryIntegrity -/

theorem good_State_memiAdvance {o : Otp} {q : List Instr} {s : State} (h : Good o q s) (k : Nat) :
    Good o q (s.memiAdvance k) := by
  unfold State.memiAdvance
  split
  · refine good_modMemi (fun hk => sound_mapRams ?_ hk) h
    intro r hr
    exact Nat.le_trans (Nat.sub_le _ _) hr
  · exact h

theorem good_State_queueUncorr {o : Otp} {q : List Instr} {s : State} (h : Good o q s) : ∀ a1, Good o q (State.queueUncorr s a1) := by
  intro a1
  unfold State.queueUncorr
  repeat' first
    | with_reducible assumption
    | with_reducible apply good_State_dueEvent
    | with_reducible apply good_State_finish
    | (with_reducible apply good_foldl; intro _ _ _)
    | dsimp only
    | split
    | (intro hk; (try dsimp only); repeat' first | exact hk | split)

theorem good_State_uncorrectable {o : Otp} {q : List Instr} {s : State} (h : Good o q s) : ∀ a1 a2 a3 a4 a5, Good o q (State.uncorrectable s a1 a2 a3 a4 a5) := by
  intro a1 a2 a3 a4 a5
  unfold State.uncorrectable
  repeat' first
    | with_reducible assumption
    | with_reducible apply good_State_recordFault
    | with_reducible apply good_modMemi
    | with_reducible apply good_State_queueUncorr
    | with_reducible apply good_State_trigger
    | (with_reducible apply good_foldl; intro _ _ _)
    | dsimp only
    | split
    | (intro hk; (try dsimp only); repeat' first | exact hk | split | exact ⟨by first | exact hk.rams | simpa using hk.rams | simpa using h.inv.memi.rams, by first | exact hk.drip | simpa using hk.drip | simpa using h.inv.memi.drip⟩)

theorem good_modRam {o : Otp} {q : List Instr} {s : State} {f : Ram → Ram} (k : ∀ r, r.count ≤ r.ceiling → (f r).count ≤ (f r).ceiling)
    (h : Good o q s) (mem : Nat) : Good o q (s.modMemi fun m => m.modRam mem f) :=
  good_modMemi (fun hk => sound_Memi_modRam k hk _) h

theorem good_State_ramWrite {o : Otp} {q : List Instr} {s : State} (h : Good o q s) (mem word : Nat) : Good o q (s.ramWrite mem word) := by
  unfold State.ramWrite
  refine good_modMemi (fun hk => ?_) h
  have := sound_Memi_modRam (f := fun r => r.mark word (((s.memi.inject.filter fun x => x.1 == mem && x.2.2 == word).map (·.2.1)).getD 0))
    (fun _ hr => hr) hk mem
  exact ⟨this.rams, this.drip⟩

theorem good_State_ramFound {o : Otp} {q : List Instr} {s : State} (h : Good o q s) (mem word n syn r : Nat) (w : Option FlightKey) :
    Good o q (s.ramFound mem word n syn r w) := by
  unfold State.ramFound
  split
  · exact h
  · split
    · exact good_modRam (fun r _ => Ram.correct_le r) h _
    · exact good_State_uncorrectable h _ _ _ _ _

theorem good_State_ramCheck {o : Otp} {q : List Instr} {s : State} (h : Good o q s) (mem word flips syn r : Nat) (w : Option FlightKey)
    (b : Bool) : Good o q (s.ramCheck mem word flips syn r w b) := by
  unfold State.ramCheck
  exact good_State_ramFound (good_modRam (f := fun r => r.mark word _) (fun _ hr => hr) h _) _ _ _ _ _ _

theorem good_State_ramUse {o : Otp} {q : List Instr} {s : State} (h : Good o q s) : ∀ a1 a2, Good o q (State.ramUse s a1 a2) := by
  intro a1 a2
  unfold State.ramUse
  repeat' first
    | with_reducible assumption
    | with_reducible apply good_State_ramCheck
    | with_reducible apply good_State_ramWrite
    | (with_reducible apply good_foldl; intro _ _ _)
    | dsimp only
    | split
    | (intro hk; (try dsimp only); repeat' first | exact hk | split)

theorem good_State_scrub {o : Otp} {q : List Instr} {s : State} (h : Good o q s) (mem flips syn : Nat) (w : Option FlightKey) (a b : Bool) :
    Good o q (s.scrub mem flips syn w a b) := by
  unfold State.scrub
  extract_lets word n s1 s2
  have h1 : Good o q s1 :=
    good_modRam (f := fun r => { r.mark word 0 with scrubAt := (r.scrubAt + 1) % ramWords mem }) (fun _ hr => hr) h mem
  have h2 : Good o q s2 := by
    simp only [s2]
    by_cases c : a = true
    · rw [if_pos c]; exact good_State_ramWrite h1 _ _
    · rw [if_neg c]; exact h1
  split
  · exact h2
  · exact good_State_ramFound h2 _ _ _ _ _ _

theorem good_State_dripEvents {o : Otp} {q : List Instr} {s : State} (h : Good o q s) : ∀ a1, Good o q (State.dripEvents s a1) := by
  intro a1
  unfold State.dripEvents
  repeat' first
    | with_reducible assumption
    | with_reducible apply good_State_event
    | with_reducible apply good_modMemi
    | (with_reducible apply good_foldl; intro _ _ _)
    | dsimp only
    | split
    | (intro hk; (try dsimp only); repeat' first | exact hk | split | exact ⟨by first | exact hk.rams | simpa using hk.rams | simpa using h.inv.memi.rams, by first | exact hk.drip | simpa using hk.drip | simpa using h.inv.memi.drip⟩)

end Sys2Proof.Machine
end

