-- ==== Sys2Proof/Laws/SoundHost.lean ====
section
/-!
SUPPORT. Every function keeps a good state (`Good`): Clasp, registers, the SPI target, certificates, firmware, life cycle and boot.
-/
set_option linter.unusedTactic false
set_option linter.unreachableTactic false
set_option linter.unusedVariables false

namespace Sys2Proof.Machine

/-! ### Coupler -/

theorem good_State_portRest {o : Otp} {q : List Instr} {s : State} (h : Good o q s) : ∀ a1 a2, Good o q (State.portRest s a1 a2) := by
  intro a1 a2
  unfold State.portRest
  repeat' first
    | with_reducible assumption
    | with_reducible apply good_State_modPort
    | with_reducible apply good_State_setPort
    | (with_reducible apply good_foldl; intro _ _ _)
    | dsimp only
    | split
    | (intro hk; (try dsimp only); repeat' first | exact hk | split)

theorem good_State_sendCaps {o : Otp} {q : List Instr} {s : State} (h : Good o q s) : ∀ a1 a2, Good o q (State.sendCaps s a1 a2) := by
  intro a1 a2
  unfold State.sendCaps
  repeat' first
    | with_reducible assumption
    | with_reducible apply good_State_modPort
    | with_reducible apply good_State_portSend
    | (with_reducible apply good_foldl; intro _ _ _)
    | dsimp only
    | split
    | (intro hk; (try dsimp only); repeat' first | exact hk | split)

theorem good_State_attach {o : Otp} {q : List Instr} {s : State} (h : Good o q s) : ∀ a1 a2, Good o q (State.attach s a1 a2) := by
  intro a1 a2
  unfold State.attach
  repeat' first
    | with_reducible assumption
    | with_reducible apply good_State_modPort
    | with_reducible apply good_State_setPort
    | with_reducible apply good_State_sendCaps
    | with_reducible apply good_State_setJs
    | (with_reducible apply good_foldl; intro _ _ _)
    | dsimp only
    | split
    | (intro hk; (try dsimp only); repeat' first | exact hk | split)

theorem good_State_attachOutcome {o : Otp} {q : List Instr} {s : State} (h : Good o q s) : ∀ a1, Good o q (State.attachOutcome s a1) := by
  intro a1
  unfold State.attachOutcome
  repeat' first
    | with_reducible assumption
    | with_reducible apply good_State_attach
    | with_reducible apply good_State_modPort
    | with_reducible apply good_State_setPort
    | (with_reducible apply good_foldl; intro _ _ _)
    | dsimp only
    | split
    | (intro hk; (try dsimp only); repeat' first | exact hk | split)

theorem good_State_releaseLines {o : Otp} {q : List Instr} {s : State} (h : Good o q s) : ∀ a1, Good o q (State.releaseLines s a1) := by
  intro a1
  unfold State.releaseLines
  repeat' first
    | with_reducible assumption
    | with_reducible apply good_State_modPort
    | (with_reducible apply good_foldl; intro _ _ _)
    | dsimp only
    | split
    | (intro hk; (try dsimp only); repeat' first | exact hk | split)

theorem good_State_recover {o : Otp} {q : List Instr} {s : State} (h : Good o q s) : ∀ a1 a2 a3, Good o q (State.recover s a1 a2 a3) := by
  intro a1 a2 a3
  unfold State.recover
  repeat' first
    | with_reducible assumption
    | with_reducible apply good_State_releaseLines
    | with_reducible apply good_State_modPort
    | with_reducible apply good_State_portRecover
    | (with_reducible apply good_foldl; intro _ _ _)
    | dsimp only
    | split
    | (intro hk; (try dsimp only); repeat' first | exact hk | split)

theorem good_State_portDetach {o : Otp} {q : List Instr} {s : State} (h : Good o q s) : ∀ a1 a2 a3 a4, Good o q (State.portDetach s a1 a2 a3 a4) := by
  intro a1 a2 a3 a4
  unfold State.portDetach
  repeat' first
    | with_reducible assumption
    | with_reducible apply good_State_recover
    | with_reducible apply good_State_portSend
    | with_reducible apply good_State_modPort
    | (with_reducible apply good_foldl; intro _ _ _)
    | dsimp only
    | split
    | (intro hk; (try dsimp only); repeat' first | exact hk | split)

theorem good_State_enterTransition {o : Otp} {q : List Instr} {s : State} (h : Good o q s) : ∀ a1 a2, Good o q (State.enterTransition s a1 a2) := by
  intro a1 a2
  unfold State.enterTransition
  repeat' first
    | with_reducible assumption
    | with_reducible apply good_State_modPort
    | with_reducible apply good_State_setPort
    | with_reducible apply good_State_contractEvent
    | with_reducible apply good_State_tieClosed
    | (with_reducible apply good_foldl; intro _ _ _)
    | dsimp only
    | split
    | (intro hk; (try dsimp only); repeat' first | exact hk | split)

theorem good_State_sendRequest {o : Otp} {q : List Instr} {s : State} (h : Good o q s) : ∀ a1, Good o q (State.sendRequest s a1) := by
  intro a1
  unfold State.sendRequest
  repeat' first
    | with_reducible assumption
    | with_reducible apply good_State_modPort
    | with_reducible apply good_State_portSend
    | (with_reducible apply good_foldl; intro _ _ _)
    | dsimp only
    | split
    | (intro hk; (try dsimp only); repeat' first | exact hk | split)

theorem good_State_putAnswer {o : Otp} {q : List Instr} {s : State} (h : Good o q s) : ∀ a1 a2 a3, Good o q (State.putAnswer s a1 a2 a3) := by
  intro a1 a2 a3
  unfold State.putAnswer
  repeat' first
    | with_reducible assumption
    | with_reducible apply good_State_modPort
    | (with_reducible apply good_foldl; intro _ _ _)
    | dsimp only
    | split
    | (intro hk; (try dsimp only); repeat' first | exact hk | split)

theorem good_State_claspRequest {o : Otp} {q : List Instr} {s : State} {act : State → State × Option ClaspAnswer}
    (k : ∀ s, Good o q s → Good o q (act s).1) (h : Good o q s) (i : Nat) (b : Bool) (t n : Nat) (p : List Byte) :
    Good o q (s.claspRequest i b t n p act) := by
  unfold State.claspRequest
  extract_lets x s1
  have h1 : Good o q s1 := good_State_modPort h _ _
  have h2 := k s1 h1
  split
  · exact h
  split
  · exact good_modClasp (fun hk => ⟨hk.ports⟩) h
  split
  · exact good_State_modPort (good_State_portDetach h _ _ _ _) _ _
  split
  · exact good_State_modPort h1 _ _
  split
  · rename_i e
    rw [e] at h2
    exact good_State_putAnswer h2 _ _ _
  · rename_i e
    rw [e] at h2
    exact h2

theorem good_State_heardSupply {o : Otp} {q : List Instr} {s : State} (h : Good o q s) : ∀ a1 a2, Good o q (State.heardSupply s a1 a2) := by
  intro a1 a2
  unfold State.heardSupply
  repeat' first
    | with_reducible assumption
    | with_reducible apply good_State_setJs
    | (with_reducible apply good_foldl; intro _ _ _)
    | dsimp only
    | split
    | (intro hk; (try dsimp only); repeat' first | exact hk | split)

theorem good_State_onCaps {o : Otp} {q : List Instr} {s : State} (h : Good o q s) : ∀ a1 a2, Good o q (State.onCaps s a1 a2).1 := by
  intro a1 a2
  unfold State.onCaps
  repeat' first
    | with_reducible assumption
    | with_reducible apply good_State_heardSupply
    | with_reducible apply good_State_modPort
    | with_reducible apply good_State_sendRequest
    | (with_reducible apply good_foldl; intro _ _ _)
    | dsimp only
    | split
    | (intro hk; (try dsimp only); repeat' first | exact hk | split)

theorem good_State_onCaps_eq {o : Otp} {q : List Instr} {s t : State} {a1} {a2} {x1} (e : State.onCaps s a1 a2 = (t, x1)) (h : Good o q s) : Good o q t := by
  have := good_State_onCaps h a1 a2
  rw [e] at this
  exact this

theorem good_State_onRequest {o : Otp} {q : List Instr} {s : State} (h : Good o q s) : ∀ a1 a2, Good o q (State.onRequest s a1 a2).1 := by
  intro a1 a2
  unfold State.onRequest
  repeat' first
    | with_reducible assumption
    | with_reducible apply good_State_modPort
    | (with_reducible apply good_foldl; intro _ _ _)
    | dsimp only
    | split
    | (intro hk; (try dsimp only); repeat' first | exact hk | split)

theorem good_State_onRequest_eq {o : Otp} {q : List Instr} {s t : State} {a1} {a2} {x1} (e : State.onRequest s a1 a2 = (t, x1)) (h : Good o q s) : Good o q t := by
  have := good_State_onRequest h a1 a2
  rw [e] at this
  exact this

theorem good_State_onReady {o : Otp} {q : List Instr} {s : State} (h : Good o q s) : ∀ a1, Good o q (State.onReady s a1).1 := by
  intro a1
  unfold State.onReady
  repeat' first
    | with_reducible assumption
    | with_reducible apply good_State_modPort
    | with_reducible apply good_State_setJs
    | (with_reducible apply good_foldl; intro _ _ _)
    | dsimp only
    | split
    | (intro hk; (try dsimp only); repeat' first | exact hk | split)

theorem good_State_onReady_eq {o : Otp} {q : List Instr} {s t : State} {a1} {x1} (e : State.onReady s a1 = (t, x1)) (h : Good o q s) : Good o q t := by
  have := good_State_onReady h a1
  rw [e] at this
  exact this

theorem good_State_beginSwap {o : Otp} {q : List Instr} {s : State} (h : Good o q s) : ∀ a1, Good o q (State.beginSwap s a1) := by
  intro a1
  unfold State.beginSwap
  repeat' first
    | with_reducible assumption
    | with_reducible apply good_State_modPort
    | with_reducible apply good_State_setJs
    | (with_reducible apply good_foldl; intro _ _ _)
    | dsimp only
    | split
    | (intro hk; (try dsimp only); repeat' first | exact hk | split)

theorem good_State_onSwap {o : Otp} {q : List Instr} {s : State} (h : Good o q s) : ∀ a1, Good o q (State.onSwap s a1).1 := by
  intro a1
  unfold State.onSwap
  repeat' first
    | with_reducible assumption
    | with_reducible apply good_State_modPort
    | with_reducible apply good_State_beginSwap
    | (with_reducible apply good_foldl; intro _ _ _)
    | dsimp only
    | split
    | (intro hk; (try dsimp only); repeat' first | exact hk | split)

theorem good_State_onSwap_eq {o : Otp} {q : List Instr} {s t : State} {a1} {x1} (e : State.onSwap s a1 = (t, x1)) (h : Good o q s) : Good o q t := by
  have := good_State_onSwap h a1
  rw [e] at this
  exact this

theorem good_State_onHold {o : Otp} {q : List Instr} {s : State} (h : Good o q s) : ∀ a1, Good o q (State.onHold s a1).1 := by
  intro a1
  unfold State.onHold
  repeat' first
    | with_reducible assumption
    | with_reducible apply good_State_portHold
    | with_reducible apply good_State_sendCaps
    | (with_reducible apply good_foldl; intro _ _ _)
    | dsimp only
    | split
    | (intro hk; (try dsimp only); repeat' first | exact hk | split)

theorem good_State_onHold_eq {o : Otp} {q : List Instr} {s t : State} {a1} {x1} (e : State.onHold s a1 = (t, x1)) (h : Good o q s) : Good o q t := by
  have := good_State_onHold h a1
  rw [e] at this
  exact this

theorem good_State_onDetach {o : Otp} {q : List Instr} {s : State} (h : Good o q s) : ∀ a1, Good o q (State.onDetach s a1).1 := by
  intro a1
  unfold State.onDetach
  repeat' first
    | with_reducible assumption
    | with_reducible apply good_State_recover
    | with_reducible apply good_State_modPort
    | (with_reducible apply good_foldl; intro _ _ _)
    | dsimp only
    | split
    | (intro hk; (try dsimp only); repeat' first | exact hk | split)

theorem good_State_onDetach_eq {o : Otp} {q : List Instr} {s t : State} {a1} {x1} (e : State.onDetach s a1 = (t, x1)) (h : Good o q s) : Good o q t := by
  have := good_State_onDetach h a1
  rw [e] at this
  exact this

theorem good_State_readyAnswered {o : Otp} {q : List Instr} {s : State} (h : Good o q s) : ∀ a1 a2, Good o q (State.readyAnswered s a1 a2) := by
  intro a1 a2
  unfold State.readyAnswered
  repeat' first
    | with_reducible assumption
    | with_reducible apply good_State_modPort
    | with_reducible apply good_State_setJs
    | with_reducible apply good_State_sendCaps
    | with_reducible apply good_State_setPort
    | (with_reducible apply good_foldl; intro _ _ _)
    | dsimp only
    | split
    | (intro hk; (try dsimp only); repeat' first | exact hk | split)

theorem good_State_accepted {o : Otp} {q : List Instr} {s : State} (h : Good o q s) : ∀ a1 a2 a3, Good o q (State.accepted s a1 a2 a3) := by
  intro a1 a2 a3
  unfold State.accepted
  repeat' first
    | with_reducible assumption
    | with_reducible apply good_State_modPort
    | with_reducible apply good_State_enterTransition
    | with_reducible apply good_State_beginSwap
    | with_reducible apply good_State_readyAnswered
    | (with_reducible apply good_foldl; intro _ _ _)
    | dsimp only
    | split
    | (intro hk; (try dsimp only); repeat' first | exact hk | split)

theorem good_State_claspAnswer {o : Otp} {q : List Instr} {s : State} {act : State → ClaspMsg → State}
    (k : ∀ s m, Good o q s → Good o q (act s m)) (h : Good o q s) (i : Nat) (b : Bool) (t n a : Nat) (p : List Byte) :
    Good o q (s.claspAnswer i b t n a p act) := by
  unfold State.claspAnswer
  extract_lets x
  split
  · exact h
  split
  · exact good_modClasp (fun hk => ⟨hk.ports⟩) h
  split
  · exact good_State_modPort (good_State_portDetach h _ _ _ _) _ _
  split
  · exact k _ _ h
  · exact good_State_modPort h _ _

theorem good_State_rejected {o : Otp} {q : List Instr} {s : State} (h : Good o q s) : ∀ a1 a2 a3, Good o q (State.rejected s a1 a2 a3) := by
  intro a1 a2 a3
  unfold State.rejected
  repeat' first
    | with_reducible assumption
    | with_reducible apply good_State_modPort
    | with_reducible apply good_State_contractEvent
    | (with_reducible apply good_foldl; intro _ _ _)
    | dsimp only
    | split
    | (intro hk; (try dsimp only); repeat' first | exact hk | split)

theorem good_State_owedCaps {o : Otp} {q : List Instr} {s : State} (h : Good o q s) : ∀ a1, Good o q (State.owedCaps s a1) := by
  intro a1
  unfold State.owedCaps
  repeat' first
    | with_reducible assumption
    | with_reducible apply good_State_modPort
    | with_reducible apply good_State_sendCaps
    | (with_reducible apply good_foldl; intro _ _ _)
    | dsimp only
    | split
    | (intro hk; (try dsimp only); repeat' first | exact hk | split)

theorem good_State_silence {o : Otp} {q : List Instr} {s : State} (h : Good o q s) : ∀ a1, Good o q (State.silence s a1) := by
  intro a1
  unfold State.silence
  repeat' first
    | with_reducible assumption
    | with_reducible apply good_State_modPort
    | with_reducible apply good_State_portHold
    | (with_reducible apply good_foldl; intro _ _ _)
    | dsimp only
    | split
    | (intro hk; (try dsimp only); repeat' first | exact hk | split)

theorem good_State_importerStep {o : Otp} {q : List Instr} {s : State} (h : Good o q s) : ∀ a1, Good o q (State.importerStep s a1) := by
  intro a1
  unfold State.importerStep
  repeat' first
    | with_reducible assumption
    | with_reducible apply good_State_setPort
    | with_reducible apply good_State_portSend
    | with_reducible apply good_State_modPort
    | (with_reducible apply good_foldl; intro _ _ _)
    | dsimp only
    | split
    | (intro hk; (try dsimp only); repeat' first | exact hk | split)

theorem good_State_exporterStep {o : Otp} {q : List Instr} {s : State} (h : Good o q s) : ∀ a1 a2, Good o q (State.exporterStep s a1 a2) := by
  intro a1 a2
  unfold State.exporterStep
  repeat' first
    | with_reducible assumption
    | with_reducible apply good_State_sendHold
    | with_reducible apply good_State_sendCaps
    | with_reducible apply good_State_owedCaps
    | (with_reducible apply good_foldl; intro _ _ _)
    | dsimp only
    | split
    | (intro hk; (try dsimp only); repeat' first | exact hk | split)

theorem good_State_claspBoundary {o : Otp} {q : List Instr} {s : State} (h : Good o q s) : ∀ a1, Good o q (State.claspBoundary s a1) := by
  intro a1
  unfold State.claspBoundary
  repeat' first
    | with_reducible assumption
    | with_reducible apply good_State_exporterStep
    | with_reducible apply good_State_importerStep
    | (with_reducible apply good_foldl; intro _ _ _)
    | dsimp only
    | split
    | (intro hk; (try dsimp only); repeat' first | exact hk | split)

theorem good_State_loadPort {o : Otp} {q : List Instr} {s : State} (h : Good o q s) : ∀ a1 a2, Good o q (State.loadPort s a1 a2) := by
  intro a1 a2
  unfold State.loadPort
  repeat' first
    | with_reducible assumption
    | with_reducible apply good_State_portRest
    | with_reducible apply good_State_modPort
    | (with_reducible apply good_foldl; intro _ _ _)
    | dsimp only
    | split
    | (intro hk; (try dsimp only); repeat' first | exact hk | split)

/-! ### Registers -/

theorem good_State_readTime {o : Otp} {q : List Instr} {s : State} (h : Good o q s) (a : Nat) :
    Good o q (s.readTime a).2 := by
  unfold State.readTime
  extract_lets y
  split
  · exact good_time (fun hk => sound_Time_readTimer hk _ _) h
  split
  · dsimp only
    split
    · exact good_time (fun hk => ⟨hk.timers, hk.captures, hk.epoch⟩) h
    · exact h
  split
  · exact h
  split
  · exact h
  split
  · exact h
  split
  · exact good_time (fun hk => ⟨hk.timers, hk.captures, hk.epoch⟩) h
  split
  · exact h
  split
  · exact h
  · exact h

theorem good_State_readReg {o : Otp} {q : List Instr} {s : State} (h : Good o q s) (b : Block) (a : Nat) :
    Good o q (s.readReg b a).2 := by
  unfold State.readReg
  split
  · exact h
  · split
    · exact h
    · split
      · exact good_modCmd sound_clearErrors h
      · exact h
  · exact good_State_readTime h a
  · exact h
  · exact h
  · exact h
  · exact h
  · exact h
  · exact h
  · split
    · exact h
    · split
      · exact good_modSlolos sound_Slolos_clearErrors h
      · split
        · exact h
        · exact h
  · split
    · exact h
    · split
      · exact good_modClasp sound_Clasp_clearCount h
      · exact h
  · split
    · exact h
    · split
      · exact h
      · split
        · exact h
        · exact good_modPendant (f := fun p => { p with discarded := 0, naks := 0, rejs := 0, superseded := 0 }) h
  · split
    · exact good_modMemi (f := fun m => { m with queueUncorr := 0 }) (fun hk => ⟨hk.rams, hk.drip⟩) h
    · split
      · exact h
      · have := sound_Memi_modRam (f := fun r => { r with overflows := 0, corrected := 0 }) (fun _ hr => hr) h.inv.memi
          ((a - 0x20) / 4)
        refine good_modMemi (f := fun m => m.modRam ((a - 0x20) / 4) fun r => { r with overflows := 0, corrected := 0 }) ?_ h
        exact fun _ => this
  · exact h

theorem captures_writeReg {t u : Timer} {r v : Nat} (e : t.writeReg r v = some u) : u.captures = t.captures := by
  unfold Timer.writeReg at e
  split at e
  all_goals first
    | exact (congrArg Timer.captures (Option.some.inj e)).symm
    | cases e

theorem good_State_writeReg {o : Otp} {q : List Instr} {s t : State} {b : Block} {a v : Nat} (e : s.writeReg b a v = some t)
    (h : Good o q s) : Good o q t := by
  unfold State.writeReg at e
  split at e
  · split at e
    · cases e
      exact good_modSys (fun hk => ⟨hk.ready⟩) h
    · cases e
  · split at e
    · cases e
      exact good_modCmd (fun hk => hk.of_eq rfl rfl rfl rfl rfl rfl rfl) h
    · cases e
  · split at e
    · split at e
      · rename_i u e'
        cases e
        refine good_modTime (fun hk => sound_Time_setTimer ?_ hk _) h
        rw [captures_writeReg e']
        exact timer_le h.inv.time _
      · cases e
    · split at e
      · cases e
        exact good_modTime (fun hk => by
          have := sound_mapTimers (f := fun t => { t with latched := none }) (fun _ ht => ht) hk
          exact ⟨this.timers, this.captures, this.epoch⟩) h
      · split at e
        · cases e
          exact good_modTime (fun hk => ⟨hk.timers, hk.captures, hk.epoch⟩) h
        · cases e
  · split at e
    · cases e
      exact good_modConv (fun hk => ⟨by simpa using hk.lanes, hk.legs, hk.decims⟩) h
    · cases e
  · split at e
    · cases e
      exact good_modProt (fun hk => ⟨hk.echo, hk.crowbars⟩) h
    · cases e
  · split at e
    · cases e
      exact good_modMeas (fun hk => sound_Meas_setHold hk _) h
    · cases e
  · split at e
    · cases e
      exact good_modPath (fun hk => ⟨by simpa using hk.chans, hk.shares⟩) h
    · cases e
  · split at e
    · cases e
      refine good_modMemi (fun hk => ⟨by simpa using hk.rams, ?_⟩) h
      intro r hr
      obtain ⟨x, hx, rfl⟩ := List.mem_map.mp hr
      exact hk.drip x.1 (List.fst_mem_of_mem_zipIdx hx)
    · cases e
  · cases e

theorem good_State_readWord {o : Otp} {q : List Instr} {s t : State} {a x : Nat} (e : s.readWord a = some (x, t))
    (h : Good o q s) : Good o q t := by
  unfold State.readWord at e
  split at e
  · cases e; exact h
  · split at e
    · cases e; exact h
    · split at e
      · cases e; exact h
      · split at e
        · cases e
        · rename_i b _ _ _ _
          have := good_State_readReg h b (a % 2 ^ 16)
          rw [Option.some.inj e] at this
          exact this

theorem good_State_refuseWrite {o : Otp} {q : List Instr} {s : State} (h : Good o q s) : Good o q (State.refuseWrite s) := by
  unfold State.refuseWrite
  repeat' first
    | with_reducible assumption
    | with_reducible apply good_modCmd
    | (with_reducible apply good_foldl; intro _ _ _)
    | dsimp only
    | split
    | (intro hk; (try dsimp only); repeat' first | exact hk | split | exact sound_filterFlights hk | exact sound_dropFlight hk | exact hk.of_eq rfl rfl rfl rfl rfl rfl rfl)

theorem good_State_writeWord {o : Otp} {q : List Instr} {s t : State} {a v : Nat} {x : Bool}
    (e : s.writeWord a v = some (x, t)) (h : Good o q s) : Good o q t := by
  unfold State.writeWord at e
  split at e
  · cases e; exact good_State_refuseWrite h
  · split at e
    · cases e; exact h
    · split at e
      · cases e; exact good_State_refuseWrite h
      · split at e
        · cases e
        · split at e
          · rename_i e'
            cases e
            exact good_State_writeReg e' h
          · cases e
            exact good_State_refuseWrite h

/-! ### SpiTarget -/

theorem good_State_sendMiso {o : Otp} {q : List Instr} {s : State} (h : Good o q s) : ∀ a1, Good o q (State.sendMiso s a1) := by
  intro a1
  unfold State.sendMiso
  repeat' first
    | with_reducible assumption
    | with_reducible apply good_modCmd
    | (with_reducible apply good_foldl; intro _ _ _)
    | dsimp only
    | split
    | (intro hk; (try dsimp only); repeat' first | exact hk | split | exact sound_filterFlights hk | exact sound_dropFlight hk | exact hk.of_eq rfl rfl rfl rfl rfl rfl rfl)

theorem good_State_spiBegin {o : Otp} {q : List Instr} {s : State} (h : Good o q s) : Good o q (State.spiBegin s) := by
  unfold State.spiBegin
  repeat' first
    | with_reducible assumption
    | with_reducible apply good_modCmd
    | (with_reducible apply good_foldl; intro _ _ _)
    | dsimp only
    | split
    | (intro hk; (try dsimp only); repeat' first | exact hk | split | exact sound_filterFlights hk | exact sound_dropFlight hk | exact hk.of_eq rfl rfl rfl rfl rfl rfl rfl)

theorem good_State_spiHung {o : Otp} {q : List Instr} {s : State} (h : Good o q s) : ∀ a1, Good o q (State.spiHung s a1) := by
  intro a1
  unfold State.spiHung
  repeat' first
    | with_reducible assumption
    | with_reducible apply good_State_sendMiso
    | (with_reducible apply good_foldl; intro _ _ _)
    | dsimp only
    | split
    | (intro hk; (try dsimp only); repeat' first | exact hk | split)

@[simp] theorem spiBegin_inbox (s : State) : s.spiBegin.cmd.inbox = s.cmd.inbox := by
  unfold State.spiBegin; split <;> rfl

@[simp] theorem spiBegin_outSpi (s : State) : s.spiBegin.cmd.outSpi = s.cmd.outSpi := by
  unfold State.spiBegin; split <;> rfl

theorem sound_spiPacket {c : Cmd} {b : List Byte} (e : c.inSpace = true) (h : c.Sound) :
    ({ c with inbox := c.inbox ++ [{ origin := .spi, node := 0, bytes := b }] } : Cmd).Sound := by
  refine { h with spi := ?_ }
  have e' : c.spiHeld < Config.spiBuffers := of_decide_eq_true e
  simpa [Cmd.spiHeld, List.filter_append] using e'

theorem good_State_writePacket {o : Otp} {q : List Instr} {s : State} (h : Good o q s) (b : List Byte) :
    Good o q (s.writePacket b) := by
  unfold State.writePacket
  split
  · exact good_State_spiHung h _
  extract_lets st s1
  have h1 : Good o q s1 := good_State_sendMiso (good_State_spiBegin h) _
  split
  · exact good_modCmd sound_countFraming h1
  split
  · exact h1
  split
  · exact good_modCmd (fun hk => hk.of_eq rfl rfl rfl rfl rfl rfl rfl) h1
  · rename_i e
    refine good_modCmd (sound_spiPacket ?_) h1
    have : s1.cmd.inbox = s.cmd.inbox := by simp [s1, State.sendMiso, State.modCmd]
    have e' : s.cmd.inSpace = true := by simpa using e
    have e2 : s1.cmd.inSpace = s.cmd.inSpace := by
      unfold Cmd.inSpace Cmd.spiHeld
      rw [this]
    rw [e2]
    exact e'

theorem good_State_leftDie {o : Otp} {q : List Instr} {s : State} (h : Good o q s) : ∀ a1, Good o q (State.leftDie s a1) := by
  intro a1
  unfold State.leftDie
  repeat' first
    | with_reducible assumption
    | with_reducible apply good_State_dropFlight
    | (with_reducible apply good_foldl; intro _ _ _)
    | dsimp only
    | split
    | (intro hk; (try dsimp only); repeat' first | exact hk | split)

theorem good_State_readPacket {o : Otp} {q : List Instr} {s : State} (h : Good o q s) (n : Nat) :
    Good o q (s.readPacket n) := by
  unfold State.readPacket
  split
  · exact good_State_spiHung h _
  extract_lets st s1
  have h1 : Good o q s1 := good_State_spiBegin h
  split
  · rename_i x r _ e
    extract_lets b s2
    have h2 : Good o q s2 := good_State_sendMiso h1 _
    have e2 : s2.cmd.out 0 = x :: r := by
      simp only [s2, s1, State.sendMiso, State.modCmd, Cmd.out, spiBegin_outSpi]
      exact e
    split
    · exact good_State_eventsLost (good_State_leftDie (good_modCmd (fun hk => sound_dropOut e2 hk) h2) _) _
    · exact h2
  · exact good_State_sendMiso h1 _

theorem good_State_burst {o : Otp} {q : List Instr} {s : State} (h : Good o q s) (base n a : Nat) :
    Good o q (s.burst base n a).1 := by
  induction n generalizing s a with
  | zero => exact h
  | succ n ih =>
    unfold State.burst
    split
    · split
      · rename_i e
        exact ih (good_State_readWord e h) _
      · exact good_sys (fun hk => ⟨hk.ready⟩) h
    · exact ih h _

theorem good_State_burst_eq {o : Otp} {q : List Instr} {s t : State} {base n a : Nat} {x y}
    (e : s.burst base n a = (t, x, y)) (h : Good o q s) : Good o q t := by
  have := good_State_burst h base n a
  rw [e] at this
  exact this

theorem good_State_windowRead {o : Otp} {q : List Instr} {s : State} (h : Good o q s) : ∀ a1 a2, Good o q (State.windowRead s a1 a2) := by
  intro a1 a2
  unfold State.windowRead
  repeat' first
    | with_reducible assumption
    | with_reducible apply good_State_spiHung
    | with_reducible apply good_State_spiBegin
    | with_reducible apply good_State_sendMiso
    | with_reducible apply good_modCmd
    | with_reducible apply good_State_burst
    | with_reducible refine good_State_burst_eq (by assumption) ?_
    | (with_reducible apply good_foldl; intro _ _ _)
    | dsimp only
    | split
    | (intro hk; (try dsimp only); repeat' first | exact hk | with_reducible apply sound_countFraming | split | exact sound_filterFlights hk | exact sound_dropFlight hk | exact hk.of_eq rfl rfl rfl rfl rfl rfl rfl)

theorem good_State_windowWrite {o : Otp} {q : List Instr} {s : State} (h : Good o q s) (a d : Nat) :
    Good o q (s.windowWrite a d) := by
  unfold State.windowWrite
  split
  · exact good_State_spiHung h _
  extract_lets st s1 a v
  have h1 : Good o q s1 := good_State_spiBegin h
  split
  · rename_i e
    exact good_State_sendMiso (good_State_writeWord e h1) _
  · refine good_State_sendMiso (good_sys ?_ h1) _
    exact fun hk => ⟨hk.ready⟩

/-! ### Watchdog -/

theorem good_State_wdgReset {o : Otp} {q : List Instr} {s : State} (h : Good o q s) : ∀ a1 a2 a3, Good o q (State.wdgReset s a1 a2 a3) := by
  intro a1 a2 a3
  unfold State.wdgReset
  repeat' first
    | with_reducible assumption
    | with_reducible apply good_State_trigger
    | with_reducible apply good_State_recordFault
    | (with_reducible apply good_foldl; intro _ _ _)
    | dsimp only
    | split
    | (intro hk; (try dsimp only); repeat' first | exact hk | split)

theorem good_State_wdgExpire {o : Otp} {q : List Instr} {s : State} (h : Good o q s) : Good o q (State.wdgExpire s) := by
  unfold State.wdgExpire
  repeat' first
    | with_reducible assumption
    | with_reducible apply good_State_wdgReset
    | (with_reducible apply good_foldl; intro _ _ _)
    | dsimp only
    | split
    | (intro hk; (try dsimp only); repeat' first | exact hk | split)

theorem good_State_wdgAdvance {o : Otp} {q : List Instr} {s : State} (h : Good o q s) : ∀ a1, Good o q (State.wdgAdvance s a1) := by
  intro a1
  unfold State.wdgAdvance
  repeat' first
    | with_reducible assumption
    | with_reducible apply good_modWdg
    | with_reducible apply good_State_wdgExpire
    | (with_reducible apply good_foldl; intro _ _ _)
    | dsimp only
    | split
    | (intro hk; (try dsimp only); repeat' first | exact hk | with_reducible apply sound_Wdg_advance | split | exact ⟨by first | exact hk.count | simpa using hk.count | simpa using h.inv.wdg.count⟩)

/-! ### Certificate -/

theorem good_State_flashIdle {o : Otp} {q : List Instr} {s : State} (h : Good o q s) : Good o q (State.flashIdle s) := by
  unfold State.flashIdle
  repeat' first
    | with_reducible assumption
    | with_reducible apply good_modFlash
    | (with_reducible apply good_foldl; intro _ _ _)
    | dsimp only
    | split
    | (intro hk; (try dsimp only); repeat' first | exact hk | split | exact ⟨by first | exact hk.staging | simpa using hk.staging | simpa using h.inv.flash.staging⟩)

theorem good_State_finishKey {o : Otp} {q : List Instr} {s : State} (h : Good o q s) : ∀ a1 a2, Good o q (State.finishKey s a1 a2) := by
  intro a1 a2
  unfold State.finishKey
  repeat' first
    | with_reducible assumption
    | with_reducible apply good_State_finish
    | (with_reducible apply good_foldl; intro _ _ _)
    | dsimp only
    | split
    | (intro hk; (try dsimp only); repeat' first | exact hk | split)

theorem good_State_clampLaneValues {o : Otp} {q : List Instr} {s : State} (h : Good o q s) : ∀ a1, Good o q (State.clampLaneValues s a1) := by
  intro a1
  unfold State.clampLaneValues
  repeat' first
    | with_reducible assumption
    | with_reducible apply good_State_clampMax
    | with_reducible refine good_State_clampMax_eq (by assumption) ?_
    | with_reducible apply good_State_modLane
    | with_reducible apply good_State_clampTo
    | with_reducible refine good_State_clampTo_eq (by assumption) ?_
    | (with_reducible apply good_foldl; intro _ _ _)
    | dsimp only
    | split
    | (intro hk; (try dsimp only); repeat' first | exact hk | split)

theorem good_State_clampSet {o : Otp} {q : List Instr} {s : State} (h : Good o q s) (k set : Nat) (l : List Int) :
    Good o q (s.clampSet k set l).2 := by
  unfold State.clampSet
  have : ∀ (m : List (Int × Nat)) (a : List Int × State), Good o q a.2 → Good o q (m.foldl (fun a x =>
      let (v, t) := a.2.clampCoeff k set x.2 x.1
      (a.1 ++ [v], t)) a).2 := by
    intro m
    induction m with
    | nil => exact fun _ ha => ha
    | cons x m ih => exact fun a ha => ih _ (good_State_clampCoeff ha _ _ _ _)
  exact this _ _ h

theorem good_State_clampSet_eq {o : Otp} {q : List Instr} {s t : State} {k set : Nat} {l : List Int} {x}
    (e : s.clampSet k set l = (x, t)) (h : Good o q s) : Good o q t := by
  have := good_State_clampSet h k set l
  rw [e] at this
  exact this

theorem good_State_clampLaneProfile {o : Otp} {q : List Instr} {s : State} (h : Good o q s) : ∀ a1, Good o q (State.clampLaneProfile s a1) := by
  intro a1
  unfold State.clampLaneProfile
  repeat' first
    | with_reducible assumption
    | with_reducible apply good_State_replan
    | with_reducible apply good_State_modLane
    | with_reducible apply good_State_countClamps
    | with_reducible apply good_State_clampTo
    | with_reducible refine good_State_clampTo_eq (by assumption) ?_
    | with_reducible apply good_State_clampSet
    | with_reducible refine good_State_clampSet_eq (by assumption) ?_
    | with_reducible apply good_State_stopLane
    | (with_reducible apply good_foldl; intro _ _ _)
    | dsimp only
    | split
    | (intro hk; (try dsimp only); repeat' first | exact hk | split)

theorem good_State_putChan {o : Otp} {q : List Instr} {s : State} (h : Good o q s) : ∀ a1 a2 a3 a4, Good o q (State.putChan s a1 a2 a3 a4) := by
  intro a1 a2 a3 a4
  unfold State.putChan
  repeat' first
    | with_reducible assumption
    | with_reducible apply good_State_modChan
    | (with_reducible apply good_foldl; intro _ _ _)
    | dsimp only
    | split
    | (intro hk; (try dsimp only); repeat' first | exact hk | split)

theorem good_State_clampCode {o : Otp} {q : List Instr} {s : State} (h : Good o q s) : ∀ a1 a2 a3 a4, Good o q (State.clampCode s a1 a2 a3 a4) := by
  intro a1 a2 a3 a4
  unfold State.clampCode
  repeat' first
    | with_reducible assumption
    | with_reducible apply good_State_putChan
    | with_reducible apply good_State_countClamps
    | (with_reducible apply good_foldl; intro _ _ _)
    | dsimp only
    | split
    | (intro hk; (try dsimp only); repeat' first | exact hk | split)

theorem good_State_clampChan {o : Otp} {q : List Instr} {s : State} (h : Good o q s) : ∀ a1, Good o q (State.clampChan s a1) := by
  intro a1
  unfold State.clampChan
  repeat' first
    | with_reducible assumption
    | with_reducible apply good_State_clampCode
    | with_reducible apply good_State_clampMax
    | with_reducible refine good_State_clampMax_eq (by assumption) ?_
    | with_reducible apply good_State_putChan
    | (with_reducible apply good_foldl; intro _ _ _)
    | dsimp only
    | split
    | (intro hk; (try dsimp only); repeat' first | exact hk | split)

theorem good_State_clampPath {o : Otp} {q : List Instr} {s : State} (h : Good o q s) : Good o q (State.clampPath s) := by
  unfold State.clampPath
  repeat' first
    | with_reducible assumption
    | with_reducible apply good_State_clampTo
    | with_reducible refine good_State_clampTo_eq (by assumption) ?_
    | with_reducible apply good_modPath
    | (with_reducible apply good_foldl; intro _ _ _)
    | dsimp only
    | split
    | (intro hk; (try dsimp only); repeat' first | exact hk | split | exact ⟨by first | exact hk.chans | simpa using hk.chans | simpa using h.inv.path.chans, by first | exact hk.shares | simpa using hk.shares | simpa using h.inv.path.shares⟩)

theorem good_State_clampClasp {o : Otp} {q : List Instr} {s : State} (h : Good o q s) : ∀ a1, Good o q (State.clampClasp s a1) := by
  intro a1
  unfold State.clampClasp
  repeat' first
    | with_reducible assumption
    | with_reducible apply good_State_clampMax
    | with_reducible refine good_State_clampMax_eq (by assumption) ?_
    | with_reducible apply good_State_clampTo
    | with_reducible refine good_State_clampTo_eq (by assumption) ?_
    | with_reducible apply good_State_modPort
    | (with_reducible apply good_foldl; intro _ _ _)
    | dsimp only
    | split
    | (intro hk; (try dsimp only); repeat' first | exact hk | split)

theorem good_State_clampSetpoint {o : Otp} {q : List Instr} {s : State} (h : Good o q s) : Good o q (State.clampSetpoint s) := by
  unfold State.clampSetpoint
  repeat' first
    | with_reducible assumption
    | with_reducible apply good_State_clampMax
    | with_reducible refine good_State_clampMax_eq (by assumption) ?_
    | with_reducible apply good_State_clampPendant
    | with_reducible apply good_modPendant
    | (with_reducible apply good_foldl; intro _ _ _)
    | dsimp only
    | split
    | (intro hk; (try dsimp only); repeat' first | exact hk | split)

theorem good_State_clampWindow {o : Otp} {q : List Instr} {s : State} (h : Good o q s) : ∀ a1, Good o q (State.clampWindow s a1) := by
  intro a1
  unfold State.clampWindow
  repeat' first
    | with_reducible assumption
    | with_reducible apply good_State_countClamps
    | (with_reducible apply good_foldl; intro _ _ _)
    | dsimp only
    | split
    | (intro hk; (try dsimp only); repeat' first | exact hk | split)

theorem good_State_clampAll {o : Otp} {q : List Instr} {s : State} (h : Good o q s) : Good o q s.clampAll := by
  unfold State.clampAll
  extract_lets s1 s2 s3
  have h1 : Good o q s1 := good_foldl (fun _ _ h => good_State_clampLaneValues (good_State_clampLaneProfile h _) _) h
  have h2 : Good o q s2 := good_foldl (fun _ _ h => good_State_clampChan h _) h1
  have h3 : Good o q s3 := good_foldl (fun _ _ h => good_State_clampWindow h _) h2
  exact good_State_clampSetpoint (good_State_clampClasp (good_State_clampClasp (good_State_clampPath h3) _) _)

theorem good_runCertLoad {o : Otp} {q : List Instr} {s : State} (h : Good o q s) (f : Flight) :
    Good o q (runCertLoad s f).1 := by
  unfold runCertLoad answer later
  split
  · split
    · exact h
    · extract_lets s1
      have h1 : Good o q s1 := good_modGeode h
      split
      · exact h1
      · exact good_flashOp (good_State_clampAll (good_modGeode h1))
  · exact h

theorem good_State_holdCert {o : Otp} {q : List Instr} {s : State} (h : Good o q s) : ∀ a1 a2, Good o q (State.holdCert s a1 a2) := by
  intro a1 a2
  unfold State.holdCert
  repeat' first
    | with_reducible assumption
    | with_reducible apply good_State_finishKey
    | with_reducible apply good_State_answerAccepted
    | (with_reducible refine good_modFlight_field (fun _ => by (repeat' split) <;> first | exact ⟨rfl, id⟩ | exact ⟨rfl, fun e => by simp [Flight.holds] at e ⊢; tauto⟩) ?_)
    | with_reducible apply good_modGeode
    | (with_reducible apply good_foldl; intro _ _ _)
    | dsimp only
    | split
    | (intro hk; (try dsimp only); repeat' first | exact hk | split)

theorem good_State_clampAmps {o : Otp} {q : List Instr} {s : State} (h : Good o q s) : ∀ a1 a2, Good o q (State.clampAmps s a1 a2).2 := by
  intro a1 a2
  unfold State.clampAmps
  repeat' first
    | with_reducible assumption
    | with_reducible apply good_State_clampMax
    | with_reducible refine good_State_clampMax_eq (by assumption) ?_
    | (with_reducible apply good_foldl; intro _ _ _)
    | dsimp only
    | split
    | (intro hk; (try dsimp only); repeat' first | exact hk | split)

theorem good_State_clampAmps_eq {o : Otp} {q : List Instr} {s t : State} {a1} {a2} {x0} (e : State.clampAmps s a1 a2 = (x0, t)) (h : Good o q s) : Good o q t := by
  have := good_State_clampAmps h a1 a2
  rw [e] at this
  exact this

theorem good_State_writeActuator {o : Otp} {q : List Instr} {s : State} (h : Good o q s) : ∀ a1 a2, Good o q (State.writeActuator s a1 a2) := by
  intro a1 a2
  unfold State.writeActuator
  repeat' first
    | with_reducible assumption
    | with_reducible apply good_State_clampMax
    | with_reducible refine good_State_clampMax_eq (by assumption) ?_
    | with_reducible apply good_State_clampAmps
    | with_reducible refine good_State_clampAmps_eq (by assumption) ?_
    | with_reducible apply good_State_modLane
    | with_reducible apply good_State_clampLaneProfile
    | with_reducible apply good_State_replan
    | with_reducible apply good_State_clampTo
    | with_reducible refine good_State_clampTo_eq (by assumption) ?_
    | with_reducible apply good_State_clampChan
    | with_reducible apply good_State_putChan
    | with_reducible apply good_State_clampSet
    | with_reducible refine good_State_clampSet_eq (by assumption) ?_
    | with_reducible apply good_State_clampWindow
    | with_reducible apply good_State_modStrand
    | with_reducible apply good_State_clampSetpoint
    | with_reducible apply good_modPendant
    | with_reducible apply good_State_stopLane
    | with_reducible apply good_State_countClamps
    | with_reducible apply good_State_runIn
    | (with_reducible apply good_foldl; intro _ _ _)
    | dsimp only
    | split
    | (intro hk; (try dsimp only); repeat' first | exact hk | split)

theorem good_State_discardWrite {o : Otp} {q : List Instr} {s : State} (h : Good o q s) : Good o q (State.discardWrite s) := by
  unfold State.discardWrite
  repeat' first
    | with_reducible assumption
    | with_reducible apply good_modGeode
    | (with_reducible apply good_foldl; intro _ _ _)
    | dsimp only
    | split
    | (intro hk; (try dsimp only); repeat' first | exact hk | split)

theorem good_State_coreRegister {o : Otp} {q : List Instr} {s : State} (h : Good o q s) (a d : Nat) :
    Good o q (s.coreRegister a d) := by
  unfold State.coreRegister
  extract_lets y
  split
  · exact h
  · exact good_State_discardWrite h
  · split
    · exact h
    · split
      · exact good_modGeode (good_modSys (fun hk => ⟨hk.ready⟩) h)
      · cases e : s.writeReg _ _ (d % 2 ^ 32) with
        | none => exact h
        | some t => exact good_State_writeReg e h

/-! ### Firmware -/

theorem good_State_newSession {o : Otp} {q : List Instr} {s : State} (h : Good o q s) : Good o q (State.newSession s).2 := by
  unfold State.newSession
  repeat' first
    | with_reducible assumption
    | with_reducible apply good_State_takeNat
    | with_reducible refine good_State_takeNat_eq (by assumption) ?_
    | (with_reducible apply good_foldl; intro _ _ _)
    | dsimp only
    | split
    | (intro hk; (try dsimp only); repeat' first | exact hk | split)

theorem good_State_newSession_eq {o : Otp} {q : List Instr} {s t : State}  {x0} (e : State.newSession s = (x0, t)) (h : Good o q s) : Good o q t := by
  have := good_State_newSession h
  rw [e] at this
  exact this

theorem good_State_appendOwn {o : Otp} {q : List Instr} {s : State} (h : Good o q s) : ∀ a1, Good o q (State.appendOwn s a1) := by
  intro a1
  unfold State.appendOwn
  repeat' first
    | with_reducible assumption
    | with_reducible apply good_State_ownRecord
    | with_reducible refine good_State_ownRecord_eq (by assumption) ?_
    | with_reducible apply good_modFlash
    | (with_reducible apply good_foldl; intro _ _ _)
    | dsimp only
    | split
    | (intro hk; (try dsimp only); repeat' first | exact hk | with_reducible apply sound_Flash_commitRecs | split | exact ⟨by first | exact hk.staging | simpa using hk.staging | simpa using h.inv.flash.staging⟩)

theorem good_State_commitChunk {o : Otp} {q : List Instr} {s : State} (h : Good o q s) : ∀ x d, Good o q (State.commitChunk s x d) := by
  intro x d
  unfold State.commitChunk
  apply good_State_appendOwn
  refine good_modFlash ?_ h
  exact fun hk => ⟨(sound_Flash_setSlot hk _ _).staging⟩

theorem good_State_activate {o : Otp} {q : List Instr} {s : State} (h : Good o q s) : Good o q (State.activate s) := by
  unfold State.activate
  split
  · refine good_State_trigger (good_modSys ?_ (good_modFlash ?_ (good_modOtp ?_ h))) _
    · exact fun hk => ⟨hk.ready⟩
    · exact fun hk => ⟨hk.staging⟩
    · exact { Otp.Keeps.refl s.otp with rollback := Nat.le_max_left _ _ }
  · refine good_State_trigger (good_modSys ?_ (good_modFlash ?_ h)) _
    · exact fun hk => ⟨hk.ready⟩
    · exact fun hk => ⟨hk.staging⟩

theorem good_State_confirm {o : Otp} {q : List Instr} {s : State} (h : Good o q s) : Good o q (State.confirm s) := by
  unfold State.confirm
  repeat' first
    | with_reducible assumption
    | with_reducible apply good_modSys
    | with_reducible apply good_modFlash
    | (with_reducible apply good_foldl; intro _ _ _)
    | dsimp only
    | split
    | (intro hk; (try dsimp only); repeat' first | exact hk | split | exact ⟨by first | exact hk.ready | simpa using hk.ready | simpa using h.inv.sys.ready⟩ | exact ⟨by first | exact hk.staging | simpa using hk.staging | simpa using h.inv.flash.staging⟩)

/-! ### LifeCycle -/

theorem good_State_eraseConfig {o : Otp} {q : List Instr} {s : State} (h : Good o q s) : Good o q (State.eraseConfig s) := by
  unfold State.eraseConfig
  repeat' first
    | with_reducible assumption
    | with_reducible apply good_State_takeNat
    | with_reducible refine good_State_takeNat_eq (by assumption) ?_
    | with_reducible apply good_modFlash
    | (with_reducible apply good_foldl; intro _ _ _)
    | dsimp only
    | split
    | (intro hk; (try dsimp only); repeat' first | exact hk | split | exact ⟨by first | exact hk.staging | simpa using hk.staging | simpa using h.inv.flash.staging⟩)

theorem Otp.keeps_revokeFor (x : Otp) (t : LcState) : x.Keeps (x.revokeFor t) := by
  have r := Otp.Keeps.refl x
  have f : ∀ y : BitVec 4, y &&& ~~~(0xF : BitVec 4) = 0 := by decide
  unfold Otp.revokeFor
  split
  · exact { r with iRevoked := f _ }
  · split
    · exact { r with iRevoked := f _, vRevoked := f _ }
    · exact r

theorem good_State_markWiped {o : Otp} {q : List Instr} {s : State} (h : Good o q s) : ∀ t, Good o q (State.markWiped s t) := by
  intro t
  unfold State.markWiped
  refine good_modOtp ?_ h
  have e : (s.otp.revokeFor t).lcWiped = s.otp.lcWiped := by
    unfold Otp.revokeFor
    split
    · rfl
    · split <;> rfl
  exact (Otp.keeps_revokeFor s.otp t).trans
    { Otp.Keeps.refl (s.otp.revokeFor t) with wiped := by rw [e]; exact Triple.keeps_program _ _ }

theorem good_startOtp {o : Otp} {q : List Instr} {s : State} (h : Good o q s) : ∀ a1, Good o q (startOtp s a1).1 := by
  intro a1
  unfold startOtp
  repeat' first
    | with_reducible assumption
    | with_reducible apply good_later
    | with_reducible refine good_later_eq (by assumption) ?_
    | with_reducible apply good_modFlash
    | (with_reducible apply good_foldl; intro _ _ _)
    | dsimp only
    | split
    | (intro hk; (try dsimp only); repeat' first | exact hk | split | exact ⟨by first | exact hk.staging | simpa using hk.staging | simpa using h.inv.flash.staging⟩)

theorem good_startOtp_eq {o : Otp} {q : List Instr} {s t : State} {a1} {x1} (e : startOtp s a1 = (t, x1)) (h : Good o q s) : Good o q t := by
  have := good_startOtp h a1
  rw [e] at this
  exact this

/-! ### HostPackets -/

theorem good_State_canDiscard {o : Otp} {q : List Instr} {s : State} (h : Good o q s) : ∀ a1 a2, Good o q (State.canDiscard s a1 a2) := by
  intro a1 a2
  unfold State.canDiscard
  repeat' first
    | with_reducible assumption
    | with_reducible apply good_modCmd
    | (with_reducible apply good_foldl; intro _ _ _)
    | dsimp only
    | split
    | (intro hk; (try dsimp only); repeat' first | exact hk | with_reducible apply sound_setCan | with_reducible apply sound_countFraming | split | exact sound_filterFlights hk | exact sound_dropFlight hk | exact hk.of_eq rfl rfl rfl rfl rfl rfl rfl)

theorem sound_canInbox {c : Cmd} {i : Nat} {x : CanCtl} {y : Inbound} (e : y.origin ≠ .spi) (h : c.Sound) :
    ({ c.setCan i x with inbox := c.inbox ++ [y] } : Cmd).Sound := by
  have k : (c.setCan i x).inbox = c.inbox := by
    unfold Cmd.setCan
    split <;> rfl
  rw [← k]
  exact sound_appendInbox e (sound_setCan h)

theorem good_State_canStore {o : Otp} {q : List Instr} {s : State} (h : Good o q s) : ∀ i r l n,
    Good o q (State.canStore s i r l n) := by
  intro i r l n
  unfold State.canStore
  extract_lets rest
  split
  · refine good_modCmd ?_ h
    exact fun hk => sound_canInbox (by simp only [canOrigin]; split <;> decide) hk
  · refine good_modCmd ?_ h
    exact fun hk => sound_setCan hk

theorem good_State_canSegment {o : Otp} {q : List Instr} {s : State} (h : Good o q s) : ∀ a1 a2 a3 a4, Good o q (State.canSegment s a1 a2 a3 a4) := by
  intro a1 a2 a3 a4
  unfold State.canSegment
  repeat' first
    | with_reducible assumption
    | with_reducible apply good_State_canStore
    | with_reducible apply good_State_canDiscard
    | with_reducible apply good_modCmd
    | (with_reducible apply good_foldl; intro _ _ _)
    | dsimp only
    | split
    | (intro hk; (try dsimp only); repeat' first | exact hk | with_reducible apply sound_countFraming | split | exact sound_filterFlights hk | exact sound_dropFlight hk | exact hk.of_eq rfl rfl rfl rfl rfl rfl rfl)

theorem good_State_canConfigure {o : Otp} {q : List Instr} {s : State} (h : Good o q s) : ∀ a1, Good o q (State.canConfigure s a1) := by
  intro a1
  unfold State.canConfigure
  repeat' first
    | with_reducible assumption
    | with_reducible apply good_modCmd
    | (with_reducible apply good_foldl; intro _ _ _)
    | dsimp only
    | split
    | (intro hk; (try dsimp only); repeat' first | exact hk | with_reducible apply sound_setCan | split | exact sound_filterFlights hk | exact sound_dropFlight hk | exact hk.of_eq rfl rfl rfl rfl rfl rfl rfl)

theorem good_State_canReconfigure {o : Otp} {q : List Instr} {s : State} (h : Good o q s) : ∀ a1, Good o q (State.canReconfigure s a1) := by
  intro a1
  unfold State.canReconfigure
  repeat' first
    | with_reducible assumption
    | with_reducible apply good_State_canConfigure
    | (with_reducible apply good_foldl; intro _ _ _)
    | dsimp only
    | split
    | (intro hk; (try dsimp only); repeat' first | exact hk | split)

theorem good_State_canSent {o : Otp} {q : List Instr} {s : State} {i : Nat} {x : OutItem} {r : List OutItem}
    (e : s.cmd.out (i + 1) = x :: r) (h : Good o q s) : Good o q (s.canSent i x r) := by
  unfold State.canSent
  extract_lets s1
  have h1 : Good o q s1 := good_modCmd (fun hk => sound_setCan (sound_dropOut e hk)) h
  have h2 := good_State_canReconfigure h1 x
  exact good_State_eventsLost (good_State_leftDie h2 _) _

theorem good_State_replyDamaged {o : Otp} {q : List Instr} {s : State} (h : Good o q s) : ∀ g n b x,
    Good o q (State.replyDamaged s g n b x) := by
  intro g n b x
  unfold State.replyDamaged
  split
  · refine good_modCmd ?_ h
    exact fun hk => sound_sendOut rfl hk
  · exact h

theorem good_State_supersede {o : Otp} {q : List Instr} {s : State} (h : Good o q s) : ∀ a1, Good o q (State.supersede s a1) := by
  intro a1
  unfold State.supersede
  repeat' first
    | with_reducible assumption
    | with_reducible apply good_modGeode
    | with_reducible apply good_State_finish
    | (with_reducible refine good_modFlight_field (fun _ => by (repeat' split) <;> first | exact ⟨rfl, id⟩ | exact ⟨rfl, fun e => by simp [Flight.holds] at e ⊢; tauto⟩) ?_)
    | (with_reducible apply good_foldl; intro _ _ _)
    | dsimp only
    | split
    | (intro hk; (try dsimp only); repeat' first | exact hk | split)

theorem good_runCancel {o : Otp} {q : List Instr} {s : State} (h : Good o q s) : ∀ a1, Good o q (runCancel s a1).1 := by
  intro a1
  unfold runCancel
  repeat' first
    | with_reducible assumption
    | with_reducible apply good_answer
    | with_reducible refine good_answer_eq (by assumption) ?_
    | with_reducible apply good_State_sendDown
    | with_reducible apply good_okay
    | with_reducible refine good_okay_eq (by assumption) ?_
    | with_reducible apply good_State_supersede
    | with_reducible apply good_later
    | with_reducible refine good_later_eq (by assumption) ?_
    | (with_reducible refine good_modFlight_field (fun _ => by (repeat' split) <;> first | exact ⟨rfl, id⟩ | exact ⟨rfl, fun e => by simp [Flight.holds] at e ⊢; tauto⟩) ?_)
    | (with_reducible apply good_foldl; intro _ _ _)
    | dsimp only
    | split
    | (intro hk; (try dsimp only); repeat' first | exact hk | split)

theorem good_runCancel_eq {o : Otp} {q : List Instr} {s t : State} {a1} {x1} (e : runCancel s a1 = (t, x1)) (h : Good o q s) : Good o q t := by
  have := good_runCancel h a1
  rw [e] at this
  exact this

/-! ### Boot -/

theorem good_State_setStage {o : Otp} {q : List Instr} {s : State} (h : Good o q s) : ∀ a1, Good o q (State.setStage s a1) := by
  intro a1
  unfold State.setStage
  repeat' first
    | with_reducible assumption
    | with_reducible apply good_modGeode
    | (with_reducible apply good_foldl; intro _ _ _)
    | dsimp only
    | split
    | (intro hk; (try dsimp only); repeat' first | exact hk | split)

theorem good_State_bootReport {o : Otp} {q : List Instr} {s : State} (h : Good o q s) : Good o q (State.bootReport s) := by
  unfold State.bootReport
  repeat' first
    | with_reducible assumption
    | with_reducible apply good_State_eventUp
    | with_reducible apply good_State_deliver
    | (with_reducible apply good_foldl; intro _ _ _)
    | dsimp only
    | split
    | (intro hk; (try dsimp only); repeat' first | exact hk | split)

theorem good_State_afterWipe {o : Otp} {q : List Instr} {s : State} (h : Good o q s) : Good o q (State.afterWipe s) := by
  unfold State.afterWipe
  repeat' first
    | with_reducible assumption
    | with_reducible apply good_State_bootReport
    | with_reducible apply good_State_setStage
    | (with_reducible apply good_foldl; intro _ _ _)
    | dsimp only
    | split
    | (intro hk; (try dsimp only); repeat' first | exact hk | split)

theorem good_State_setHint {o : Otp} {q : List Instr} {s : State} (h : Good o q s) : ∀ a1, Good o q (State.setHint s a1) := by
  intro a1
  unfold State.setHint
  repeat' first
    | with_reducible assumption
    | with_reducible apply good_modSys
    | (with_reducible apply good_foldl; intro _ _ _)
    | dsimp only
    | split
    | (intro hk; (try dsimp only); repeat' first | exact hk | split | exact ⟨by first | exact hk.ready | simpa using hk.ready | simpa using h.inv.sys.ready⟩)

theorem good_State_bootSlot {o : Otp} {q : List Instr} {s : State} (h : Good o q s) : ∀ a1, Good o q (State.bootSlot s a1) := by
  intro a1
  unfold State.bootSlot
  repeat' first
    | with_reducible assumption
    | with_reducible apply good_State_setStage
    | with_reducible apply good_modGeode
    | (with_reducible apply good_foldl; intro _ _ _)
    | dsimp only
    | split
    | (intro hk; (try dsimp only); repeat' first | exact hk | split)

theorem good_State_clearRecovery {o : Otp} {q : List Instr} {s : State} (h : Good o q s) : Good o q (State.clearRecovery s) := by
  unfold State.clearRecovery
  repeat' first
    | with_reducible assumption
    | with_reducible apply good_State_setHint
    | (with_reducible apply good_foldl; intro _ _ _)
    | dsimp only
    | split
    | (intro hk; (try dsimp only); repeat' first | exact hk | split)

theorem good_State_writeRecord {o : Otp} {q : List Instr} {s : State} {f : Flash → Flash}
    (k : s.flash.Sound → (f s.flash).Sound) (h : Good o q s) : Good o q (s.writeRecord f) := by
  unfold State.writeRecord
  split
  · exact good_modFlash k h
  · exact h

theorem good_State_trySlots {o : Otp} {q : List Instr} {s : State} (h : Good o q s) : ∀ a1, Good o q (State.trySlots s a1) := by
  intro a1
  unfold State.trySlots
  repeat' first
    | with_reducible assumption
    | with_reducible apply good_State_bootSlot
    | with_reducible apply good_State_clearRecovery
    | with_reducible apply good_State_recordFault
    | with_reducible apply good_State_writeRecord
    | with_reducible apply good_State_bootReport
    | with_reducible apply good_State_setStage
    | with_reducible apply good_State_setHint
    | (with_reducible apply good_foldl; intro _ _ _)
    | dsimp only
    | split
    | (intro hk; (try dsimp only); repeat' first | exact hk | split | exact ⟨by first | exact hk.staging | simpa using hk.staging | simpa using h.inv.flash.staging⟩)

theorem good_State_loadRec {o : Otp} {q : List Instr} {s : State} {t i : Nat} {f : State → List Byte → State}
    (k : ∀ s b, Good o q s → Good o q (f s b)) (h : Good o q s) : Good o q (s.loadRec t i f) := by
  unfold State.loadRec
  split
  · exact k _ _ h
  · exact h

theorem good_State_loadAll {o : Otp} {q : List Instr} {s : State} {t : Nat} {f : State → Nat → List Byte → State}
    (k : ∀ s i b, Good o q s → Good o q (f s i b)) (h : Good o q s) : Good o q (s.loadAll t f) :=
  good_foldl (fun _ i g => good_State_loadRec (fun s b => k s i b) g) h

theorem good_State_loadCommon {o : Otp} {q : List Instr} {s : State} (h : Good o q s) : Good o q (State.loadCommon s) := by
  unfold State.loadCommon
  refine good_State_loadAll ?_ (good_State_loadAll ?_ (good_State_loadAll ?_ (good_State_loadAll ?_ (good_State_loadAll ?_
    (good_State_loadAll ?_ (good_State_loadAll ?_ h))))))
  · exact fun s _ b g => good_modMemi (fun hk => sound_Memi_config hk _) g
  · exact fun s _ b g => good_modTherm (fun hk => ⟨hk.ext, hk.batt⟩) g
  · exact fun s _ b g => good_modMeas (fun hk => sound_Meas_setModes hk _) g
  · exact fun s i b g => good_modMeas (fun hk => sound_Meas_modAdc hk _ _) g
  · intro s i b g
    split
    · exact good_State_loadChan g _ _
    · exact g
  · exact fun s _ b g => good_modProt (fun hk => ⟨hk.echo, hk.crowbars⟩) g
  · exact fun s i b g => good_State_loadLane g _ _

theorem good_State_loadHome {o : Otp} {q : List Instr} {s : State} (h : Good o q s) : Good o q (State.loadHome s) := by
  unfold State.loadHome
  split
  · refine good_State_loadAll ?_ h
    exact fun s i b g => good_State_modStrand g _ _
  · extract_lets s1 s2 s3
    have h3 : Good o q s3 := by
      refine good_State_loadAll ?_ (good_State_loadAll ?_ (good_State_loadAll ?_ h))
      · exact fun s _ b g => good_modPath (fun hk => ⟨hk.chans, hk.shares⟩) g
      · exact fun s i b g => good_State_modStrand g _ _
      · exact fun s _ b g => good_modTime (fun hk => ⟨hk.timers, hk.captures, hk.epoch⟩) g
    clear_value s3
    split
    · refine good_State_loadAll ?_ h3
      exact fun s _ b g => good_modSlolos (fun hk => sound_Slolos_config hk _) g
    · exact h3

theorem good_State_loadMq {o : Otp} {q : List Instr} {s : State} (h : Good o q s) : Good o q (State.loadMq s) := by
  unfold State.loadMq
  split
  · exact h
  · extract_lets s1 s2
    have h2 : Good o q s2 := by
      refine good_State_loadAll ?_ (good_State_loadAll ?_ h)
      · exact fun s _ b g => good_modPendant g
      · exact fun s i b g => good_modCmd (fun hk => sound_setCan hk) g
    clear_value s2
    split
    · exact h2
    · refine good_State_loadAll ?_ h2
      exact fun s i b g => good_State_loadPort g _ _

theorem good_State_dropCopies {o : Otp} {q : List Instr} {s : State} (h : Good o q s) : Good o q (State.dropCopies s) := by
  unfold State.dropCopies
  repeat' first
    | with_reducible assumption
    | with_reducible apply good_modFlash
    | (with_reducible apply good_foldl; intro _ _ _)
    | dsimp only
    | split
    | (intro hk; (try dsimp only); repeat' first | exact hk | split | exact ⟨by first | exact hk.staging | simpa using hk.staging | simpa using h.inv.flash.staging⟩)

end Sys2Proof.Machine
end

