-- ==== Sys2Proof/Laws/SoundEpoch.lean ====
section
/-!
SUPPORT. Every function keeps a good state (`Good`): the opcodes, packet frames, the passing of time and the epoch boundary.
-/
set_option linter.unusedTactic false
set_option linter.unreachableTactic false
set_option linter.unusedVariables false

namespace Sys2Proof.Machine

/-! ### OpKeeps -/

theorem keeps_opProtConfig : opProtConfig.Keeps where
  run := by
    intro o q s f h
    unfold opProtConfig
    dsimp only
    repeat' first
      | with_reducible assumption
      | with_reducible apply good_okay
      | with_reducible refine good_okay_eq (by assumption) ?_
      | with_reducible apply good_modProt
      | with_reducible apply good_answer
      | with_reducible refine good_answer_eq (by assumption) ?_
      | (with_reducible apply good_foldl; intro _ _ _)
      | dsimp only
      | split
      | (intro hk; (try dsimp only); repeat' first | exact hk | with_reducible apply sound_Prot_load | split | exact ⟨by first | exact hk.echo | simpa using hk.echo | simpa using h.inv.prot.echo, by first | exact hk.crowbars | simpa using hk.crowbars | simpa using h.inv.prot.crowbars⟩)

  accept := fun _ _ _ f h => good_State_answerAccepted h f

theorem keeps_opProtClear : opProtClear.Keeps where
  run := by
    intro o q s f h
    unfold opProtClear
    dsimp only
    repeat' first
      | with_reducible assumption
      | with_reducible apply good_okay
      | with_reducible refine good_okay_eq (by assumption) ?_
      | with_reducible apply good_protClear
      | (with_reducible apply good_foldl; intro _ _ _)
      | dsimp only
      | split
      | (intro hk; (try dsimp only); repeat' first | exact hk | split)

  accept := fun _ _ _ f h => good_State_answerAccepted h f

theorem keeps_opProtLogRead : opProtLogRead.Keeps where
  run := by
    intro o q s f h
    unfold opProtLogRead
    dsimp only
    repeat' first
      | with_reducible assumption
      | with_reducible apply good_okayWith
      | with_reducible refine good_okayWith_eq (by assumption) ?_
      | (with_reducible apply good_foldl; intro _ _ _)
      | dsimp only
      | split
      | (intro hk; (try dsimp only); repeat' first | exact hk | split)

  accept := fun _ _ _ f h => good_State_answerAccepted h f

theorem keeps_opEchoRead : opEchoRead.Keeps where
  run := by
    intro o q s f h
    unfold opEchoRead
    dsimp only
    repeat' first
      | with_reducible assumption
      | with_reducible apply good_okayWith
      | with_reducible refine good_okayWith_eq (by assumption) ?_
      | (with_reducible apply good_foldl; intro _ _ _)
      | dsimp only
      | split
      | (intro hk; (try dsimp only); repeat' first | exact hk | split)

  accept := fun _ _ _ f h => good_State_answerAccepted h f

theorem keeps_opEchoClear : opEchoClear.Keeps where
  run := by
    intro o q s f h
    unfold opEchoClear
    dsimp only
    repeat' first
      | with_reducible assumption
      | with_reducible apply good_okay
      | with_reducible refine good_okay_eq (by assumption) ?_
      | with_reducible apply good_modProt
      | (with_reducible apply good_foldl; intro _ _ _)
      | dsimp only
      | split
      | (intro hk; (try dsimp only); repeat' first | exact hk | with_reducible apply sound_Prot_clearEcho | split | exact ⟨by first | exact hk.echo | simpa using hk.echo | simpa using h.inv.prot.echo, by first | exact hk.crowbars | simpa using hk.crowbars | simpa using h.inv.prot.crowbars⟩)

  accept := fun _ _ _ f h => good_State_answerAccepted h f

theorem keeps_opMeasTable : opMeasTable.Keeps where
  run := by
    intro o q s f h
    unfold opMeasTable
    dsimp only
    repeat' first
      | with_reducible assumption
      | with_reducible apply good_State_ahead
      | with_reducible apply good_answer
      | with_reducible refine good_answer_eq (by assumption) ?_
      | with_reducible apply good_okay
      | with_reducible refine good_okay_eq (by assumption) ?_
      | with_reducible apply good_modMeas
      | (with_reducible apply good_foldl; intro _ _ _)
      | dsimp only
      | split
      | (intro hk; (try dsimp only); repeat' first | exact hk | with_reducible apply sound_Meas_modAdc | split | exact ⟨by first | exact hk.adcs | simpa using hk.adcs | simpa using h.inv.meas.adcs, by first | exact hk.accs | simpa using hk.accs | simpa using h.inv.meas.accs, by first | exact hk.trks | simpa using hk.trks | simpa using h.inv.meas.trks⟩)

  accept := fun _ _ _ f h => good_State_answerAccepted h f

theorem keeps_opMeasAccConfig : opMeasAccConfig.Keeps where
  run := by
    intro o q s f h
    unfold opMeasAccConfig
    dsimp only
    repeat' first
      | with_reducible assumption
      | with_reducible apply good_State_ahead
      | with_reducible apply good_okay
      | with_reducible refine good_okay_eq (by assumption) ?_
      | with_reducible apply good_modMeas
      | (with_reducible apply good_foldl; intro _ _ _)
      | dsimp only
      | split
      | (intro hk; (try dsimp only); repeat' first | exact hk | with_reducible apply sound_Meas_setModes | split | exact ⟨by first | exact hk.adcs | simpa using hk.adcs | simpa using h.inv.meas.adcs, by first | exact hk.accs | simpa using hk.accs | simpa using h.inv.meas.accs, by first | exact hk.trks | simpa using hk.trks | simpa using h.inv.meas.trks⟩)

  accept := fun _ _ _ f h => good_State_answerAccepted h f

theorem keeps_opMeasClear : opMeasClear.Keeps where
  run := by
    intro o q s f h
    unfold opMeasClear
    dsimp only
    repeat' first
      | with_reducible assumption
      | with_reducible apply good_okay
      | with_reducible refine good_okay_eq (by assumption) ?_
      | with_reducible apply good_modMeas
      | (with_reducible apply good_foldl; intro _ _ _)
      | dsimp only
      | split
      | (intro hk; (try dsimp only); repeat' first | exact hk | with_reducible apply sound_Meas_clear | split | exact ⟨by first | exact hk.adcs | simpa using hk.adcs | simpa using h.inv.meas.adcs, by first | exact hk.accs | simpa using hk.accs | simpa using h.inv.meas.accs, by first | exact hk.trks | simpa using hk.trks | simpa using h.inv.meas.trks⟩)

  accept := fun _ _ _ f h => good_State_answerAccepted h f

theorem keeps_opMeasSnapshotRead : opMeasSnapshotRead.Keeps where
  run := by
    intro o q s f h
    unfold opMeasSnapshotRead
    dsimp only
    repeat' first
      | with_reducible assumption
      | with_reducible apply good_answer
      | with_reducible refine good_answer_eq (by assumption) ?_
      | with_reducible apply good_okayWith
      | with_reducible refine good_okayWith_eq (by assumption) ?_
      | (with_reducible apply good_foldl; intro _ _ _)
      | dsimp only
      | split
      | (intro hk; (try dsimp only); repeat' first | exact hk | split)

  accept := fun _ _ _ f h => good_State_answerAccepted h f

theorem keeps_opMeasTableStatus : opMeasTableStatus.Keeps where
  run := by
    intro o q s f h
    unfold opMeasTableStatus
    dsimp only
    repeat' first
      | with_reducible assumption
      | with_reducible apply good_okayWith
      | with_reducible refine good_okayWith_eq (by assumption) ?_
      | (with_reducible apply good_foldl; intro _ _ _)
      | dsimp only
      | split
      | (intro hk; (try dsimp only); repeat' first | exact hk | split)

  accept := fun _ _ _ f h => good_State_answerAccepted h f

theorem keeps_opThermConfig : opThermConfig.Keeps where
  run := by
    intro o q s f h
    unfold opThermConfig
    dsimp only
    repeat' first
      | with_reducible assumption
      | with_reducible apply good_State_ahead
      | with_reducible apply good_okay
      | with_reducible refine good_okay_eq (by assumption) ?_
      | with_reducible apply good_modTherm
      | (with_reducible apply good_foldl; intro _ _ _)
      | dsimp only
      | split
      | (intro hk; (try dsimp only); repeat' first | exact hk | split | exact ⟨by first | exact hk.ext | simpa using hk.ext | simpa using h.inv.therm.ext, by first | exact hk.batt | simpa using hk.batt | simpa using h.inv.therm.batt⟩)

  accept := fun _ _ _ f h => good_State_answerAccepted h f

theorem keeps_opThermStatus : opThermStatus.Keeps where
  run := by
    intro o q s f h
    unfold opThermStatus
    dsimp only
    repeat' first
      | with_reducible assumption
      | with_reducible apply good_okayWith
      | with_reducible refine good_okayWith_eq (by assumption) ?_
      | (with_reducible apply good_foldl; intro _ _ _)
      | dsimp only
      | split
      | (intro hk; (try dsimp only); repeat' first | exact hk | split)

  accept := fun _ _ _ f h => good_State_answerAccepted h f

theorem keeps_opThermPeakClear : opThermPeakClear.Keeps where
  run := by
    intro o q s f h
    unfold opThermPeakClear
    dsimp only
    repeat' first
      | with_reducible assumption
      | with_reducible apply good_okay
      | with_reducible refine good_okay_eq (by assumption) ?_
      | with_reducible apply good_modTherm
      | (with_reducible apply good_foldl; intro _ _ _)
      | dsimp only
      | split
      | (intro hk; (try dsimp only); repeat' first | exact hk | split | exact ⟨by first | exact hk.ext | simpa using hk.ext | simpa using h.inv.therm.ext, by first | exact hk.batt | simpa using hk.batt | simpa using h.inv.therm.batt⟩)

  accept := fun _ _ _ f h => good_State_answerAccepted h f

theorem keeps_opStrandConfig : opStrandConfig.Keeps where
  run := by
    intro o q s f h
    unfold opStrandConfig
    dsimp only
    repeat' first
      | with_reducible assumption
      | with_reducible apply good_State_ahead
      | with_reducible apply good_okay
      | with_reducible refine good_okay_eq (by assumption) ?_
      | with_reducible apply good_State_modStrand
      | (with_reducible apply good_foldl; intro _ _ _)
      | dsimp only
      | split
      | (intro hk; (try dsimp only); repeat' first | exact hk | split)

  accept := fun _ _ _ f h => good_State_answerAccepted h f

theorem keeps_opChargeStart : opChargeStart.Keeps where
  run := by
    intro o q s f h
    unfold opChargeStart
    dsimp only
    repeat' first
      | with_reducible assumption
      | with_reducible apply good_okay
      | with_reducible refine good_okay_eq (by assumption) ?_
      | with_reducible apply good_State_modStrand
      | (with_reducible apply good_foldl; intro _ _ _)
      | dsimp only
      | split
      | (intro hk; (try dsimp only); repeat' first | exact hk | split)

  accept := fun _ _ _ f h => good_State_answerAccepted h f

theorem keeps_opChargeStop : opChargeStop.Keeps where
  run := by
    intro o q s f h
    unfold opChargeStop
    dsimp only
    repeat' first
      | with_reducible assumption
      | with_reducible apply good_okay
      | with_reducible refine good_okay_eq (by assumption) ?_
      | with_reducible apply good_State_modStrand
      | (with_reducible apply good_foldl; intro _ _ _)
      | dsimp only
      | split
      | (intro hk; (try dsimp only); repeat' first | exact hk | split)

  accept := fun _ _ _ f h => good_State_answerAccepted h f

theorem keeps_opChargeEqualise : opChargeEqualise.Keeps where
  run := by
    intro o q s f h
    unfold opChargeEqualise
    dsimp only
    repeat' first
      | with_reducible assumption
      | with_reducible apply good_okay
      | with_reducible refine good_okay_eq (by assumption) ?_
      | with_reducible apply good_State_modStrand
      | with_reducible apply good_answer
      | with_reducible refine good_answer_eq (by assumption) ?_
      | (with_reducible apply good_foldl; intro _ _ _)
      | dsimp only
      | split
      | (intro hk; (try dsimp only); repeat' first | exact hk | split)

  accept := fun _ _ _ f h => good_State_answerAccepted h f

theorem keeps_opStrandStatus : opStrandStatus.Keeps where
  run := by
    intro o q s f h
    unfold opStrandStatus
    dsimp only
    repeat' first
      | with_reducible assumption
      | with_reducible apply good_okayWith
      | with_reducible refine good_okayWith_eq (by assumption) ?_
      | (with_reducible apply good_foldl; intro _ _ _)
      | dsimp only
      | split
      | (intro hk; (try dsimp only); repeat' first | exact hk | split)

  accept := fun _ _ _ f h => good_State_answerAccepted h f

theorem keeps_opBmsLimits : opBmsLimits.Keeps where
  run := by
    intro o q s f h
    unfold opBmsLimits
    dsimp only
    repeat' first
      | with_reducible assumption
      | with_reducible apply good_okay
      | with_reducible refine good_okay_eq (by assumption) ?_
      | with_reducible apply good_State_modStrand
      | (with_reducible apply good_foldl; intro _ _ _)
      | dsimp only
      | split
      | (intro hk; (try dsimp only); repeat' first | exact hk | split)

  accept := fun _ _ _ f h => good_State_answerAccepted h f

theorem keeps_opStrandPlan : opStrandPlan.Keeps where
  run := by
    intro o q s f h
    unfold opStrandPlan
    dsimp only
    repeat' first
      | with_reducible assumption
      | with_reducible apply good_okay
      | with_reducible refine good_okay_eq (by assumption) ?_
      | with_reducible apply good_State_modStrand
      | (with_reducible apply good_foldl; intro _ _ _)
      | dsimp only
      | split
      | (intro hk; (try dsimp only); repeat' first | exact hk | split)

  accept := fun _ _ _ f h => good_State_answerAccepted h f

theorem keeps_opLaneConfig : opLaneConfig.Keeps where
  run := by
    intro o q s f h
    unfold opLaneConfig
    dsimp only
    repeat' first
      | with_reducible assumption
      | with_reducible apply good_State_ahead
      | with_reducible apply good_okay
      | with_reducible refine good_okay_eq (by assumption) ?_
      | with_reducible apply good_State_configureLane
      | (with_reducible apply good_foldl; intro _ _ _)
      | dsimp only
      | split
      | (intro hk; (try dsimp only); repeat' first | exact hk | split)

  accept := fun _ _ _ f h => good_State_answerAccepted h f

theorem keeps_opLaneStart : opLaneStart.Keeps where
  run := by
    intro o q s f h
    unfold opLaneStart
    dsimp only
    repeat' first
      | with_reducible assumption
      | with_reducible apply good_okay
      | with_reducible refine good_okay_eq (by assumption) ?_
      | with_reducible apply good_State_launch
      | (with_reducible apply good_foldl; intro _ _ _)
      | dsimp only
      | split
      | (intro hk; (try dsimp only); repeat' first | exact hk | split)

  accept := fun _ _ _ f h => good_State_answerAccepted h f

theorem keeps_opLaneStop : opLaneStop.Keeps where
  run := by
    intro o q s f h
    unfold opLaneStop
    dsimp only
    repeat' first
      | with_reducible assumption
      | with_reducible apply good_okay
      | with_reducible refine good_okay_eq (by assumption) ?_
      | with_reducible apply good_State_stopLane
      | with_reducible apply good_State_stopNow
      | (with_reducible apply good_foldl; intro _ _ _)
      | dsimp only
      | split
      | (intro hk; (try dsimp only); repeat' first | exact hk | split)

  accept := fun _ _ _ f h => good_State_answerAccepted h f

theorem keeps_opSetLaneTarget : opSetLaneTarget.Keeps where
  run := by
    intro o q s f h
    unfold opSetLaneTarget
    dsimp only
    repeat' first
      | with_reducible assumption
      | with_reducible apply good_okay
      | with_reducible refine good_okay_eq (by assumption) ?_
      | with_reducible apply good_State_modLane
      | (with_reducible apply good_foldl; intro _ _ _)
      | dsimp only
      | split
      | (intro hk; (try dsimp only); repeat' first | exact hk | split)

  accept := fun _ _ _ f h => good_State_answerAccepted h f

theorem keeps_opSetLaneCoeffs : opSetLaneCoeffs.Keeps where
  run := by
    intro o q s f h
    unfold opSetLaneCoeffs
    dsimp only
    repeat' first
      | with_reducible assumption
      | with_reducible apply good_okay
      | with_reducible refine good_okay_eq (by assumption) ?_
      | with_reducible apply good_State_modLane
      | (with_reducible apply good_foldl; intro _ _ _)
      | dsimp only
      | split
      | (intro hk; (try dsimp only); repeat' first | exact hk | split)

  accept := fun _ _ _ f h => good_State_answerAccepted h f

theorem keeps_opSetLaneProfile : opSetLaneProfile.Keeps where
  run := by
    intro o q s f h
    unfold opSetLaneProfile
    dsimp only
    repeat' first
      | with_reducible assumption
      | with_reducible apply good_okay
      | with_reducible refine good_okay_eq (by assumption) ?_
      | with_reducible apply good_State_modLane
      | (with_reducible apply good_foldl; intro _ _ _)
      | dsimp only
      | split
      | (intro hk; (try dsimp only); repeat' first | exact hk | split)

  accept := fun _ _ _ f h => good_State_answerAccepted h f

theorem keeps_opSetBurst : opSetBurst.Keeps where
  run := by
    intro o q s f h
    unfold opSetBurst
    dsimp only
    repeat' first
      | with_reducible assumption
      | with_reducible apply good_okay
      | with_reducible refine good_okay_eq (by assumption) ?_
      | with_reducible apply good_State_modLane
      | with_reducible apply good_answer
      | with_reducible refine good_answer_eq (by assumption) ?_
      | (with_reducible apply good_foldl; intro _ _ _)
      | dsimp only
      | split
      | (intro hk; (try dsimp only); repeat' first | exact hk | split)

  accept := fun _ _ _ f h => good_State_answerAccepted h f

theorem keeps_opTuningControl : opTuningControl.Keeps where
  run := by
    intro o q s f h
    unfold opTuningControl
    dsimp only
    repeat' first
      | with_reducible assumption
      | with_reducible apply good_okay
      | with_reducible refine good_okay_eq (by assumption) ?_
      | with_reducible apply good_State_modLane
      | (with_reducible apply good_foldl; intro _ _ _)
      | dsimp only
      | split
      | (intro hk; (try dsimp only); repeat' first | exact hk | split)

  accept := fun _ _ _ f h => good_State_answerAccepted h f

theorem keeps_opLanePhaseLock : opLanePhaseLock.Keeps where
  run := by
    intro o q s f h
    unfold opLanePhaseLock
    dsimp only
    repeat' first
      | with_reducible assumption
      | with_reducible apply good_okay
      | with_reducible refine good_okay_eq (by assumption) ?_
      | with_reducible apply good_State_modLane
      | (with_reducible apply good_foldl; intro _ _ _)
      | dsimp only
      | split
      | (intro hk; (try dsimp only); repeat' first | exact hk | split)

  accept := fun _ _ _ f h => good_State_answerAccepted h f

theorem keeps_opLaneLegs : opLaneLegs.Keeps where
  run := by
    intro o q s f h
    unfold opLaneLegs
    dsimp only
    repeat' first
      | with_reducible assumption
      | with_reducible apply good_State_ahead
      | with_reducible apply good_okay
      | with_reducible refine good_okay_eq (by assumption) ?_
      | with_reducible apply good_State_setLegs
      | (with_reducible apply good_foldl; intro _ _ _)
      | dsimp only
      | split
      | (intro hk; (try dsimp only); repeat' first | exact hk | split)

  accept := fun _ _ _ f h => good_State_answerAccepted h f

theorem keeps_opLaneStatus : opLaneStatus.Keeps where
  run := by
    intro o q s f h
    unfold opLaneStatus
    dsimp only
    repeat' first
      | with_reducible assumption
      | with_reducible apply good_okayWith
      | with_reducible refine good_okayWith_eq (by assumption) ?_
      | (with_reducible apply good_foldl; intro _ _ _)
      | dsimp only
      | split
      | (intro hk; (try dsimp only); repeat' first | exact hk | split)

  accept := fun _ _ _ f h => good_State_answerAccepted h f

theorem keeps_opBezelConfig : opBezelConfig.Keeps where
  run := by
    intro o q s f h
    unfold opBezelConfig
    dsimp only
    repeat' first
      | with_reducible assumption
      | with_reducible apply good_State_ahead
      | with_reducible apply good_okay
      | with_reducible refine good_okay_eq (by assumption) ?_
      | with_reducible apply good_State_loadChan
      | (with_reducible apply good_foldl; intro _ _ _)
      | dsimp only
      | split
      | (intro hk; (try dsimp only); repeat' first | exact hk | split)

  accept := fun _ _ _ f h => good_State_answerAccepted h f

theorem keeps_opPathConfig : opPathConfig.Keeps where
  run := by
    intro o q s f h
    unfold opPathConfig
    dsimp only
    repeat' first
      | with_reducible assumption
      | with_reducible apply good_State_ahead
      | with_reducible apply good_okay
      | with_reducible refine good_okay_eq (by assumption) ?_
      | with_reducible apply good_modPath
      | (with_reducible apply good_foldl; intro _ _ _)
      | dsimp only
      | split
      | (intro hk; (try dsimp only); repeat' first | exact hk | split | exact ⟨by first | exact hk.chans | simpa using hk.chans | simpa using h.inv.path.chans, by first | exact hk.shares | simpa using hk.shares | simpa using h.inv.path.shares⟩)

  accept := fun _ _ _ f h => good_State_answerAccepted h f

theorem keeps_opSourceInhibit : opSourceInhibit.Keeps where
  run := by
    intro o q s f h
    unfold opSourceInhibit
    dsimp only
    repeat' first
      | with_reducible assumption
      | with_reducible apply good_okay
      | with_reducible refine good_okay_eq (by assumption) ?_
      | with_reducible apply good_modPath
      | with_reducible apply good_answer
      | with_reducible refine good_answer_eq (by assumption) ?_
      | (with_reducible apply good_foldl; intro _ _ _)
      | dsimp only
      | split
      | (intro hk; (try dsimp only); repeat' first | exact hk | split | exact ⟨by first | exact hk.chans | simpa using hk.chans | simpa using h.inv.path.chans, by first | exact hk.shares | simpa using hk.shares | simpa using h.inv.path.shares⟩)

  accept := fun _ _ _ f h => good_State_answerAccepted h f

theorem keeps_opBezelClear : opBezelClear.Keeps where
  run := by
    intro o q s f h
    unfold opBezelClear
    dsimp only
    repeat' first
      | with_reducible assumption
      | with_reducible apply good_okay
      | with_reducible refine good_okay_eq (by assumption) ?_
      | with_reducible apply good_State_modChan
      | with_reducible apply good_State_setChan
      | (with_reducible apply good_foldl; intro _ _ _)
      | dsimp only
      | split
      | (intro hk; (try dsimp only); repeat' first | exact hk | split)

  accept := fun _ _ _ f h => good_State_answerAccepted h f

theorem keeps_opPathStatus : opPathStatus.Keeps where
  run := by
    intro o q s f h
    unfold opPathStatus
    dsimp only
    repeat' first
      | with_reducible assumption
      | with_reducible apply good_okayWith
      | with_reducible refine good_okayWith_eq (by assumption) ?_
      | (with_reducible apply good_foldl; intro _ _ _)
      | dsimp only
      | split
      | (intro hk; (try dsimp only); repeat' first | exact hk | split)

  accept := fun _ _ _ f h => good_State_answerAccepted h f

theorem keeps_opPeerPower : opPeerPower.Keeps where
  run := by
    intro o q s f h
    unfold opPeerPower
    dsimp only
    repeat' first
      | with_reducible assumption
      | with_reducible apply good_okay
      | with_reducible refine good_okay_eq (by assumption) ?_
      | with_reducible apply good_modPath
      | (with_reducible apply good_foldl; intro _ _ _)
      | dsimp only
      | split
      | (intro hk; (try dsimp only); repeat' first | exact hk | split | exact ⟨by first | exact hk.chans | simpa using hk.chans | simpa using h.inv.path.chans, by first | exact hk.shares | simpa using hk.shares | simpa using h.inv.path.shares⟩)

  accept := fun _ _ _ f h => good_State_answerAccepted h f

theorem keeps_opChainStatus : opChainStatus.Keeps where
  run := by
    intro o q s f h
    unfold opChainStatus
    dsimp only
    repeat' first
      | with_reducible assumption
      | with_reducible apply good_okayWith
      | with_reducible refine good_okayWith_eq (by assumption) ?_
      | (with_reducible apply good_foldl; intro _ _ _)
      | dsimp only
      | split
      | (intro hk; (try dsimp only); repeat' first | exact hk | split)

  accept := fun _ _ _ f h => good_State_answerAccepted h f

theorem keeps_opChainWorker : opChainWorker.Keeps where
  run := by
    intro o q s f h
    unfold opChainWorker
    dsimp only
    repeat' first
      | with_reducible assumption
      | with_reducible apply good_okayWith
      | with_reducible refine good_okayWith_eq (by assumption) ?_
      | (with_reducible apply good_foldl; intro _ _ _)
      | dsimp only
      | split
      | (intro hk; (try dsimp only); repeat' first | exact hk | split)

  accept := fun _ _ _ f h => good_State_answerAccepted h f

theorem keeps_opChainEnumerate : opChainEnumerate.Keeps where
  run := by
    intro o q s f h
    unfold opChainEnumerate
    dsimp only
    repeat' first
      | with_reducible assumption
      | with_reducible apply good_okay
      | with_reducible refine good_okay_eq (by assumption) ?_
      | with_reducible apply good_State_fullEnumeration
      | with_reducible apply good_State_startPass
      | (with_reducible apply good_foldl; intro _ _ _)
      | dsimp only
      | split
      | (intro hk; (try dsimp only); repeat' first | exact hk | split)

  accept := fun _ _ _ f h => good_State_answerAccepted h f

theorem keeps_opChainReset : opChainReset.Keeps where
  run := by
    intro o q s f h
    unfold opChainReset
    dsimp only
    repeat' first
      | with_reducible assumption
      | with_reducible apply good_okay
      | with_reducible refine good_okay_eq (by assumption) ?_
      | with_reducible apply good_State_sendDown
      | (with_reducible apply good_foldl; intro _ _ _)
      | dsimp only
      | split
      | (intro hk; (try dsimp only); repeat' first | exact hk | split)

  accept := fun _ _ _ f h => good_State_answerAccepted h f

theorem keeps_opChainConfig : opChainConfig.Keeps where
  run := by
    intro o q s f h
    unfold opChainConfig
    dsimp only
    repeat' first
      | with_reducible assumption
      | with_reducible apply good_answer
      | with_reducible refine good_answer_eq (by assumption) ?_
      | with_reducible apply good_okay
      | with_reducible refine good_okay_eq (by assumption) ?_
      | with_reducible apply good_modSlolos
      | (with_reducible apply good_foldl; intro _ _ _)
      | dsimp only
      | split
      | (intro hk; (try dsimp only); repeat' first | exact hk | with_reducible apply sound_Slolos_config | split | exact ⟨by first | exact hk.ctxs | simpa using hk.ctxs | simpa using h.inv.slolos.ctxs, by first | exact hk.marker | simpa using hk.marker | simpa using h.inv.slolos.marker⟩)

  accept := fun _ _ _ f h => good_State_answerAccepted h f

theorem keeps_opPendantConfig : opPendantConfig.Keeps where
  run := by
    intro o q s f h
    unfold opPendantConfig
    dsimp only
    repeat' first
      | with_reducible assumption
      | with_reducible apply good_State_ahead
      | with_reducible apply good_okay
      | with_reducible refine good_okay_eq (by assumption) ?_
      | with_reducible apply good_modPendant
      | with_reducible apply good_State_pendantEnd
      | with_reducible apply good_answer
      | with_reducible refine good_answer_eq (by assumption) ?_
      | (with_reducible apply good_foldl; intro _ _ _)
      | dsimp only
      | split
      | (intro hk; (try dsimp only); repeat' first | exact hk | split)

  accept := fun _ _ _ f h => good_State_answerAccepted h f

theorem keeps_opPendantStatus : opPendantStatus.Keeps where
  run := by
    intro o q s f h
    unfold opPendantStatus
    dsimp only
    repeat' first
      | with_reducible assumption
      | with_reducible apply good_okayWith
      | with_reducible refine good_okayWith_eq (by assumption) ?_
      | (with_reducible apply good_foldl; intro _ _ _)
      | dsimp only
      | split
      | (intro hk; (try dsimp only); repeat' first | exact hk | split)

  accept := fun _ _ _ f h => good_State_answerAccepted h f

theorem keeps_opEnterStandby : opEnterStandby.Keeps where
  run := by
    intro o q s f h
    unfold opEnterStandby
    dsimp only
    repeat' first
      | with_reducible assumption
      | with_reducible apply good_runLowPower
      | with_reducible refine good_runLowPower_eq (by assumption) ?_
      | (with_reducible apply good_foldl; intro _ _ _)
      | dsimp only
      | split
      | (intro hk; (try dsimp only); repeat' first | exact hk | split)

  accept := fun _ _ _ f h => good_State_answerAccepted h f

theorem keeps_opEnterHibernate : opEnterHibernate.Keeps where
  run := by
    intro o q s f h
    unfold opEnterHibernate
    dsimp only
    repeat' first
      | with_reducible assumption
      | with_reducible apply good_runLowPower
      | with_reducible refine good_runLowPower_eq (by assumption) ?_
      | (with_reducible apply good_foldl; intro _ _ _)
      | dsimp only
      | split
      | (intro hk; (try dsimp only); repeat' first | exact hk | split)

  accept := fun _ _ _ f h => good_State_answerAccepted h f

theorem keeps_opSetWake : opSetWake.Keeps where
  run := by
    intro o q s f h
    unfold opSetWake
    dsimp only
    repeat' first
      | with_reducible assumption
      | with_reducible apply good_okay
      | with_reducible refine good_okay_eq (by assumption) ?_
      | with_reducible apply good_modSys
      | (with_reducible apply good_foldl; intro _ _ _)
      | dsimp only
      | split
      | (intro hk; (try dsimp only); repeat' first | exact hk | split | exact ⟨by first | exact hk.ready | simpa using hk.ready | simpa using h.inv.sys.ready⟩)

  accept := fun _ _ _ f h => good_State_answerAccepted h f

theorem keeps_opSoftReset : opSoftReset.Keeps where
  run := by
    intro o q s f h
    unfold opSoftReset
    dsimp only
    repeat' first
      | with_reducible assumption
      | with_reducible apply good_later
      | with_reducible refine good_later_eq (by assumption) ?_
      | with_reducible apply good_State_trigger
      | with_reducible apply good_State_dropFlight
      | with_reducible apply good_okay
      | with_reducible refine good_okay_eq (by assumption) ?_
      | (with_reducible apply good_foldl; intro _ _ _)
      | dsimp only
      | split
      | (intro hk; (try dsimp only); repeat' first | exact hk | split)

  accept := fun _ _ _ f h => good_State_answerAccepted h f

theorem keeps_opTimerConfig : opTimerConfig.Keeps where
  run := by
    intro o q s f h
    unfold opTimerConfig
    dsimp only
    refine good_okay (good_modTime ?_ h)
    intro hk
    refine sound_Time_setTimer ?_ hk _
    exact timer_le hk (byteAt f.payload 0)
  accept := fun _ _ _ f h => good_State_answerAccepted h f

theorem keeps_opTimerStatus : opTimerStatus.Keeps where
  run := by
    intro o q s f h
    unfold opTimerStatus
    dsimp only
    repeat' first
      | with_reducible assumption
      | with_reducible apply good_okayWith
      | with_reducible refine good_okayWith_eq (by assumption) ?_
      | (with_reducible apply good_foldl; intro _ _ _)
      | dsimp only
      | split
      | (intro hk; (try dsimp only); repeat' first | exact hk | split)

  accept := fun _ _ _ f h => good_State_answerAccepted h f

theorem keeps_opTimerCaptures : opTimerCaptures.Keeps where
  run := by
    intro o q s f h
    unfold opTimerCaptures
    dsimp only
    refine good_okayWith (good_modTime ?_ h) _
    exact fun hk => sound_Time_setTimer (by simp) hk _
  accept := fun _ _ _ f h => good_State_answerAccepted h f

theorem keeps_opTimeRead : opTimeRead.Keeps where
  run := by
    intro o q s f h
    unfold opTimeRead
    dsimp only
    repeat' first
      | with_reducible assumption
      | with_reducible apply good_okayWith
      | with_reducible refine good_okayWith_eq (by assumption) ?_
      | (with_reducible apply good_foldl; intro _ _ _)
      | dsimp only
      | split
      | (intro hk; (try dsimp only); repeat' first | exact hk | split)

  accept := fun _ _ _ f h => good_State_answerAccepted h f

theorem keeps_opMemiConfig : opMemiConfig.Keeps where
  run := by
    intro o q s f h
    unfold opMemiConfig
    dsimp only
    repeat' first
      | with_reducible assumption
      | with_reducible apply good_okay
      | with_reducible refine good_okay_eq (by assumption) ?_
      | with_reducible apply good_modMemi
      | (with_reducible apply good_foldl; intro _ _ _)
      | dsimp only
      | split
      | (intro hk; (try dsimp only); repeat' first | exact hk | with_reducible apply sound_Memi_config | split | exact ⟨by first | exact hk.rams | simpa using hk.rams | simpa using h.inv.memi.rams, by first | exact hk.drip | simpa using hk.drip | simpa using h.inv.memi.drip⟩)

  accept := fun _ _ _ f h => good_State_answerAccepted h f

theorem keeps_opMemiRead : opMemiRead.Keeps where
  run := by
    intro o q s f h
    unfold opMemiRead
    dsimp only
    repeat' first
      | with_reducible assumption
      | with_reducible apply good_okayWith
      | with_reducible refine good_okayWith_eq (by assumption) ?_
      | (with_reducible apply good_foldl; intro _ _ _)
      | dsimp only
      | split
      | (intro hk; (try dsimp only); repeat' first | exact hk | split)

  accept := fun _ _ _ f h => good_State_answerAccepted h f

theorem keeps_opMemiInject : opMemiInject.Keeps where
  run := by
    intro o q s f h
    unfold opMemiInject
    dsimp only
    repeat' first
      | with_reducible assumption
      | with_reducible apply good_okay
      | with_reducible refine good_okay_eq (by assumption) ?_
      | with_reducible apply good_modMemi
      | (with_reducible apply good_foldl; intro _ _ _)
      | dsimp only
      | split
      | (intro hk; (try dsimp only); repeat' first | exact hk | split | exact ⟨by first | exact hk.rams | simpa using hk.rams | simpa using h.inv.memi.rams, by first | exact hk.drip | simpa using hk.drip | simpa using h.inv.memi.drip⟩)

  accept := fun _ _ _ f h => good_State_answerAccepted h f

theorem keeps_opClaspConfig : opClaspConfig.Keeps where
  run := by
    intro o q s f h
    unfold opClaspConfig
    dsimp only
    repeat' first
      | with_reducible assumption
      | with_reducible apply good_okay
      | with_reducible refine good_okay_eq (by assumption) ?_
      | with_reducible apply good_State_loadPort
      | (with_reducible apply good_foldl; intro _ _ _)
      | dsimp only
      | split
      | (intro hk; (try dsimp only); repeat' first | exact hk | split)

  accept := fun _ _ _ f h => good_State_answerAccepted h f

theorem keeps_opClaspStatus : opClaspStatus.Keeps where
  run := by
    intro o q s f h
    unfold opClaspStatus
    dsimp only
    repeat' first
      | with_reducible assumption
      | with_reducible apply good_okayWith
      | with_reducible refine good_okayWith_eq (by assumption) ?_
      | (with_reducible apply good_foldl; intro _ _ _)
      | dsimp only
      | split
      | (intro hk; (try dsimp only); repeat' first | exact hk | split)

  accept := fun _ _ _ f h => good_State_answerAccepted h f

theorem keeps_opClaspRequest : opClaspRequest.Keeps where
  run := by
    intro o q s f h
    unfold opClaspRequest
    dsimp only
    repeat' first
      | with_reducible assumption
      | with_reducible apply good_okay
      | with_reducible refine good_okay_eq (by assumption) ?_
      | with_reducible apply good_State_sendRequest
      | with_reducible apply good_State_modPort
      | (with_reducible apply good_foldl; intro _ _ _)
      | dsimp only
      | split
      | (intro hk; (try dsimp only); repeat' first | exact hk | split)

  accept := fun _ _ _ f h => good_State_answerAccepted h f

theorem keeps_opClaspSwapJs : opClaspSwapJs.Keeps where
  run := by
    intro o q s f h
    unfold opClaspSwapJs
    dsimp only
    repeat' first
      | with_reducible assumption
      | with_reducible apply good_okay
      | with_reducible refine good_okay_eq (by assumption) ?_
      | with_reducible apply good_State_modPort
      | with_reducible apply good_State_portSend
      | (with_reducible apply good_foldl; intro _ _ _)
      | dsimp only
      | split
      | (intro hk; (try dsimp only); repeat' first | exact hk | split)

  accept := fun _ _ _ f h => good_State_answerAccepted h f

theorem keeps_opClaspHold : opClaspHold.Keeps where
  run := by
    intro o q s f h
    unfold opClaspHold
    dsimp only
    repeat' first
      | with_reducible assumption
      | with_reducible apply good_okay
      | with_reducible refine good_okay_eq (by assumption) ?_
      | with_reducible apply good_State_sendHold
      | (with_reducible apply good_foldl; intro _ _ _)
      | dsimp only
      | split
      | (intro hk; (try dsimp only); repeat' first | exact hk | split)

  accept := fun _ _ _ f h => good_State_answerAccepted h f

theorem keeps_opClaspDetach : opClaspDetach.Keeps where
  run := by
    intro o q s f h
    unfold opClaspDetach
    dsimp only
    repeat' first
      | with_reducible assumption
      | with_reducible apply good_okay
      | with_reducible refine good_okay_eq (by assumption) ?_
      | with_reducible apply good_State_portDetach
      | (with_reducible apply good_foldl; intro _ _ _)
      | dsimp only
      | split
      | (intro hk; (try dsimp only); repeat' first | exact hk | split)

  accept := fun _ _ _ f h => good_State_answerAccepted h f

theorem keeps_opCertLoad : opCertLoad.Keeps where
  run := fun _ _ _ f h => good_runCertLoad h f
  accept := by
    intro o q s f h
    unfold opCertLoad
    dsimp only
    refine good_modGeode (good_modFlight_field ?_ h)
    exact fun _ => ⟨rfl, id⟩

theorem keeps_opCertRead : opCertRead.Keeps where
  run := by
    intro o q s f h
    unfold opCertRead
    dsimp only
    repeat' first
      | with_reducible assumption
      | with_reducible apply good_okayWith
      | with_reducible refine good_okayWith_eq (by assumption) ?_
      | with_reducible apply good_answer
      | with_reducible refine good_answer_eq (by assumption) ?_
      | (with_reducible apply good_foldl; intro _ _ _)
      | dsimp only
      | split
      | (intro hk; (try dsimp only); repeat' first | exact hk | split)

  accept := fun _ _ _ f h => good_State_answerAccepted h f

theorem keeps_opFenceStatus : opFenceStatus.Keeps where
  run := by
    intro o q s f h
    unfold opFenceStatus
    dsimp only
    repeat' first
      | with_reducible assumption
      | with_reducible apply good_okayWith
      | with_reducible refine good_okayWith_eq (by assumption) ?_
      | with_reducible apply good_modGeode
      | (with_reducible apply good_foldl; intro _ _ _)
      | dsimp only
      | split
      | (intro hk; (try dsimp only); repeat' first | exact hk | split)

  accept := fun _ _ _ f h => good_State_answerAccepted h f

theorem keeps_opFwUpdateBegin : opFwUpdateBegin.Keeps where
  run := by
    intro o q s f h
    unfold opFwUpdateBegin
    dsimp only
    split
    · exact good_okayWith h _
    · refine good_okayWith (good_modFlash ?_ (good_State_newSession h)) _
      exact fun hk => ⟨(sound_Flash_setSlot hk _ _).staging⟩
  accept := fun _ _ _ f h => good_State_answerAccepted h f

theorem keeps_opFwUpdateChunk : opFwUpdateChunk.Keeps where
  run := by
    intro o q s f h
    unfold opFwUpdateChunk
    dsimp only
    split
    · exact good_later (good_modFlash (fun hk => ⟨(sound_Flash_setSlot hk _ _).staging⟩) h)
    · exact good_answer h _
  accept := fun _ _ _ f h => good_State_answerAccepted h f

theorem keeps_opFwUpdateFinish : opFwUpdateFinish.Keeps where
  run := by
    intro o q s f h
    unfold opFwUpdateFinish
    dsimp only
    repeat' first
      | with_reducible assumption
      | with_reducible apply good_later
      | with_reducible refine good_later_eq (by assumption) ?_
      | with_reducible apply good_modGeode
      | (with_reducible apply good_foldl; intro _ _ _)
      | dsimp only
      | split
      | (intro hk; (try dsimp only); repeat' first | exact hk | split)

  accept := fun _ _ _ f h => good_State_answerAccepted h f

theorem keeps_opFwUpdateAbort : opFwUpdateAbort.Keeps where
  run := by
    intro o q s f h
    unfold opFwUpdateAbort
    dsimp only
    repeat' first
      | with_reducible assumption
      | with_reducible apply good_okay
      | with_reducible refine good_okay_eq (by assumption) ?_
      | with_reducible apply good_modFlash
      | (with_reducible apply good_foldl; intro _ _ _)
      | dsimp only
      | split
      | (intro hk; (try dsimp only); repeat' first | exact hk | split | exact ⟨by first | exact hk.staging | simpa using hk.staging | simpa using h.inv.flash.staging⟩)

  accept := fun _ _ _ f h => good_State_answerAccepted h f

theorem keeps_opFwActivate : opFwActivate.Keeps where
  run := by
    intro o q s f h
    unfold opFwActivate
    dsimp only
    repeat' first
      | with_reducible assumption
      | with_reducible apply good_later
      | with_reducible refine good_later_eq (by assumption) ?_
      | with_reducible apply good_State_activate
      | with_reducible apply good_State_dropFlight
      | with_reducible apply good_okay
      | with_reducible refine good_okay_eq (by assumption) ?_
      | (with_reducible apply good_foldl; intro _ _ _)
      | dsimp only
      | split
      | (intro hk; (try dsimp only); repeat' first | exact hk | split)

  accept := fun _ _ _ f h => good_State_answerAccepted h f

theorem keeps_opFwConfirm : opFwConfirm.Keeps where
  run := by
    intro o q s f h
    unfold opFwConfirm
    dsimp only
    repeat' first
      | with_reducible assumption
      | with_reducible apply good_okay
      | with_reducible refine good_okay_eq (by assumption) ?_
      | with_reducible apply good_State_confirm
      | with_reducible apply good_later
      | with_reducible refine good_later_eq (by assumption) ?_
      | with_reducible apply good_modFlash
      | (with_reducible apply good_foldl; intro _ _ _)
      | dsimp only
      | split
      | (intro hk; (try dsimp only); repeat' first | exact hk | split | exact ⟨by first | exact hk.staging | simpa using hk.staging | simpa using h.inv.flash.staging⟩)

  accept := fun _ _ _ f h => good_State_answerAccepted h f

theorem keeps_opLcStatus : opLcStatus.Keeps where
  run := by
    intro o q s f h
    unfold opLcStatus
    dsimp only
    repeat' first
      | with_reducible assumption
      | with_reducible apply good_okayWith
      | with_reducible refine good_okayWith_eq (by assumption) ?_
      | (with_reducible apply good_foldl; intro _ _ _)
      | dsimp only
      | split
      | (intro hk; (try dsimp only); repeat' first | exact hk | split)

  accept := fun _ _ _ f h => good_State_answerAccepted h f

theorem keeps_opLcAdvance : opLcAdvance.Keeps where
  run := by
    intro o q s f h
    unfold opLcAdvance
    dsimp only
    refine good_okay (good_modGeode (good_flashOp (good_modOtp ?_ h)))
    exact { Otp.Keeps.refl s.otp with lc := Triple.keeps_program _ _ }
  accept := fun _ _ _ f h => good_State_answerAccepted h f

theorem keeps_opKeyProgram : opKeyProgram.Keeps where
  run := by
    intro o q s f h
    unfold opKeyProgram
    dsimp only
    repeat' first
      | with_reducible assumption
      | with_reducible apply good_startOtp
      | with_reducible refine good_startOtp_eq (by assumption) ?_
      | (with_reducible apply good_foldl; intro _ _ _)
      | dsimp only
      | split
      | (intro hk; (try dsimp only); repeat' first | exact hk | split)

  accept := fun _ _ _ f h => good_State_answerAccepted h f

theorem keeps_opKeyRevoke : opKeyRevoke.Keeps where
  run := by
    intro o q s f h
    unfold opKeyRevoke
    dsimp only
    repeat' first
      | with_reducible assumption
      | with_reducible apply good_startOtp
      | with_reducible refine good_startOtp_eq (by assumption) ?_
      | (with_reducible apply good_foldl; intro _ _ _)
      | dsimp only
      | split
      | (intro hk; (try dsimp only); repeat' first | exact hk | split)

  accept := fun _ _ _ f h => good_State_answerAccepted h f

theorem keeps_opOtpOption : opOtpOption.Keeps where
  run := by
    intro o q s f h
    unfold opOtpOption
    dsimp only
    repeat' first
      | with_reducible assumption
      | with_reducible apply good_startOtp
      | with_reducible refine good_startOtp_eq (by assumption) ?_
      | (with_reducible apply good_foldl; intro _ _ _)
      | dsimp only
      | split
      | (intro hk; (try dsimp only); repeat' first | exact hk | split)

  accept := fun _ _ _ f h => good_State_answerAccepted h f

theorem keeps_opKeyStatusRead : opKeyStatusRead.Keeps where
  run := by
    intro o q s f h
    unfold opKeyStatusRead
    dsimp only
    repeat' first
      | with_reducible assumption
      | with_reducible apply good_okayWith
      | with_reducible refine good_okayWith_eq (by assumption) ?_
      | (with_reducible apply good_foldl; intro _ _ _)
      | dsimp only
      | split
      | (intro hk; (try dsimp only); repeat' first | exact hk | split)

  accept := fun _ _ _ f h => good_State_answerAccepted h f

theorem keeps_opEcho : opEcho.Keeps where
  run := by
    intro o q s f h
    unfold opEcho
    dsimp only
    repeat' first
      | with_reducible assumption
      | with_reducible apply good_okayWith
      | with_reducible refine good_okayWith_eq (by assumption) ?_
      | (with_reducible apply good_foldl; intro _ _ _)
      | dsimp only
      | split
      | (intro hk; (try dsimp only); repeat' first | exact hk | split)

  accept := fun _ _ _ f h => good_State_answerAccepted h f

theorem keeps_opDieInfo : opDieInfo.Keeps where
  run := by
    intro o q s f h
    unfold opDieInfo
    dsimp only
    repeat' first
      | with_reducible assumption
      | with_reducible apply good_okayWith
      | with_reducible refine good_okayWith_eq (by assumption) ?_
      | (with_reducible apply good_foldl; intro _ _ _)
      | dsimp only
      | split
      | (intro hk; (try dsimp only); repeat' first | exact hk | split)

  accept := fun _ _ _ f h => good_State_answerAccepted h f

theorem keeps_opCancel : opCancel.Keeps where
  run := by
    intro o q s f h
    unfold opCancel
    dsimp only
    repeat' first
      | with_reducible assumption
      | with_reducible apply good_runCancel
      | with_reducible refine good_runCancel_eq (by assumption) ?_
      | (with_reducible apply good_foldl; intro _ _ _)
      | dsimp only
      | split
      | (intro hk; (try dsimp only); repeat' first | exact hk | split)

  accept := fun _ _ _ f h => good_State_answerAccepted h f

theorem keeps_opEventRoute : opEventRoute.Keeps where
  run := by
    intro o q s f h
    unfold opEventRoute
    dsimp only
    refine good_okay (good_modCmd ?_ h)
    exact fun hk => { hk with routes := by rw [length_setAt]; exact hk.routes }
  accept := fun _ _ _ f h => good_State_answerAccepted h f

theorem keeps_opCanConfig : opCanConfig.Keeps where
  run := by
    intro o q s f h
    unfold opCanConfig
    dsimp only
    repeat' first
      | with_reducible assumption
      | with_reducible apply good_okay
      | with_reducible refine good_okay_eq (by assumption) ?_
      | with_reducible apply good_State_canConfigure
      | (with_reducible apply good_foldl; intro _ _ _)
      | dsimp only
      | split
      | (intro hk; (try dsimp only); repeat' first | exact hk | split)

  accept := fun _ _ _ f h => good_State_answerAccepted h f

theorem keeps_opCmdStats : opCmdStats.Keeps where
  run := by
    intro o q s f h
    unfold opCmdStats
    dsimp only
    repeat' first
      | with_reducible assumption
      | with_reducible apply good_okayWith
      | with_reducible refine good_okayWith_eq (by assumption) ?_
      | with_reducible apply good_modCmd
      | (with_reducible apply good_foldl; intro _ _ _)
      | dsimp only
      | split
      | (intro hk; (try dsimp only); repeat' first | exact hk | with_reducible apply sound_clearErrors | split | exact sound_filterFlights hk | exact sound_dropFlight hk | exact hk.of_eq rfl rfl rfl rfl rfl rfl rfl)

  accept := fun _ _ _ f h => good_State_answerAccepted h f

theorem keeps_opJournalWrite : opJournalWrite.Keeps where
  run := by
    intro o q s f h
    unfold opJournalWrite
    dsimp only
    refine good_okay (good_modFlash ?_ h)
    exact fun hk => ⟨Memory.wf_store hk.staging _ _⟩
  accept := fun _ _ _ f h => good_State_answerAccepted h f

theorem keeps_opJournalCommit : opJournalCommit.Keeps where
  run := by
    intro o q s f h
    unfold opJournalCommit
    dsimp only
    repeat' first
      | with_reducible assumption
      | with_reducible apply good_later
      | with_reducible refine good_later_eq (by assumption) ?_
      | with_reducible apply good_modFlash
      | (with_reducible apply good_foldl; intro _ _ _)
      | dsimp only
      | split
      | (intro hk; (try dsimp only); repeat' first | exact hk | split | exact ⟨by first | exact hk.staging | simpa using hk.staging | simpa using h.inv.flash.staging⟩)

  accept := fun _ _ _ f h => good_State_answerAccepted h f

theorem keeps_opJournalRead : opJournalRead.Keeps where
  run := by
    intro o q s f h
    unfold opJournalRead
    dsimp only
    repeat' first
      | with_reducible assumption
      | with_reducible apply good_okayWith
      | with_reducible refine good_okayWith_eq (by assumption) ?_
      | with_reducible apply good_answer
      | with_reducible refine good_answer_eq (by assumption) ?_
      | (with_reducible apply good_foldl; intro _ _ _)
      | dsimp only
      | split
      | (intro hk; (try dsimp only); repeat' first | exact hk | split)

  accept := fun _ _ _ f h => good_State_answerAccepted h f

theorem keeps_opJournalRemove : opJournalRemove.Keeps where
  run := by
    intro o q s f h
    unfold opJournalRemove
    dsimp only
    repeat' first
      | with_reducible assumption
      | with_reducible apply good_later
      | with_reducible refine good_later_eq (by assumption) ?_
      | with_reducible apply good_modFlash
      | (with_reducible apply good_foldl; intro _ _ _)
      | dsimp only
      | split
      | (intro hk; (try dsimp only); repeat' first | exact hk | split | exact ⟨by first | exact hk.staging | simpa using hk.staging | simpa using h.inv.flash.staging⟩)

  accept := fun _ _ _ f h => good_State_answerAccepted h f

theorem keeps_opFlashStatus : opFlashStatus.Keeps where
  run := by
    intro o q s f h
    unfold opFlashStatus
    dsimp only
    repeat' first
      | with_reducible assumption
      | with_reducible apply good_okayWith
      | with_reducible refine good_okayWith_eq (by assumption) ?_
      | (with_reducible apply good_foldl; intro _ _ _)
      | dsimp only
      | split
      | (intro hk; (try dsimp only); repeat' first | exact hk | split)

  accept := fun _ _ _ f h => good_State_answerAccepted h f

theorem keeps_opEpochStatus : opEpochStatus.Keeps where
  run := by
    intro o q s f h
    unfold opEpochStatus
    dsimp only
    repeat' first
      | with_reducible assumption
      | with_reducible apply good_okayWith
      | with_reducible refine good_okayWith_eq (by assumption) ?_
      | (with_reducible apply good_foldl; intro _ _ _)
      | dsimp only
      | split
      | (intro hk; (try dsimp only); repeat' first | exact hk | split)

  accept := fun _ _ _ f h => good_State_answerAccepted h f

theorem keeps_opEpochSetLength : opEpochSetLength.Keeps where
  run := by
    intro o q s f h
    unfold opEpochSetLength
    dsimp only
    repeat' first
      | with_reducible assumption
      | with_reducible apply good_answer
      | with_reducible refine good_answer_eq (by assumption) ?_
      | with_reducible apply good_okay
      | with_reducible refine good_okay_eq (by assumption) ?_
      | with_reducible apply good_modTime
      | (with_reducible apply good_foldl; intro _ _ _)
      | dsimp only
      | split
      | (intro hk; (try dsimp only); repeat' first | exact hk | split | exact ⟨by first | exact hk.timers | simpa using hk.timers | simpa using h.inv.time.timers, by first | exact hk.captures | simpa using hk.captures | simpa using h.inv.time.captures, by first | exact hk.epoch | simpa using hk.epoch | simpa using h.inv.time.epoch⟩)

  accept := fun _ _ _ f h => good_State_answerAccepted h f

theorem keeps_ops00 : ∀ p ∈ ops00, p.Keeps := by
  intro p hp
  simp only [ops00, List.mem_cons, List.not_mem_nil, or_false] at hp
  rcases hp with rfl | rfl | rfl | rfl | rfl | rfl | rfl | rfl | rfl | rfl
  · exact keeps_opEcho
  · exact keeps_opDieInfo
  · exact keeps_opCancel
  · exact keeps_opEventRoute
  · exact keeps_opCanConfig
  · exact keeps_opCmdStats
  · exact keeps_opEnterStandby
  · exact keeps_opEnterHibernate
  · exact keeps_opSetWake
  · exact keeps_opSoftReset

theorem keeps_ops01 : ∀ p ∈ ops01, p.Keeps := by
  intro p hp
  simp only [ops01, List.mem_cons, List.not_mem_nil, or_false] at hp
  rcases hp with rfl | rfl
  · exact keeps_opEpochStatus
  · exact keeps_opEpochSetLength

theorem keeps_ops02 : ∀ p ∈ ops02, p.Keeps := by
  intro p hp
  simp only [ops02, List.mem_cons, List.not_mem_nil, or_false] at hp
  rcases hp with rfl | rfl | rfl | rfl | rfl | rfl | rfl | rfl | rfl | rfl | rfl
  · exact keeps_opLaneConfig
  · exact keeps_opLaneStart
  · exact keeps_opLaneStop
  · exact keeps_opSetLaneTarget
  · exact keeps_opSetLaneCoeffs
  · exact keeps_opSetLaneProfile
  · exact keeps_opSetBurst
  · exact keeps_opTuningControl
  · exact keeps_opLanePhaseLock
  · exact keeps_opLaneLegs
  · exact keeps_opLaneStatus

theorem keeps_ops03 : ∀ p ∈ ops03, p.Keeps := by
  intro p hp
  simp only [ops03, List.mem_cons, List.not_mem_nil, or_false] at hp
  rcases hp with rfl | rfl | rfl | rfl | rfl
  · exact keeps_opProtConfig
  · exact keeps_opProtClear
  · exact keeps_opProtLogRead
  · exact keeps_opEchoRead
  · exact keeps_opEchoClear

theorem keeps_ops04 : ∀ p ∈ ops04, p.Keeps := by
  intro p hp
  simp only [ops04, List.mem_cons, List.not_mem_nil, or_false] at hp
  rcases hp with rfl | rfl | rfl | rfl | rfl | rfl | rfl
  · exact keeps_opStrandConfig
  · exact keeps_opChargeStart
  · exact keeps_opChargeStop
  · exact keeps_opChargeEqualise
  · exact keeps_opStrandStatus
  · exact keeps_opBmsLimits
  · exact keeps_opStrandPlan

theorem keeps_ops05 : ∀ p ∈ ops05, p.Keeps := by
  intro p hp
  simp only [ops05, List.mem_cons, List.not_mem_nil, or_false] at hp
  rcases hp with rfl | rfl | rfl | rfl | rfl | rfl
  · exact keeps_opBezelConfig
  · exact keeps_opPathConfig
  · exact keeps_opSourceInhibit
  · exact keeps_opBezelClear
  · exact keeps_opPathStatus
  · exact keeps_opPeerPower

theorem keeps_ops06 : ∀ p ∈ ops06, p.Keeps := by
  intro p hp
  simp only [ops06, List.mem_cons, List.not_mem_nil, or_false] at hp
  rcases hp with rfl | rfl | rfl | rfl | rfl
  · exact keeps_opMeasTable
  · exact keeps_opMeasAccConfig
  · exact keeps_opMeasClear
  · exact keeps_opMeasSnapshotRead
  · exact keeps_opMeasTableStatus

theorem keeps_ops07 : ∀ p ∈ ops07, p.Keeps := by
  intro p hp
  simp only [ops07, List.mem_cons, List.not_mem_nil, or_false] at hp
  rcases hp with rfl | rfl | rfl
  · exact keeps_opThermConfig
  · exact keeps_opThermStatus
  · exact keeps_opThermPeakClear

theorem keeps_ops08 : ∀ p ∈ ops08, p.Keeps := by
  intro p hp
  simp only [ops08, List.mem_cons, List.not_mem_nil, or_false] at hp
  rcases hp with rfl | rfl | rfl | rfl | rfl
  · exact keeps_opChainStatus
  · exact keeps_opChainWorker
  · exact keeps_opChainEnumerate
  · exact keeps_opChainReset
  · exact keeps_opChainConfig

theorem keeps_ops09 : ∀ p ∈ ops09, p.Keeps := by
  intro p hp
  simp only [ops09, List.mem_cons, List.not_mem_nil, or_false] at hp
  rcases hp with rfl | rfl | rfl | rfl | rfl | rfl
  · exact keeps_opClaspConfig
  · exact keeps_opClaspStatus
  · exact keeps_opClaspRequest
  · exact keeps_opClaspSwapJs
  · exact keeps_opClaspHold
  · exact keeps_opClaspDetach

theorem keeps_ops0A : ∀ p ∈ ops0A, p.Keeps := by
  intro p hp
  simp only [ops0A, List.mem_cons, List.not_mem_nil, or_false] at hp
  rcases hp with rfl | rfl
  · exact keeps_opPendantConfig
  · exact keeps_opPendantStatus

theorem keeps_ops0B : ∀ p ∈ ops0B, p.Keeps := by
  intro p hp
  simp only [ops0B, List.mem_cons, List.not_mem_nil, or_false] at hp
  rcases hp with rfl | rfl | rfl | rfl
  · exact keeps_opTimerConfig
  · exact keeps_opTimerStatus
  · exact keeps_opTimerCaptures
  · exact keeps_opTimeRead

theorem keeps_ops0C : ∀ p ∈ ops0C, p.Keeps := by
  intro p hp
  simp only [ops0C, List.mem_cons, List.not_mem_nil, or_false] at hp
  rcases hp with rfl | rfl | rfl | rfl | rfl | rfl | rfl | rfl | rfl | rfl | rfl
  · exact keeps_opFlashStatus
  · exact keeps_opFwUpdateBegin
  · exact keeps_opFwUpdateChunk
  · exact keeps_opFwUpdateFinish
  · exact keeps_opFwActivate
  · exact keeps_opFwConfirm
  · exact keeps_opFwUpdateAbort
  · exact keeps_opJournalWrite
  · exact keeps_opJournalCommit
  · exact keeps_opJournalRead
  · exact keeps_opJournalRemove

theorem keeps_ops0D : ∀ p ∈ ops0D, p.Keeps := by
  intro p hp
  simp only [ops0D, List.mem_cons, List.not_mem_nil, or_false] at hp
  rcases hp with rfl | rfl | rfl | rfl | rfl | rfl | rfl | rfl | rfl
  · exact keeps_opLcStatus
  · exact keeps_opLcAdvance
  · exact keeps_opKeyProgram
  · exact keeps_opKeyRevoke
  · exact keeps_opKeyStatusRead
  · exact keeps_opCertLoad
  · exact keeps_opCertRead
  · exact keeps_opFenceStatus
  · exact keeps_opOtpOption

theorem keeps_ops0E : ∀ p ∈ ops0E, p.Keeps := by
  intro p hp
  simp only [ops0E, List.mem_cons, List.not_mem_nil, or_false] at hp
  rcases hp with rfl | rfl | rfl
  · exact keeps_opMemiConfig
  · exact keeps_opMemiRead
  · exact keeps_opMemiInject

/-- Every opcode keeps a good state. -/
theorem opSpec_keeps {c : Nat} {p : OpSpec} (e : opSpec c = some p) : p.Keeps := by
  have hp := List.mem_of_find?_eq_some e
  simp only [allOps, List.mem_append] at hp
  rcases hp with ((((((((((((((hp | hp) | hp) | hp) | hp) | hp) | hp) | hp) | hp) | hp) | hp) | hp) | hp) | hp) | hp)
  · exact keeps_ops00 p hp
  · exact keeps_ops01 p hp
  · exact keeps_ops02 p hp
  · exact keeps_ops03 p hp
  · exact keeps_ops04 p hp
  · exact keeps_ops05 p hp
  · exact keeps_ops06 p hp
  · exact keeps_ops07 p hp
  · exact keeps_ops08 p hp
  · exact keeps_ops09 p hp
  · exact keeps_ops0A p hp
  · exact keeps_ops0B p hp
  · exact keeps_ops0C p hp
  · exact keeps_ops0D p hp
  · exact keeps_ops0E p hp

/-! ### Opcodes -/

theorem good_State_executeFlight {o : Otp} {q : List Instr} {s : State} (h : Good o q s) : ∀ f, Good o q (State.executeFlight s f) := by
  intro f
  unfold State.executeFlight
  split
  · rename_i e
    exact good_OpSpec_execute (opSpec_keeps e) h f
  · exact good_State_finish h _ _

theorem good_State_runHeld {o : Otp} {q : List Instr} {s : State} (h : Good o q s) : Good o q (State.runHeld s) := by
  unfold State.runHeld
  repeat' first
    | with_reducible assumption
    | with_reducible apply good_State_executeFlight
    | (with_reducible refine good_modFlight_field (fun _ => by (repeat' split) <;> first | exact ⟨rfl, id⟩ | exact ⟨rfl, fun e => by simp [Flight.holds] at e ⊢; tauto⟩) ?_)
    | (with_reducible apply good_foldl; intro _ _ _)
    | dsimp only
    | split
    | (intro hk; (try dsimp only); repeat' first | exact hk | split)

/-! ### CommandEngine -/

theorem good_receiveUndefined {o : Otp} {q : List Instr} {s : State} (h : Good o q s) : ∀ a1 a2 a3, Good o q (receiveUndefined a1 a2 a3 s) := by
  intro a1 a2 a3
  unfold receiveUndefined
  repeat' first
    | with_reducible assumption
    | with_reducible apply good_modCmd
    | with_reducible apply good_State_refuse
    | (with_reducible apply good_foldl; intro _ _ _)
    | dsimp only
    | split
    | (intro hk; (try dsimp only); repeat' first | exact hk | with_reducible apply sound_takeInbound | split | exact sound_filterFlights hk | exact sound_dropFlight hk | exact hk.of_eq rfl rfl rfl rfl rfl rfl rfl)

theorem good_State_damagedUp {o : Otp} {q : List Instr} {s : State} (h : Good o q s) : ∀ a1 a2, Good o q (State.damagedUp s a1 a2) := by
  intro a1 a2
  unfold State.damagedUp
  repeat' first
    | with_reducible assumption
    | with_reducible apply good_State_sendUp
    | (with_reducible apply good_foldl; intro _ _ _)
    | dsimp only
    | split
    | (intro hk; (try dsimp only); repeat' first | exact hk | split)

theorem good_State_takePacket {o : Otp} {q : List Instr} {s : State} (h : Good o q s) : ∀ b, Good o q (State.takePacket s b) := by
  intro b
  unfold State.takePacket
  extract_lets x k
  clear_value x k
  split
  · exact h
  · split
    · refine good_modCmd ?_ h
      exact fun hk => sound_countFraming hk
    · split
      · exact good_State_damagedUp h _ _
      · split
        · refine good_modCmd ?_ (good_State_damagedUp h _ _)
          exact fun hk => hk.of_eq rfl rfl rfl rfl rfl rfl rfl
        · split
          · rename_i e
            exact good_receive (opSpec_keeps e) h _ _
          · exact good_receiveUndefined h _ _ _

theorem good_State_workerReply {o : Otp} {q : List Instr} {s : State} (h : Good o q s) : ∀ a1 a2 a3, Good o q (State.workerReply s a1 a2 a3) := by
  intro a1 a2 a3
  unfold State.workerReply
  repeat' first
    | with_reducible assumption
    | with_reducible apply good_State_dieAnswer
    | with_reducible apply good_State_planAnswered
    | (with_reducible refine good_modFlight_field (fun _ => by (repeat' split) <;> first | exact ⟨rfl, id⟩ | exact ⟨rfl, fun e => by simp [Flight.holds] at e ⊢; tauto⟩) ?_)
    | with_reducible apply good_State_sendBack
    | with_reducible apply good_State_dropFlight
    | (with_reducible apply good_foldl; intro _ _ _)
    | dsimp only
    | split
    | (intro hk; (try dsimp only); repeat' first | exact hk | split)

theorem good_State_workerEvent {o : Otp} {q : List Instr} {s : State} (h : Good o q s) : ∀ a1, Good o q (State.workerEvent s a1) := by
  intro a1
  unfold State.workerEvent
  repeat' first
    | with_reducible assumption
    | with_reducible apply good_State_deliver
    | (with_reducible apply good_foldl; intro _ _ _)
    | dsimp only
    | split
    | (intro hk; (try dsimp only); repeat' first | exact hk | split)

theorem good_State_completeAccess {o : Otp} {q : List Instr} {s : State} (h : Good o q s) : ∀ x, Good o q (State.completeAccess s x) := by
  intro x
  unfold State.completeAccess
  split
  · exact good_State_readReg h _ _
  · split
    · exact good_State_refuseWrite h
    · exact good_getD (fun t e => good_State_writeReg e h) (good_State_refuseWrite h)

theorem good_State_unstall {o : Otp} {q : List Instr} {s : State} (h : Good o q s) : Good o q (State.unstall s) := by
  unfold State.unstall
  repeat' first
    | with_reducible assumption
    | with_reducible apply good_modGeode
    | with_reducible apply good_State_runHeld
    | (with_reducible apply good_foldl; intro _ _ _)
    | dsimp only
    | split
    | (intro hk; (try dsimp only); repeat' first | exact hk | split)

/-! ### Clock -/

theorem sound_Sys_cross {x : Sys} (h : x.Sound) : ∀ a1, (Sys.cross x a1).Sound := by
  intro a1
  unfold Sys.cross
  repeat' first | exact h | dsimp only | split | exact ⟨by first | exact h.ready | simpa using h.ready⟩

theorem good_State_linkAdvance {o : Otp} {q : List Instr} {s : State} (h : Good o q s) : ∀ a1, Good o q (State.linkAdvance s a1) := by
  intro a1
  unfold State.linkAdvance
  repeat' first
    | with_reducible assumption
    | with_reducible apply good_modSlolos
    | (with_reducible apply good_foldl; intro _ _ _)
    | dsimp only
    | split
    | (intro hk; (try dsimp only); repeat' first | exact hk | with_reducible apply sound_Slolos_transmit | with_reducible apply sound_Slolos_passBurst | split | exact ⟨by first | exact hk.ctxs | simpa using hk.ctxs | simpa using h.inv.slolos.ctxs, by first | exact hk.marker | simpa using hk.marker | simpa using h.inv.slolos.marker⟩)

theorem good_State_pass {o : Otp} {q : List Instr} {s : State} (h : Good o q s) : ∀ a1 a2, Good o q (State.pass s a1 a2) := by
  intro a1 a2
  unfold State.pass
  repeat' first
    | with_reducible assumption
    | with_reducible apply good_modSys
    | with_reducible apply good_State_repliesGone
    | with_reducible apply good_State_linkAdvance
    | with_reducible apply good_State_memiAdvance
    | with_reducible apply good_State_wdgAdvance
    | with_reducible apply good_State_timerWake
    | with_reducible apply good_modTime
    | (with_reducible apply good_foldl; intro _ _ _)
    | dsimp only
    | split
    | (intro hk; (try dsimp only); repeat' first | exact hk | with_reducible apply sound_Time_forward | with_reducible apply sound_Sys_cross | split | exact ⟨by first | exact hk.ready | simpa using hk.ready | simpa using h.inv.sys.ready⟩ | exact ⟨by first | exact hk.timers | simpa using hk.timers | simpa using h.inv.time.timers, by first | exact hk.captures | simpa using hk.captures | simpa using h.inv.time.captures, by first | exact hk.epoch | simpa using hk.epoch | simpa using h.inv.time.epoch⟩)

theorem good_State_wakeCount {o : Otp} {q : List Instr} {s : State} (h : Good o q s) : Good o q (State.wakeCount s) := by
  unfold State.wakeCount
  repeat' first
    | with_reducible assumption
    | with_reducible apply good_modSys
    | (with_reducible apply good_foldl; intro _ _ _)
    | dsimp only
    | split
    | (intro hk; (try dsimp only); repeat' first | exact hk | split | exact ⟨by first | exact hk.ready | simpa using hk.ready | simpa using h.inv.sys.ready⟩)

theorem good_State_sleepTick {o : Otp} {q : List Instr} {s : State} (h : Good o q s) : Good o q (State.sleepTick s) := by
  unfold State.sleepTick
  repeat' first
    | with_reducible assumption
    | with_reducible apply good_State_wakeCount
    | with_reducible apply good_modTime
    | with_reducible apply good_State_pass
    | with_reducible apply good_State_wdgAdvance
    | (with_reducible apply good_foldl; intro _ _ _)
    | dsimp only
    | split
    | (intro hk; (try dsimp only); repeat' first | exact hk | with_reducible apply sound_Time_wrap | split | exact ⟨by first | exact hk.timers | simpa using hk.timers | simpa using h.inv.time.timers, by first | exact hk.captures | simpa using hk.captures | simpa using h.inv.time.captures, by first | exact hk.epoch | simpa using hk.epoch | simpa using h.inv.time.epoch⟩)

theorem good_State_idle {o : Otp} {q : List Instr} {s : State} (h : Good o q s) : Good o q (State.idle s) := by
  unfold State.idle
  repeat' first
    | with_reducible assumption
    | with_reducible apply good_State_sleepTick
    | with_reducible apply good_State_wdgAdvance
    | with_reducible apply good_State_pass
    | (with_reducible apply good_foldl; intro _ _ _)
    | dsimp only
    | split
    | (intro hk; (try dsimp only); repeat' first | exact hk | split)

/-! ### Epoch -/

theorem good_State_flushDue {o : Otp} {q : List Instr} {s : State} (h : Good o q s) : Good o q (State.flushDue s) := by
  unfold State.flushDue
  repeat' first
    | with_reducible assumption
    | with_reducible apply good_State_event
    | with_reducible apply good_modCmd
    | (with_reducible apply good_foldl; intro _ _ _)
    | dsimp only
    | split
    | (intro hk; (try dsimp only); repeat' first | exact hk | split | exact sound_filterFlights hk | exact sound_dropFlight hk | exact hk.of_eq rfl rfl rfl rfl rfl rfl rfl)

theorem good_State_closeEpoch {o : Otp} {q : List Instr} {s : State} (h : Good o q s) : ∀ e, Good o q (State.closeEpoch s e) := by
  intro e
  unfold State.closeEpoch
  extract_lets s1
  have h1 : Good o q s1 := good_State_freezeReports (good_State_saturatedEvents (good_State_dripEvents
    (good_State_timerEvents (good_State_fenceEvent (good_State_flushDue h) _) _) _) _)
  clear_value s1
  refine good_State_closeLanes (good_modMeas ?_ h1)
  exact fun hk => sound_Meas_freeze hk _

theorem good_State_overrunEvents {o : Otp} {q : List Instr} {s : State} (h : Good o q s) : Good o q (State.overrunEvents s) := by
  unfold State.overrunEvents
  repeat' first
    | with_reducible assumption
    | with_reducible apply good_modTime
    | with_reducible apply good_State_event
    | (with_reducible apply good_foldl; intro _ _ _)
    | dsimp only
    | split
    | (intro hk; (try dsimp only); repeat' first | exact hk | split | exact ⟨by first | exact hk.timers | simpa using hk.timers | simpa using h.inv.time.timers, by first | exact hk.captures | simpa using hk.captures | simpa using h.inv.time.captures, by first | exact hk.epoch | simpa using hk.epoch | simpa using h.inv.time.epoch⟩)

theorem good_State_promiseEvent {o : Otp} {q : List Instr} {s : State} (h : Good o q s) : ∀ a1 a2, Good o q (State.promiseEvent s a1 a2) := by
  intro a1 a2
  unfold State.promiseEvent
  repeat' first
    | with_reducible assumption
    | with_reducible apply good_State_event
    | (with_reducible apply good_foldl; intro _ _ _)
    | dsimp only
    | split
    | (intro hk; (try dsimp only); repeat' first | exact hk | split)

theorem good_State_openEpoch {o : Otp} {q : List Instr} {s : State} {e : Nat} (he : e < 2 ^ 32) (h : Good o q s) :
    ∀ l, Good o q (State.openEpoch s e l) := by
  intro l
  unfold State.openEpoch
  refine good_modTime ?_ h
  exact fun hk => ⟨hk.timers, hk.captures, he⟩

theorem good_State_enterInputs {o : Otp} {q : List Instr} {s : State} (h : Good o q s) : Good o q (State.enterInputs s) := by
  unfold State.enterInputs
  repeat' first
    | with_reducible assumption
    | with_reducible apply good_modPath
    | with_reducible apply good_State_qualifyTick
    | with_reducible apply good_State_enterPeer
    | with_reducible apply good_State_enterLimits
    | with_reducible apply good_modTherm
    | with_reducible apply good_modProt
    | with_reducible apply good_modMeas
    | (with_reducible apply good_foldl; intro _ _ _)
    | dsimp only
    | split
    | (intro hk; (try dsimp only); repeat' first | exact hk | with_reducible apply sound_Path_prechargeTick | with_reducible apply sound_Path_epoch | with_reducible apply sound_Prot_closeEcho | with_reducible apply sound_Therm_freeze | split | exact ⟨by first | exact hk.echo | simpa using hk.echo | simpa using h.inv.prot.echo, by first | exact hk.crowbars | simpa using hk.crowbars | simpa using h.inv.prot.crowbars⟩ | exact ⟨by first | exact hk.chans | simpa using hk.chans | simpa using h.inv.path.chans, by first | exact hk.shares | simpa using hk.shares | simpa using h.inv.path.shares⟩ | exact ⟨by first | exact hk.adcs | simpa using hk.adcs | simpa using h.inv.meas.adcs, by first | exact hk.accs | simpa using hk.accs | simpa using h.inv.meas.accs, by first | exact hk.trks | simpa using hk.trks | simpa using h.inv.meas.trks⟩ | exact ⟨by first | exact hk.ext | simpa using hk.ext | simpa using h.inv.therm.ext, by first | exact hk.batt | simpa using hk.batt | simpa using h.inv.therm.batt⟩)

theorem good_State_dropUnverified {o : Otp} {q : List Instr} {s : State} (h : Good o q s) : ∀ a1, Good o q (State.dropUnverified s a1) := by
  intro a1
  unfold State.dropUnverified
  repeat' first
    | with_reducible assumption
    | with_reducible apply good_State_finishKey
    | with_reducible apply good_modGeode
    | (with_reducible apply good_foldl; intro _ _ _)
    | dsimp only
    | split
    | (intro hk; (try dsimp only); repeat' first | exact hk | split)

theorem good_State_applyCommands {o : Otp} {q : List Instr} {s : State} (h : Good o q s) : ∀ a1, Good o q (State.applyCommands s a1) := by
  intro a1
  unfold State.applyCommands
  repeat' first
    | with_reducible assumption
    | with_reducible apply good_State_executeFlight
    | (with_reducible refine good_modFlight_field (fun _ => by (repeat' split) <;> first | exact ⟨rfl, id⟩ | exact ⟨rfl, fun e => by simp [Flight.holds] at e ⊢; tauto⟩) ?_)
    | (with_reducible apply good_foldl; intro _ _ _)
    | dsimp only
    | split
    | (intro hk; (try dsimp only); repeat' first | exact hk | split)

theorem good_State_applyConsequences {o : Otp} {q : List Instr} {s : State} (h : Good o q s) : ∀ l,
    Good o q (State.applyConsequences s l) := by
  intro l
  unfold State.applyConsequences
  refine good_State_retries (good_foldl ?_ h)
  exact fun _ x g => good_State_consequence g x

theorem good_State_applyPolicy {o : Otp} {q : List Instr} {s : State} (h : Good o q s) : ∀ a1 a2 a3, Good o q (State.applyPolicy s a1 a2 a3) := by
  intro a1 a2 a3
  unfold State.applyPolicy
  repeat' first
    | with_reducible assumption
    | with_reducible apply good_State_dropMachines
    | with_reducible apply good_State_applyMachines
    | with_reducible apply good_State_tuneLanes
    | with_reducible apply good_State_autoStart
    | with_reducible apply good_State_applyPlans
    | (with_reducible apply good_foldl; intro _ _ _)
    | dsimp only
    | split
    | (intro hk; (try dsimp only); repeat' first | exact hk | split)

theorem good_State_applyShares {o : Otp} {q : List Instr} {s : State} (h : Good o q s) : Good o q (State.applyShares s) := by
  unfold State.applyShares
  repeat' first
    | with_reducible assumption
    | with_reducible apply good_State_applyAllotment
    | with_reducible apply good_State_applyDecided
    | (with_reducible apply good_foldl; intro _ _ _)
    | dsimp only
    | split
    | (intro hk; (try dsimp only); repeat' first | exact hk | split)

theorem good_State_applyDecisions {o : Otp} {q : List Instr} {s : State} (h : Good o q s) (late : Bool) (old : List ChargePhase)
    (l : List Report) : Good o q (State.applyDecisions s late old l) := by
  unfold State.applyDecisions
  extract_lets s1
  have h1 : Good o q s1 := by
    unfold s1
    split
    · exact good_State_applyShares (good_State_applyPolicy h _ _ _)
    · split
      · exact good_State_applyAllotment h
      · exact h
  clear_value s1
  have h2 := good_State_freezePath (good_State_samplePendant (good_State_decideHolder h1))
  have h3 := good_State_claspBoundary h2 s1.path.holder
  exact good_State_showStrands (good_State_checkLocks h3)

theorem good_State_tuningBit {o : Otp} {q : List Instr} {s : State} (h : Good o q s) : Good o q (State.tuningBit s) := by
  unfold State.tuningBit
  repeat' first
    | with_reducible assumption
    | with_reducible apply good_modTime
    | (with_reducible apply good_foldl; intro _ _ _)
    | dsimp only
    | split
    | (intro hk; (try dsimp only); repeat' first | exact hk | split | exact ⟨by first | exact hk.timers | simpa using hk.timers | simpa using h.inv.time.timers, by first | exact hk.captures | simpa using hk.captures | simpa using h.inv.time.captures, by first | exact hk.epoch | simpa using hk.epoch | simpa using h.inv.time.epoch⟩)

theorem good_State_startTables {o : Otp} {q : List Instr} {s : State} (h : Good o q s) : ∀ a1, Good o q (State.startTables s a1) := by
  intro a1
  unfold State.startTables
  repeat' first
    | with_reducible assumption
    | with_reducible apply good_modMeas
    | (with_reducible apply good_foldl; intro _ _ _)
    | dsimp only
    | split
    | (intro hk; (try dsimp only); repeat' first | exact hk | with_reducible apply sound_Meas_stopTables | with_reducible apply sound_Meas_startTables | split | exact ⟨by first | exact hk.adcs | simpa using hk.adcs | simpa using h.inv.meas.adcs, by first | exact hk.accs | simpa using hk.accs | simpa using h.inv.meas.accs, by first | exact hk.trks | simpa using hk.trks | simpa using h.inv.meas.trks⟩)

theorem good_State_boundary {o : Otp} {q : List Instr} {s : State} {e : Nat} (he : e < 2 ^ 32) (h : Good o q s) :
    ∀ l, Good o q (State.boundary s e l) := by
  intro l
  unfold State.boundary
  extract_lets closing late old reports before lost low s1 s2 s3 s4 s5
  have h1 : Good o q s1 :=
    good_State_dropUnverified (good_State_enterInputs (good_State_closeEpoch (good_State_openEpoch he (good_State_enterDrops h) _) _)) _
  clear_value s1
  have h2 : Good o q s2 := good_State_applyCommands (good_State_endWaiting h1 _ _) _
  clear_value s2
  have h3 : Good o q s3 := by
    have g := good_State_applyConsequences (good_State_evalThermal h2) reports
    exact good_State_applyDecisions g _ _ _
  clear_value s3
  have h4 : Good o q s4 := good_State_echoEvents (good_State_phaseEvents (good_State_startTables (good_State_tuningBit h3) _) _)
  clear_value s4
  have h5 : Good o q s5 := by
    have g := good_State_promiseEvent (good_State_overrunEvents h4) lost before
    exact good_State_cutOffBz4 (good_State_chainBoundary g)
  clear_value s5
  exact good_State_enterLowPower (good_State_sendPeer h5)

theorem good_State_countEpoch {o : Otp} {q : List Instr} {s : State} {e : Nat} (he : e < 2 ^ 32) (h : Good o q s) (l : Option Nat) :
    Good o q (State.countEpoch s e l) := by
  unfold State.countEpoch
  have h1 := good_State_openEpoch he h l
  have h2 := good_State_promiseEvent h1 (s.domainWord e) s.time.domain
  exact good_State_chainBoundary (good_State_endPast h2)

theorem good_State_reach {o : Otp} {q : List Instr} {s : State} {e : Nat} (he : e < 2 ^ 32) (h : Good o q s) (l : Option Nat) :
    Good o q (State.reach s e l) := by
  unfold State.reach
  split
  · exact good_State_countEpoch he h l
  · exact good_State_boundary he h l

end Sys2Proof.Machine
end

