-- ==== Sys2Proof/Laws/SoundExec.lean ====
section
/-!
SUPPORT. Every function keeps a good state (`Good`): the commands of the table, one lemma each.
-/
set_option linter.unusedTactic false
set_option linter.unreachableTactic false
set_option linter.unusedVariables false

namespace Sys2Proof.Machine

/-! ### Exec -/

/-- The outcome is a next state, and a good one. -/
def Goes (o : Otp) (q : List Instr) (x : Host.Outcome State Fault Refusal) : Prop := ∃ t, x = .next t ∧ Good o q t

theorem goes_next {o : Otp} {q : List Instr} {t : State} (h : Good o q t) : Goes o q (.next t) := ⟨t, rfl, h⟩

theorem goes_execBezelComparatorCrossing {o : Otp} {q : List Instr} {s : State} (h : Good o q s) : ∀ a0 a1, Goes o q (execBezelComparatorCrossing a0 a1 s) := by
  intro a0 a1
  unfold execBezelComparatorCrossing
  repeat' first
    | with_reducible assumption
    | with_reducible apply goes_next
    | with_reducible apply good_State_modChan
    | (with_reducible apply good_foldl; intro _ _ _)
    | dsimp only
    | split
    | (intro hk; (try dsimp only); repeat' first | exact hk | split)


theorem goes_execBezelTrip {o : Otp} {q : List Instr} {s : State} (h : Good o q s) : ∀ a0, Goes o q (execBezelTrip a0 s) := by
  intro a0
  unfold execBezelTrip
  repeat' first
    | with_reducible assumption
    | with_reducible apply goes_next
    | with_reducible apply good_State_bezelTrip
    | (with_reducible apply good_foldl; intro _ _ _)
    | dsimp only
    | split
    | (intro hk; (try dsimp only); repeat' first | exact hk | split)


theorem goes_execSlowOcNoSample {o : Otp} {q : List Instr} {s : State} (h : Good o q s) : ∀ a0, Goes o q (execSlowOcNoSample a0 s) := by
  intro a0
  unfold execSlowOcNoSample
  repeat' first
    | with_reducible assumption
    | with_reducible apply goes_next
    | with_reducible apply good_State_bezelTrip
    | (with_reducible apply good_foldl; intro _ _ _)
    | dsimp only
    | split
    | (intro hk; (try dsimp only); repeat' first | exact hk | split)


theorem goes_execBzFbChange {o : Otp} {q : List Instr} {s : State} (h : Good o q s) : ∀ a0 a1, Goes o q (execBzFbChange a0 a1 s) := by
  intro a0 a1
  unfold execBzFbChange
  repeat' first
    | with_reducible assumption
    | with_reducible apply goes_next
    | with_reducible apply good_State_modChan
    | (with_reducible apply good_foldl; intro _ _ _)
    | dsimp only
    | split
    | (intro hk; (try dsimp only); repeat' first | exact hk | split)


theorem goes_execBzFbQualified {o : Otp} {q : List Instr} {s : State} (h : Good o q s) : ∀ a0, Goes o q (execBzFbQualified a0 s) := by
  intro a0
  unfold execBzFbQualified
  repeat' first
    | with_reducible assumption
    | with_reducible apply goes_next
    | with_reducible apply good_State_fbQualified
    | (with_reducible apply good_foldl; intro _ _ _)
    | dsimp only
    | split
    | (intro hk; (try dsimp only); repeat' first | exact hk | split)


theorem goes_execBzCloseTimeout {o : Otp} {q : List Instr} {s : State} (h : Good o q s) : ∀ a0, Goes o q (execBzCloseTimeout a0 s) := by
  intro a0
  unfold execBzCloseTimeout
  repeat' first
    | with_reducible assumption
    | with_reducible apply goes_next
    | with_reducible apply good_State_setChan
    | with_reducible apply good_State_recordBezel
    | with_reducible apply good_State_tieLocked
    | with_reducible apply good_State_bz4LanesTrip
    | (with_reducible apply good_foldl; intro _ _ _)
    | dsimp only
    | split
    | (intro hk; (try dsimp only); repeat' first | exact hk | split)


theorem goes_execBzOpenTimeout {o : Otp} {q : List Instr} {s : State} (h : Good o q s) : ∀ a0, Goes o q (execBzOpenTimeout a0 s) := by
  intro a0
  unfold execBzOpenTimeout
  repeat' first
    | with_reducible assumption
    | with_reducible apply goes_next
    | with_reducible apply good_State_tieLocked
    | with_reducible apply good_State_modChan
    | with_reducible apply good_State_setChan
    | with_reducible apply good_State_recordBezel
    | (with_reducible apply good_foldl; intro _ _ _)
    | dsimp only
    | split
    | (intro hk; (try dsimp only); repeat' first | exact hk | split)


theorem goes_execBzRetryReset {o : Otp} {q : List Instr} {s : State} (h : Good o q s) : ∀ a0, Goes o q (execBzRetryReset a0 s) := by
  intro a0
  unfold execBzRetryReset
  repeat' first
    | with_reducible assumption
    | with_reducible apply goes_next
    | with_reducible apply good_State_modChan
    | (with_reducible apply good_foldl; intro _ _ _)
    | dsimp only
    | split
    | (intro hk; (try dsimp only); repeat' first | exact hk | split)


theorem goes_execLegTurnOn {o : Otp} {q : List Instr} {s : State} (h : Good o q s) : ∀ a0, Goes o q (execLegTurnOn a0 s) := by
  intro a0
  unfold execLegTurnOn
  repeat' first
    | with_reducible assumption
    | with_reducible apply goes_next
    | with_reducible apply good_State_passSlots
    | with_reducible apply good_State_modLane
    | with_reducible apply good_State_modLegs
    | (with_reducible apply good_foldl; intro _ _ _)
    | dsimp only
    | split
    | (intro hk; (try dsimp only); repeat' first | exact hk | split)


theorem goes_execDecimatorOutput {o : Otp} {q : List Instr} {s : State} (h : Good o q s) : ∀ a0 a1, Goes o q (execDecimatorOutput a0 a1 s) := by
  intro a0 a1
  unfold execDecimatorOutput
  repeat' first
    | with_reducible assumption
    | with_reducible apply goes_next
    | with_reducible apply good_modConv
    | with_reducible apply good_State_voltageChecks
    | (with_reducible apply good_foldl; intro _ _ _)
    | dsimp only
    | split
    | (intro hk; (try dsimp only); repeat' first | exact hk | split | exact ⟨by first | exact hk.lanes | simpa using hk.lanes | simpa using h.inv.conv.lanes, by first | exact hk.legs | simpa using hk.legs | simpa using h.inv.conv.legs, by first | exact hk.decims | simpa using hk.decims | simpa using h.inv.conv.decims⟩)


theorem goes_execBrakeEnd {o : Otp} {q : List Instr} {s : State} (h : Good o q s) : ∀ a0, Goes o q (execBrakeEnd a0 s) := by
  intro a0
  unfold execBrakeEnd
  repeat' first
    | with_reducible assumption
    | with_reducible apply goes_next
    | with_reducible apply good_State_modLane
    | with_reducible apply good_State_setMode
    | (with_reducible apply good_foldl; intro _ _ _)
    | dsimp only
    | split
    | (intro hk; (try dsimp only); repeat' first | exact hk | split)


theorem goes_execComparatorCrossing {o : Otp} {q : List Instr} {s : State} (h : Good o q s) : ∀ a0 a1 a2 a3, Goes o q (execComparatorCrossing a0 a1 a2 a3 s) := by
  intro a0 a1 a2 a3
  unfold execComparatorCrossing
  repeat' first
    | with_reducible assumption
    | with_reducible apply goes_next
    | with_reducible apply good_modProt
    | with_reducible apply good_State_takeBit
    | with_reducible refine good_State_takeBit_eq (by assumption) ?_
    | with_reducible apply good_State_cross
    | (with_reducible apply good_foldl; intro _ _ _)
    | dsimp only
    | split
    | (intro hk; (try dsimp only); repeat' first | exact hk | split | exact ⟨by first | exact hk.echo | simpa using hk.echo | simpa using h.inv.prot.echo, by first | exact hk.crowbars | simpa using hk.crowbars | simpa using h.inv.prot.crowbars⟩)


theorem goes_execCrowbarBlankEnd {o : Otp} {q : List Instr} {s : State} (h : Good o q s) : ∀ a0, Goes o q (execCrowbarBlankEnd a0 s) := by
  intro a0
  unfold execCrowbarBlankEnd
  repeat' first
    | with_reducible assumption
    | with_reducible apply goes_next
    | with_reducible apply good_modProt
    | with_reducible apply good_State_divert
    | (with_reducible apply good_foldl; intro _ _ _)
    | dsimp only
    | split
    | (intro hk; (try dsimp only); repeat' first | exact hk | split | exact ⟨by first | exact hk.echo | simpa using hk.echo | simpa using h.inv.prot.echo, by first | exact hk.crowbars | simpa using hk.crowbars | simpa using h.inv.prot.crowbars⟩)


theorem goes_execCrowbarClose {o : Otp} {q : List Instr} {s : State} (h : Good o q s) : ∀ a0, Goes o q (execCrowbarClose a0 s) := by
  intro a0
  unfold execCrowbarClose
  repeat' first
    | with_reducible assumption
    | with_reducible apply goes_next
    | with_reducible apply good_State_closeCrowbar
    | with_reducible apply good_State_modChan
    | (with_reducible apply good_foldl; intro _ _ _)
    | dsimp only
    | split
    | (intro hk; (try dsimp only); repeat' first | exact hk | split)


theorem goes_execCrowbarTimeout {o : Otp} {q : List Instr} {s : State} (h : Good o q s) : ∀ a0, Goes o q (execCrowbarTimeout a0 s) := by
  intro a0
  unfold execCrowbarTimeout
  repeat' first
    | with_reducible assumption
    | with_reducible apply goes_next
    | with_reducible apply good_State_recordProt
    | with_reducible apply good_State_closeCrowbar
    | (with_reducible apply good_foldl; intro _ _ _)
    | dsimp only
    | split
    | (intro hk; (try dsimp only); repeat' first | exact hk | split)


theorem goes_execDfltInputChange {o : Otp} {q : List Instr} {s : State} (h : Good o q s) : ∀ a0 a1, Goes o q (execDfltInputChange a0 a1 s) := by
  intro a0 a1
  unfold execDfltInputChange
  repeat' first
    | with_reducible assumption
    | with_reducible apply goes_next
    | with_reducible apply good_modProt
    | (with_reducible apply good_foldl; intro _ _ _)
    | dsimp only
    | split
    | (intro hk; (try dsimp only); repeat' first | exact hk | split | exact ⟨by first | exact hk.echo | simpa using hk.echo | simpa using h.inv.prot.echo, by first | exact hk.crowbars | simpa using hk.crowbars | simpa using h.inv.prot.crowbars⟩)


theorem goes_execDriverFault {o : Otp} {q : List Instr} {s : State} (h : Good o q s) : ∀ a0, Goes o q (execDriverFault a0 s) := by
  intro a0
  unfold execDriverFault
  repeat' first
    | with_reducible assumption
    | with_reducible apply goes_next
    | with_reducible apply good_State_driverFault
    | (with_reducible apply good_foldl; intro _ _ _)
    | dsimp only
    | split
    | (intro hk; (try dsimp only); repeat' first | exact hk | split)


theorem goes_execProtConfig {o : Otp} {q : List Instr} {s : State} (h : Good o q s) : ∀ a0 a1, Goes o q (execProtConfig a0 a1 s) :=
  fun x b => goes_next (good_receive keeps_opProtConfig h x b)

theorem goes_execProtClear {o : Otp} {q : List Instr} {s : State} (h : Good o q s) : ∀ a0 a1, Goes o q (execProtClear a0 a1 s) :=
  fun x b => goes_next (good_receive keeps_opProtClear h x b)

theorem goes_execProtLogRead {o : Otp} {q : List Instr} {s : State} (h : Good o q s) : ∀ a0 a1, Goes o q (execProtLogRead a0 a1 s) :=
  fun x b => goes_next (good_receive keeps_opProtLogRead h x b)

theorem goes_execEchoRead {o : Otp} {q : List Instr} {s : State} (h : Good o q s) : ∀ a0 a1, Goes o q (execEchoRead a0 a1 s) :=
  fun x b => goes_next (good_receive keeps_opEchoRead h x b)

theorem goes_execEchoClear {o : Otp} {q : List Instr} {s : State} (h : Good o q s) : ∀ a0 a1, Goes o q (execEchoClear a0 a1 s) :=
  fun x b => goes_next (good_receive keeps_opEchoClear h x b)

theorem goes_execConversionDone {o : Otp} {q : List Instr} {s : State} (h : Good o q s) : ∀ a0 a1, Goes o q (execConversionDone a0 a1 s) := by
  intro a0 a1
  unfold execConversionDone
  repeat' first
    | with_reducible assumption
    | with_reducible apply goes_next
    | with_reducible apply good_State_conversion
    | (with_reducible apply good_foldl; intro _ _ _)
    | dsimp only
    | split
    | (intro hk; (try dsimp only); repeat' first | exact hk | split)


theorem goes_execMeasCalibrationDone {o : Otp} {q : List Instr} {s : State} (h : Good o q s) : Goes o q (execMeasCalibrationDone s) := by
  unfold execMeasCalibrationDone
  repeat' first
    | with_reducible assumption
    | with_reducible apply goes_next
    | (with_reducible refine good_State_setReady (by simp) ?_)
    | with_reducible apply good_State_setReady
    | with_reducible apply good_modMeas
    | (with_reducible apply good_foldl; intro _ _ _)
    | dsimp only
    | split
    | (intro hk; (try dsimp only); repeat' first | exact hk | split | exact ⟨by first | exact hk.adcs | simpa using hk.adcs | simpa using h.inv.meas.adcs, by first | exact hk.accs | simpa using hk.accs | simpa using h.inv.meas.accs, by first | exact hk.trks | simpa using hk.trks | simpa using h.inv.meas.trks⟩)


theorem goes_execMeasTable {o : Otp} {q : List Instr} {s : State} (h : Good o q s) : ∀ a0 a1, Goes o q (execMeasTable a0 a1 s) :=
  fun x b => goes_next (good_receive keeps_opMeasTable h x b)

theorem goes_execMeasAccConfig {o : Otp} {q : List Instr} {s : State} (h : Good o q s) : ∀ a0 a1, Goes o q (execMeasAccConfig a0 a1 s) :=
  fun x b => goes_next (good_receive keeps_opMeasAccConfig h x b)

theorem goes_execMeasClear {o : Otp} {q : List Instr} {s : State} (h : Good o q s) : ∀ a0 a1, Goes o q (execMeasClear a0 a1 s) :=
  fun x b => goes_next (good_receive keeps_opMeasClear h x b)

theorem goes_execMeasSnapshotRead {o : Otp} {q : List Instr} {s : State} (h : Good o q s) : ∀ a0 a1, Goes o q (execMeasSnapshotRead a0 a1 s) :=
  fun x b => goes_next (good_receive keeps_opMeasSnapshotRead h x b)

theorem goes_execMeasTableStatus {o : Otp} {q : List Instr} {s : State} (h : Good o q s) : ∀ a0 a1, Goes o q (execMeasTableStatus a0 a1 s) :=
  fun x b => goes_next (good_receive keeps_opMeasTableStatus h x b)

theorem goes_execThermalReadStart {o : Otp} {q : List Instr} {s : State} (h : Good o q s) : Goes o q (execThermalReadStart s) := by
  unfold execThermalReadStart
  repeat' first
    | with_reducible assumption
    | with_reducible apply goes_next
    | with_reducible apply good_modTherm
    | (with_reducible apply good_foldl; intro _ _ _)
    | dsimp only
    | split
    | (intro hk; (try dsimp only); repeat' first | exact hk | split | exact ⟨by first | exact hk.ext | simpa using hk.ext | simpa using h.inv.therm.ext, by first | exact hk.batt | simpa using hk.batt | simpa using h.inv.therm.batt⟩)


theorem goes_execThermalReadDone {o : Otp} {q : List Instr} {s : State} (h : Good o q s) : ∀ a0, Goes o q (execThermalReadDone a0 s) := by
  intro a0
  unfold execThermalReadDone
  repeat' first
    | with_reducible assumption
    | with_reducible apply goes_next
    | with_reducible apply good_State_thermalRead
    | (with_reducible apply good_foldl; intro _ _ _)
    | dsimp only
    | split
    | (intro hk; (try dsimp only); repeat' first | exact hk | split)


theorem goes_execThermalHeldRead {o : Otp} {q : List Instr} {s : State} (h : Good o q s) : ∀ a0, Goes o q (execThermalHeldRead a0 s) := by
  intro a0
  unfold execThermalHeldRead
  repeat' first
    | with_reducible assumption
    | with_reducible apply goes_next
    | with_reducible apply good_modTherm
    | (with_reducible apply good_foldl; intro _ _ _)
    | dsimp only
    | split
    | (intro hk; (try dsimp only); repeat' first | exact hk | split | exact ⟨by first | exact hk.ext | simpa using hk.ext | simpa using h.inv.therm.ext, by first | exact hk.batt | simpa using hk.batt | simpa using h.inv.therm.batt⟩)


theorem goes_execThermConfig {o : Otp} {q : List Instr} {s : State} (h : Good o q s) : ∀ a0 a1, Goes o q (execThermConfig a0 a1 s) :=
  fun x b => goes_next (good_receive keeps_opThermConfig h x b)

theorem goes_execThermStatus {o : Otp} {q : List Instr} {s : State} (h : Good o q s) : ∀ a0 a1, Goes o q (execThermStatus a0 a1 s) :=
  fun x b => goes_next (good_receive keeps_opThermStatus h x b)

theorem goes_execThermPeakClear {o : Otp} {q : List Instr} {s : State} (h : Good o q s) : ∀ a0 a1, Goes o q (execThermPeakClear a0 a1 s) :=
  fun x b => goes_next (good_receive keeps_opThermPeakClear h x b)

theorem goes_execStrandConfig {o : Otp} {q : List Instr} {s : State} (h : Good o q s) : ∀ a0 a1, Goes o q (execStrandConfig a0 a1 s) :=
  fun x b => goes_next (good_receive keeps_opStrandConfig h x b)

theorem goes_execChargeStart {o : Otp} {q : List Instr} {s : State} (h : Good o q s) : ∀ a0 a1, Goes o q (execChargeStart a0 a1 s) :=
  fun x b => goes_next (good_receive keeps_opChargeStart h x b)

theorem goes_execChargeStop {o : Otp} {q : List Instr} {s : State} (h : Good o q s) : ∀ a0 a1, Goes o q (execChargeStop a0 a1 s) :=
  fun x b => goes_next (good_receive keeps_opChargeStop h x b)

theorem goes_execChargeEqualise {o : Otp} {q : List Instr} {s : State} (h : Good o q s) : ∀ a0 a1, Goes o q (execChargeEqualise a0 a1 s) :=
  fun x b => goes_next (good_receive keeps_opChargeEqualise h x b)

theorem goes_execStrandStatus {o : Otp} {q : List Instr} {s : State} (h : Good o q s) : ∀ a0 a1, Goes o q (execStrandStatus a0 a1 s) :=
  fun x b => goes_next (good_receive keeps_opStrandStatus h x b)

theorem goes_execBmsLimits {o : Otp} {q : List Instr} {s : State} (h : Good o q s) : ∀ a0 a1, Goes o q (execBmsLimits a0 a1 s) :=
  fun x b => goes_next (good_receive keeps_opBmsLimits h x b)

theorem goes_execStrandPlan {o : Otp} {q : List Instr} {s : State} (h : Good o q s) : ∀ a0 a1, Goes o q (execStrandPlan a0 a1 s) :=
  fun x b => goes_next (good_receive keeps_opStrandPlan h x b)

theorem goes_execLaneConfig {o : Otp} {q : List Instr} {s : State} (h : Good o q s) : ∀ a0 a1, Goes o q (execLaneConfig a0 a1 s) :=
  fun x b => goes_next (good_receive keeps_opLaneConfig h x b)

theorem goes_execLaneStart {o : Otp} {q : List Instr} {s : State} (h : Good o q s) : ∀ a0 a1, Goes o q (execLaneStart a0 a1 s) :=
  fun x b => goes_next (good_receive keeps_opLaneStart h x b)

theorem goes_execLaneStop {o : Otp} {q : List Instr} {s : State} (h : Good o q s) : ∀ a0 a1, Goes o q (execLaneStop a0 a1 s) :=
  fun x b => goes_next (good_receive keeps_opLaneStop h x b)

theorem goes_execSetLaneTarget {o : Otp} {q : List Instr} {s : State} (h : Good o q s) : ∀ a0 a1, Goes o q (execSetLaneTarget a0 a1 s) :=
  fun x b => goes_next (good_receive keeps_opSetLaneTarget h x b)

theorem goes_execSetLaneCoeffs {o : Otp} {q : List Instr} {s : State} (h : Good o q s) : ∀ a0 a1, Goes o q (execSetLaneCoeffs a0 a1 s) :=
  fun x b => goes_next (good_receive keeps_opSetLaneCoeffs h x b)

theorem goes_execSetLaneProfile {o : Otp} {q : List Instr} {s : State} (h : Good o q s) : ∀ a0 a1, Goes o q (execSetLaneProfile a0 a1 s) :=
  fun x b => goes_next (good_receive keeps_opSetLaneProfile h x b)

theorem goes_execSetBurst {o : Otp} {q : List Instr} {s : State} (h : Good o q s) : ∀ a0 a1, Goes o q (execSetBurst a0 a1 s) :=
  fun x b => goes_next (good_receive keeps_opSetBurst h x b)

theorem goes_execTuningControl {o : Otp} {q : List Instr} {s : State} (h : Good o q s) : ∀ a0 a1, Goes o q (execTuningControl a0 a1 s) :=
  fun x b => goes_next (good_receive keeps_opTuningControl h x b)

theorem goes_execLanePhaseLock {o : Otp} {q : List Instr} {s : State} (h : Good o q s) : ∀ a0 a1, Goes o q (execLanePhaseLock a0 a1 s) :=
  fun x b => goes_next (good_receive keeps_opLanePhaseLock h x b)

theorem goes_execLaneLegs {o : Otp} {q : List Instr} {s : State} (h : Good o q s) : ∀ a0 a1, Goes o q (execLaneLegs a0 a1 s) :=
  fun x b => goes_next (good_receive keeps_opLaneLegs h x b)

theorem goes_execLaneStatus {o : Otp} {q : List Instr} {s : State} (h : Good o q s) : ∀ a0 a1, Goes o q (execLaneStatus a0 a1 s) :=
  fun x b => goes_next (good_receive keeps_opLaneStatus h x b)

theorem goes_execFrameStart {o : Otp} {q : List Instr} {s : State} (h : Good o q s) : ∀ a0, Goes o q (execFrameStart a0 s) := by
  intro a0
  unfold execFrameStart
  repeat' first
    | with_reducible assumption
    | with_reducible apply goes_next
    | with_reducible apply good_State_frame
    | with_reducible apply good_State_recheck
    | (with_reducible apply good_foldl; intro _ _ _)
    | dsimp only
    | split
    | (intro hk; (try dsimp only); repeat' first | exact hk | split)


theorem goes_execBezelConfig {o : Otp} {q : List Instr} {s : State} (h : Good o q s) : ∀ a0 a1, Goes o q (execBezelConfig a0 a1 s) :=
  fun x b => goes_next (good_receive keeps_opBezelConfig h x b)

theorem goes_execPathConfig {o : Otp} {q : List Instr} {s : State} (h : Good o q s) : ∀ a0 a1, Goes o q (execPathConfig a0 a1 s) :=
  fun x b => goes_next (good_receive keeps_opPathConfig h x b)

theorem goes_execSourceInhibit {o : Otp} {q : List Instr} {s : State} (h : Good o q s) : ∀ a0 a1, Goes o q (execSourceInhibit a0 a1 s) :=
  fun x b => goes_next (good_receive keeps_opSourceInhibit h x b)

theorem goes_execBezelClear {o : Otp} {q : List Instr} {s : State} (h : Good o q s) : ∀ a0 a1, Goes o q (execBezelClear a0 a1 s) :=
  fun x b => goes_next (good_receive keeps_opBezelClear h x b)

theorem goes_execPathStatus {o : Otp} {q : List Instr} {s : State} (h : Good o q s) : ∀ a0 a1, Goes o q (execPathStatus a0 a1 s) :=
  fun x b => goes_next (good_receive keeps_opPathStatus h x b)

theorem goes_execPeerPower {o : Otp} {q : List Instr} {s : State} (h : Good o q s) : ∀ a0 a1, Goes o q (execPeerPower a0 a1 s) :=
  fun x b => goes_next (good_receive keeps_opPeerPower h x b)

theorem goes_execSlolosPortStart {o : Otp} {q : List Instr} {s : State} (h : Good o q s) : ∀ a0, Goes o q (execSlolosPortStart a0 s) := by
  intro a0
  unfold execSlolosPortStart
  repeat' first
    | with_reducible assumption
    | with_reducible apply goes_next
    | with_reducible apply good_modSlolos
    | with_reducible apply good_State_chainBit
    | (with_reducible apply good_foldl; intro _ _ _)
    | dsimp only
    | split
    | (intro hk; (try dsimp only); repeat' first | exact hk | with_reducible apply sound_Slolos_setPort | split | exact ⟨by first | exact hk.ctxs | simpa using hk.ctxs | simpa using h.inv.slolos.ctxs, by first | exact hk.marker | simpa using hk.marker | simpa using h.inv.slolos.marker⟩)


theorem goes_execLinkUp {o : Otp} {q : List Instr} {s : State} (h : Good o q s) : ∀ a0, Goes o q (execLinkUp a0 s) := by
  intro a0
  unfold execLinkUp
  repeat' first
    | with_reducible assumption
    | with_reducible apply goes_next
    | with_reducible apply good_modSlolos
    | (with_reducible apply good_foldl; intro _ _ _)
    | dsimp only
    | split
    | (intro hk; (try dsimp only); repeat' first | exact hk | with_reducible apply sound_Slolos_setPort | split | exact ⟨by first | exact hk.ctxs | simpa using hk.ctxs | simpa using h.inv.slolos.ctxs, by first | exact hk.marker | simpa using hk.marker | simpa using h.inv.slolos.marker⟩)


theorem goes_execLinkDownDetected {o : Otp} {q : List Instr} {s : State} (h : Good o q s) : ∀ loss, Goes o q (execLinkDownDetected loss s) := by
  intro loss
  unfold execLinkDownDetected
  extract_lets port violations s1 f
  split
  · have h1 : Good o q s1 := by
      refine good_modSlolos ?_ h
      exact fun hk => ⟨(sound_Slolos_setPort hk _ _).ctxs, (sound_Slolos_setPort hk _ _).marker⟩
    clear_value s1 f
    split
    · split
      · exact goes_next (good_State_chainBroken h1 _ _)
      · split
        · exact goes_next (good_State_chainBroken h1 _ _)
        · exact goes_next h1
    · refine goes_next ?_
      split
      · exact good_State_sendB (good_State_chainBit h1) _
      · exact good_State_sendUp (good_State_chainBit h1) _
  · exact goes_next h

theorem goes_execLinkDown {o : Otp} {q : List Instr} {s : State} (h : Good o q s) : ∀ a0 a1 a2, Goes o q (execLinkDown a0 a1 a2 s) := by
  intro a0 a1 a2
  unfold execLinkDown
  repeat' first
    | with_reducible assumption
    | with_reducible apply goes_next
    | with_reducible apply good_State_sendB
    | with_reducible apply good_State_sendUp
    | with_reducible apply good_State_hearFrame
    | with_reducible apply good_State_badFrame
    | with_reducible apply good_State_chainBroken
    | (with_reducible apply good_foldl; intro _ _ _)
    | dsimp only
    | split
    | (intro hk; (try dsimp only); repeat' first | exact hk | split)


theorem goes_execDelayMeasured {o : Otp} {q : List Instr} {s : State} (h : Good o q s) : ∀ port delay down up,
    Goes o q (execDelayMeasured port delay down up s) := by
  intro port delay down up
  unfold execDelayMeasured
  split
  · extract_lets s1
    have h1 : Good o q s1 := by
      refine good_modSlolos ?_ h
      exact fun hk => ⟨(sound_Slolos_setPort hk _ _).ctxs, (sound_Slolos_setPort hk _ _).marker⟩
    clear_value s1
    split
    · split
      · exact goes_next (good_State_startPass h1 _)
      · split
        · refine goes_next ?_
          split
          · exact good_State_startPass h1 _
          · exact h1
        · exact goes_next (good_State_startPass h1 _)
    · exact goes_next h1
  · exact goes_next h

theorem goes_execEchoFrame {o : Otp} {q : List Instr} {s : State} (h : Good o q s) : ∀ a0 a1 a2 a3 a4, Goes o q (execEchoFrame a0 a1 a2 a3 a4 s) := by
  intro a0 a1 a2 a3 a4
  unfold execEchoFrame
  repeat' first
    | with_reducible assumption
    | with_reducible apply goes_next
    | with_reducible apply good_State_badFrame
    | with_reducible apply good_State_sendA
    | with_reducible apply good_State_sendB
    | (with_reducible apply good_foldl; intro _ _ _)
    | dsimp only
    | split
    | (intro hk; (try dsimp only); repeat' first | exact hk | split)


theorem goes_execEnumNoWorkerTimeout {o : Otp} {q : List Instr} {s : State} (h : Good o q s) : Goes o q (execEnumNoWorkerTimeout s) := by
  unfold execEnumNoWorkerTimeout
  repeat' first
    | with_reducible assumption
    | with_reducible apply goes_next
    | (with_reducible refine good_State_setReady (by simp) ?_)
    | with_reducible apply good_State_setReady
    | with_reducible apply good_State_wakeWorkers
    | with_reducible apply good_State_chainEvent
    | (with_reducible apply good_foldl; intro _ _ _)
    | dsimp only
    | split
    | (intro hk; (try dsimp only); repeat' first | exact hk | split)


theorem goes_execAppendRetry {o : Otp} {q : List Instr} {s : State} (h : Good o q s) : Goes o q (execAppendRetry s) := by
  unfold execAppendRetry
  repeat' first
    | with_reducible assumption
    | with_reducible apply goes_next
    | with_reducible apply good_State_startPass
    | (with_reducible apply good_foldl; intro _ _ _)
    | dsimp only
    | split
    | (intro hk; (try dsimp only); repeat' first | exact hk | split)


theorem goes_execEnum {o : Otp} {q : List Instr} {s : State} (h : Good o q s) : ∀ a0 a1 a2 a3 a4 a5, Goes o q (execEnum a0 a1 a2 a3 a4 a5 s) := by
  intro a0 a1 a2 a3 a4 a5
  unfold execEnum
  repeat' first
    | with_reducible assumption
    | with_reducible apply goes_next
    | with_reducible apply good_State_sendB
    | with_reducible apply good_State_sendA
    | with_reducible apply good_State_badFrame
    | with_reducible apply good_State_workerEnum
    | with_reducible apply good_modSlolos
    | with_reducible apply good_State_finishPass
    | (with_reducible apply good_foldl; intro _ _ _)
    | dsimp only
    | split
    | (intro hk; (try dsimp only); repeat' first | exact hk | split | exact ⟨by first | exact hk.ctxs | simpa using hk.ctxs | simpa using h.inv.slolos.ctxs, by first | exact hk.marker | simpa using hk.marker | simpa using h.inv.slolos.marker⟩)


theorem goes_execEnumAnswer {o : Otp} {q : List Instr} {s : State} (h : Good o q s) : ∀ a0 a1 a2 a3 a4, Goes o q (execEnumAnswer a0 a1 a2 a3 a4 s) := by
  intro a0 a1 a2 a3 a4
  unfold execEnumAnswer
  repeat' first
    | with_reducible assumption
    | with_reducible apply goes_next
    | with_reducible apply good_State_relayBulk
    | with_reducible apply good_State_hearFrame
    | with_reducible apply good_State_badFrame
    | with_reducible apply good_State_enumAnswer
    | (with_reducible apply good_foldl; intro _ _ _)
    | dsimp only
    | split
    | (intro hk; (try dsimp only); repeat' first | exact hk | split)


theorem goes_execEnumEnd {o : Otp} {q : List Instr} {s : State} (h : Good o q s) : ∀ a0 a1 a2, Goes o q (execEnumEnd a0 a1 a2 s) := by
  intro a0 a1 a2
  unfold execEnumEnd
  repeat' first
    | with_reducible assumption
    | with_reducible apply goes_next
    | with_reducible apply good_State_relayBulk
    | with_reducible apply good_State_hearFrame
    | with_reducible apply good_State_badFrame
    | with_reducible apply good_State_chainEvent
    | with_reducible apply good_State_finishPass
    | (with_reducible apply good_foldl; intro _ _ _)
    | dsimp only
    | split
    | (intro hk; (try dsimp only); repeat' first | exact hk | split)


theorem goes_execJoin {o : Otp} {q : List Instr} {s : State} (h : Good o q s) : ∀ a0, Goes o q (execJoin a0 s) := by
  intro a0
  unfold execJoin
  repeat' first
    | with_reducible assumption
    | with_reducible apply goes_next
    | with_reducible apply good_State_relayBulk
    | with_reducible apply good_State_hearFrame
    | with_reducible apply good_State_badFrame
    | with_reducible apply good_modSlolos
    | (with_reducible apply good_foldl; intro _ _ _)
    | dsimp only
    | split
    | (intro hk; (try dsimp only); repeat' first | exact hk | split | exact ⟨by first | exact hk.ctxs | simpa using hk.ctxs | simpa using h.inv.slolos.ctxs, by first | exact hk.marker | simpa using hk.marker | simpa using h.inv.slolos.marker⟩)


theorem goes_execJoinTimer {o : Otp} {q : List Instr} {s : State} (h : Good o q s) : Goes o q (execJoinTimer s) := by
  unfold execJoinTimer
  repeat' first
    | with_reducible assumption
    | with_reducible apply goes_next
    | with_reducible apply good_State_sendUp
    | (with_reducible apply good_foldl; intro _ _ _)
    | dsimp only
    | split
    | (intro hk; (try dsimp only); repeat' first | exact hk | split)


theorem goes_execUnassign {o : Otp} {q : List Instr} {s : State} (h : Good o q s) : ∀ harm, Goes o q (execUnassign harm s) := by
  intro harm
  unfold execUnassign
  split
  · exact goes_next h
  · extract_lets s1
    have h1 : Good o q s1 := good_State_repeatDown h _
    clear_value s1
    split
    · exact goes_next h1
    · split
      · exact goes_next (good_State_badFrame h1 _)
      · have k : ∀ t : State, Good o q t →
            Good o q (t.modSlolos fun y => { y with address := 0, firstAllot := false, age := 0 }) := by
          intro t ht
          refine good_modSlolos ?_ ht
          exact fun hk => ⟨hk.ctxs, hk.marker⟩
        exact goes_next (k _ (good_State_cutOffNow h1))

theorem goes_execResetFrame {o : Otp} {q : List Instr} {s : State} (h : Good o q s) : ∀ a0 a1, Goes o q (execResetFrame a0 a1 s) := by
  intro a0 a1
  unfold execResetFrame
  repeat' first
    | with_reducible assumption
    | with_reducible apply goes_next
    | with_reducible apply good_State_repeatDown
    | with_reducible apply good_State_badFrame
    | with_reducible apply good_State_trigger
    | (with_reducible apply good_foldl; intro _ _ _)
    | dsimp only
    | split
    | (intro hk; (try dsimp only); repeat' first | exact hk | split)


theorem goes_execMarkerSend {o : Otp} {q : List Instr} {s : State} (h : Good o q s) : Goes o q (execMarkerSend s) := by
  unfold execMarkerSend
  repeat' first
    | with_reducible assumption
    | with_reducible apply goes_next
    | with_reducible apply good_modSlolos
    | with_reducible apply good_State_sendB
    | with_reducible apply good_State_sendA
    | (with_reducible apply good_foldl; intro _ _ _)
    | dsimp only
    | split
    | (intro hk; (try dsimp only); repeat' first | exact hk | split | exact ⟨by first | exact hk.ctxs | simpa using hk.ctxs | simpa using h.inv.slolos.ctxs, by first | exact hk.marker | simpa using hk.marker | simpa using h.inv.slolos.marker⟩)


theorem goes_execMarker {o : Otp} {q : List Instr} {s : State} (h : Good o q s) : ∀ a0 a1, Goes o q (execMarker a0 a1 s) := by
  intro a0 a1
  unfold execMarker
  repeat' first
    | with_reducible assumption
    | with_reducible apply goes_next
    | with_reducible apply good_State_sendA
    | with_reducible apply good_State_sendB
    | with_reducible apply good_State_takeMarker
    | with_reducible apply good_State_badFrame
    | with_reducible apply good_State_ringRestored
    | (with_reducible apply good_foldl; intro _ _ _)
    | dsimp only
    | split
    | (intro hk; (try dsimp only); repeat' first | exact hk | split)


theorem goes_execMarkerMissed {o : Otp} {q : List Instr} {s : State} (h : Good o q s) : Goes o q (execMarkerMissed s) := by
  unfold execMarkerMissed
  repeat' first
    | with_reducible assumption
    | with_reducible apply goes_next
    | with_reducible apply good_State_endWaiting
    | with_reducible apply good_modSlolos
    | with_reducible apply good_State_chainBit
    | with_reducible apply good_modMeas
    | with_reducible apply good_State_cutOffNow
    | with_reducible apply good_State_cutOffBz4
    | (with_reducible apply good_foldl; intro _ _ _)
    | dsimp only
    | split
    | (intro hk; (try dsimp only); repeat' first | exact hk | with_reducible apply sound_Meas_startTables | split | exact ⟨by first | exact hk.ctxs | simpa using hk.ctxs | simpa using h.inv.slolos.ctxs, by first | exact hk.marker | simpa using hk.marker | simpa using h.inv.slolos.marker⟩ | exact ⟨by first | exact hk.adcs | simpa using hk.adcs | simpa using h.inv.meas.adcs, by first | exact hk.accs | simpa using hk.accs | simpa using h.inv.meas.accs, by first | exact hk.trks | simpa using hk.trks | simpa using h.inv.meas.trks⟩)


theorem goes_execTelemetrySlot {o : Otp} {q : List Instr} {s : State} (h : Good o q s) : Goes o q (execTelemetrySlot s) := by
  unfold execTelemetrySlot
  repeat' first
    | with_reducible assumption
    | with_reducible apply goes_next
    | with_reducible apply good_modSlolos
    | with_reducible apply good_State_sendUp
    | (with_reducible apply good_foldl; intro _ _ _)
    | dsimp only
    | split
    | (intro hk; (try dsimp only); repeat' first | exact hk | split | exact ⟨by first | exact hk.ctxs | simpa using hk.ctxs | simpa using h.inv.slolos.ctxs, by first | exact hk.marker | simpa using hk.marker | simpa using h.inv.slolos.marker⟩)


theorem goes_execTelemetryFrame {o : Otp} {q : List Instr} {s : State} (h : Good o q s) : ∀ a0 a1, Goes o q (execTelemetryFrame a0 a1 s) := by
  intro a0 a1
  unfold execTelemetryFrame
  repeat' first
    | with_reducible assumption
    | with_reducible apply goes_next
    | with_reducible apply good_State_sendUp
    | with_reducible apply good_State_hearFrame
    | with_reducible apply good_State_badFrame
    | with_reducible apply good_modSlolos
    | with_reducible apply good_State_beginSum
    | (with_reducible apply good_foldl; intro _ _ _)
    | dsimp only
    | split
    | (intro hk; (try dsimp only); repeat' first | exact hk | with_reducible apply sound_Slolos_modCtx | split | exact ⟨by first | exact hk.ctxs | simpa using hk.ctxs | simpa using h.inv.slolos.ctxs, by first | exact hk.marker | simpa using hk.marker | simpa using h.inv.slolos.marker⟩)


theorem goes_execSumDeadline {o : Otp} {q : List Instr} {s : State} (h : Good o q s) : Goes o q (execSumDeadline s) := by
  unfold execSumDeadline
  repeat' first
    | with_reducible assumption
    | with_reducible apply goes_next
    | with_reducible apply good_State_beginSum
    | (with_reducible apply good_foldl; intro _ _ _)
    | dsimp only
    | split
    | (intro hk; (try dsimp only); repeat' first | exact hk | split)


theorem goes_execAllotmentComputed {o : Otp} {q : List Instr} {s : State} (h : Good o q s) : Goes o q (execAllotmentComputed s) := by
  unfold execAllotmentComputed
  split
  · exact goes_next h
  · extract_lets s1 s2
    have h1 : Good o q s1 := by
      unfold s1
      split
      · exact good_State_beginSum h
      · exact h
    clear_value s1
    have k : ∀ t : State, Good o q t → Good o q (t.modSlolos fun y => { y with allotReady := true }) := by
      intro t ht
      refine good_modSlolos ?_ ht
      exact fun hk => ⟨hk.ctxs, hk.marker⟩
    have h2 : Good o q s2 := k _ (good_State_computeAllotment (good_State_sumEcho h1))
    clear_value s2
    refine goes_next ?_
    split
    · exact good_State_allotmentFrame h2
    · exact h2

theorem goes_execAllotmentFrame {o : Otp} {q : List Instr} {s : State} (h : Good o q s) : ∀ a0, Goes o q (execAllotmentFrame a0 s) := by
  intro a0
  unfold execAllotmentFrame
  repeat' first
    | with_reducible assumption
    | with_reducible apply goes_next
    | with_reducible apply good_State_repeatDown
    | with_reducible apply good_State_badFrame
    | with_reducible apply good_modSlolos
    | (with_reducible apply good_foldl; intro _ _ _)
    | dsimp only
    | split
    | (intro hk; (try dsimp only); repeat' first | exact hk | split | exact ⟨by first | exact hk.ctxs | simpa using hk.ctxs | simpa using h.inv.slolos.ctxs, by first | exact hk.marker | simpa using hk.marker | simpa using h.inv.slolos.marker⟩)


theorem goes_execAllotmentMissed {o : Otp} {q : List Instr} {s : State} (h : Good o q s) : Goes o q (execAllotmentMissed s) := by
  unfold execAllotmentMissed
  repeat' first
    | with_reducible assumption
    | with_reducible apply goes_next
    | with_reducible apply good_modTime
    | with_reducible apply good_modSlolos
    | (with_reducible apply good_foldl; intro _ _ _)
    | dsimp only
    | split
    | (intro hk; (try dsimp only); repeat' first | exact hk | split | exact ⟨by first | exact hk.timers | simpa using hk.timers | simpa using h.inv.time.timers, by first | exact hk.captures | simpa using hk.captures | simpa using h.inv.time.captures, by first | exact hk.epoch | simpa using hk.epoch | simpa using h.inv.time.epoch⟩ | exact ⟨by first | exact hk.ctxs | simpa using hk.ctxs | simpa using h.inv.slolos.ctxs, by first | exact hk.marker | simpa using hk.marker | simpa using h.inv.slolos.marker⟩)


theorem goes_execChainStatus {o : Otp} {q : List Instr} {s : State} (h : Good o q s) : ∀ a0 a1, Goes o q (execChainStatus a0 a1 s) :=
  fun x b => goes_next (good_receive keeps_opChainStatus h x b)

theorem goes_execChainWorker {o : Otp} {q : List Instr} {s : State} (h : Good o q s) : ∀ a0 a1, Goes o q (execChainWorker a0 a1 s) :=
  fun x b => goes_next (good_receive keeps_opChainWorker h x b)

theorem goes_execChainEnumerate {o : Otp} {q : List Instr} {s : State} (h : Good o q s) : ∀ a0 a1, Goes o q (execChainEnumerate a0 a1 s) :=
  fun x b => goes_next (good_receive keeps_opChainEnumerate h x b)

theorem goes_execChainReset {o : Otp} {q : List Instr} {s : State} (h : Good o q s) : ∀ a0 a1, Goes o q (execChainReset a0 a1 s) :=
  fun x b => goes_next (good_receive keeps_opChainReset h x b)

theorem goes_execChainConfig {o : Otp} {q : List Instr} {s : State} (h : Good o q s) : ∀ a0 a1, Goes o q (execChainConfig a0 a1 s) :=
  fun x b => goes_next (good_receive keeps_opChainConfig h x b)

theorem goes_execFaultFrame {o : Otp} {q : List Instr} {s : State} (h : Good o q s) : ∀ a0 a1, Goes o q (execFaultFrame a0 a1 s) := by
  intro a0 a1
  unfold execFaultFrame
  repeat' first
    | with_reducible assumption
    | with_reducible apply goes_next
    | with_reducible apply good_State_badFrame
    | with_reducible apply good_State_managerFault
    | with_reducible apply good_State_sendA
    | with_reducible apply good_State_sendB
    | with_reducible apply good_State_workerFault
    | (with_reducible apply good_foldl; intro _ _ _)
    | dsimp only
    | split
    | (intro hk; (try dsimp only); repeat' first | exact hk | split)


theorem goes_execPendantSetpointFrame {o : Otp} {q : List Instr} {s : State} (h : Good o q s) : ∀ a0, Goes o q (execPendantSetpointFrame a0 s) := by
  intro a0
  unfold execPendantSetpointFrame
  repeat' first
    | with_reducible assumption
    | with_reducible apply goes_next
    | with_reducible apply good_State_pendantFrame
    | (with_reducible apply good_foldl; intro _ _ _)
    | dsimp only
    | split
    | (intro hk; (try dsimp only); repeat' first | exact hk | split)


theorem goes_execPendantStatusFrame {o : Otp} {q : List Instr} {s : State} (h : Good o q s) : ∀ a0, Goes o q (execPendantStatusFrame a0 s) := by
  intro a0
  unfold execPendantStatusFrame
  repeat' first
    | with_reducible assumption
    | with_reducible apply goes_next
    | with_reducible apply good_State_pendantFrame
    | (with_reducible apply good_foldl; intro _ _ _)
    | dsimp only
    | split
    | (intro hk; (try dsimp only); repeat' first | exact hk | split)


theorem goes_execPendantGapDiscard {o : Otp} {q : List Instr} {s : State} (h : Good o q s) : Goes o q (execPendantGapDiscard s) := by
  unfold execPendantGapDiscard
  repeat' first
    | with_reducible assumption
    | with_reducible apply goes_next
    | with_reducible apply good_modPendant
    | (with_reducible apply good_foldl; intro _ _ _)
    | dsimp only
    | split
    | (intro hk; (try dsimp only); repeat' first | exact hk | split)


theorem goes_execPendantAnswerReady {o : Otp} {q : List Instr} {s : State} (h : Good o q s) : Goes o q (execPendantAnswerReady s) := by
  unfold execPendantAnswerReady
  repeat' first
    | with_reducible assumption
    | with_reducible apply goes_next
    | with_reducible apply good_modPendant
    | (with_reducible apply good_foldl; intro _ _ _)
    | dsimp only
    | split
    | (intro hk; (try dsimp only); repeat' first | exact hk | split)


theorem goes_execPendantAnswerRead {o : Otp} {q : List Instr} {s : State} (h : Good o q s) : Goes o q (execPendantAnswerRead s) := by
  unfold execPendantAnswerRead
  repeat' first
    | with_reducible assumption
    | with_reducible apply goes_next
    | with_reducible apply good_modPendant
    | (with_reducible apply good_foldl; intro _ _ _)
    | dsimp only
    | split
    | (intro hk; (try dsimp only); repeat' first | exact hk | split)


theorem goes_execPendantAnswerTimeout {o : Otp} {q : List Instr} {s : State} (h : Good o q s) : Goes o q (execPendantAnswerTimeout s) := by
  unfold execPendantAnswerTimeout
  repeat' first
    | with_reducible assumption
    | with_reducible apply goes_next
    | with_reducible apply good_modPendant
    | (with_reducible apply good_foldl; intro _ _ _)
    | dsimp only
    | split
    | (intro hk; (try dsimp only); repeat' first | exact hk | split)


theorem goes_execPendantSlewStep {o : Otp} {q : List Instr} {s : State} (h : Good o q s) : Goes o q (execPendantSlewStep s) := by
  unfold execPendantSlewStep
  repeat' first
    | with_reducible assumption
    | with_reducible apply goes_next
    | with_reducible apply good_modPendant
    | (with_reducible apply good_foldl; intro _ _ _)
    | dsimp only
    | split
    | (intro hk; (try dsimp only); repeat' first | exact hk | split)


theorem goes_execPendantDone {o : Otp} {q : List Instr} {s : State} (h : Good o q s) : Goes o q (execPendantDone s) := by
  unfold execPendantDone
  repeat' first
    | with_reducible assumption
    | with_reducible apply goes_next
    | with_reducible apply good_State_pendantEnd
    | (with_reducible apply good_foldl; intro _ _ _)
    | dsimp only
    | split
    | (intro hk; (try dsimp only); repeat' first | exact hk | split)


theorem goes_execPendantNotSettled {o : Otp} {q : List Instr} {s : State} (h : Good o q s) : Goes o q (execPendantNotSettled s) := by
  unfold execPendantNotSettled
  repeat' first
    | with_reducible assumption
    | with_reducible apply goes_next
    | with_reducible apply good_State_pendantEnd
    | (with_reducible apply good_foldl; intro _ _ _)
    | dsimp only
    | split
    | (intro hk; (try dsimp only); repeat' first | exact hk | split)


theorem goes_execPendantConfig {o : Otp} {q : List Instr} {s : State} (h : Good o q s) : ∀ a0 a1, Goes o q (execPendantConfig a0 a1 s) :=
  fun x b => goes_next (good_receive keeps_opPendantConfig h x b)

theorem goes_execPendantStatus {o : Otp} {q : List Instr} {s : State} (h : Good o q s) : ∀ a0 a1, Goes o q (execPendantStatus a0 a1 s) :=
  fun x b => goes_next (good_receive keeps_opPendantStatus h x b)

theorem goes_execVaonRise {o : Otp} {q : List Instr} {s : State} (h : Good o q s) : Goes o q (execVaonRise s) := by
  unfold execVaonRise
  repeat' first
    | with_reducible assumption
    | with_reducible apply goes_next
    | with_reducible apply good_State_trigger
    | with_reducible apply good_modWdg
    | with_reducible apply good_modSys
    | (with_reducible apply good_foldl; intro _ _ _)
    | dsimp only
    | split
    | (intro hk; (try dsimp only); repeat' first | exact hk | split | exact ⟨by first | exact hk.ready | simpa using hk.ready | simpa using h.inv.sys.ready⟩ | exact ⟨by first | exact hk.count | simpa using hk.count | simpa using h.inv.wdg.count⟩)


theorem goes_execSupplyMonitorTrip {o : Otp} {q : List Instr} {s : State} (h : Good o q s) : ∀ a0, Goes o q (execSupplyMonitorTrip a0 s) := by
  intro a0
  unfold execSupplyMonitorTrip
  repeat' first
    | with_reducible assumption
    | with_reducible apply goes_next
    | with_reducible apply good_modSys
    | with_reducible apply good_State_trigger
    | (with_reducible apply good_foldl; intro _ _ _)
    | dsimp only
    | split
    | (intro hk; (try dsimp only); repeat' first | exact hk | split | exact ⟨by first | exact hk.ready | simpa using hk.ready | simpa using h.inv.sys.ready⟩)


theorem goes_execSupplyMonitorRelease {o : Otp} {q : List Instr} {s : State} (h : Good o q s) : Goes o q (execSupplyMonitorRelease s) := by
  unfold execSupplyMonitorRelease
  repeat' first
    | with_reducible assumption
    | with_reducible apply goes_next
    | with_reducible apply good_modSys
    | (with_reducible apply good_foldl; intro _ _ _)
    | dsimp only
    | split
    | (intro hk; (try dsimp only); repeat' first | exact hk | split | exact ⟨by first | exact hk.ready | simpa using hk.ready | simpa using h.inv.sys.ready⟩)


theorem goes_execNrstLow {o : Otp} {q : List Instr} {s : State} (h : Good o q s) : ∀ a0, Goes o q (execNrstLow a0 s) := by
  intro a0
  unfold execNrstLow
  repeat' first
    | with_reducible assumption
    | with_reducible apply goes_next
    | with_reducible apply good_State_pinReset
    | with_reducible apply good_State_takeBit
    | with_reducible refine good_State_takeBit_eq (by assumption) ?_
    | (with_reducible apply good_foldl; intro _ _ _)
    | dsimp only
    | split
    | (intro hk; (try dsimp only); repeat' first | exact hk | split)


theorem goes_execResetEntry {o : Otp} {q : List Instr} {s : State} (h : Good o q s) : Goes o q (execResetEntry s) := by
  unfold execResetEntry
  repeat' first
    | with_reducible assumption
    | with_reducible apply goes_next
    | with_reducible apply good_modSys
    | with_reducible apply good_State_wipe
    | with_reducible apply good_State_cutCrossings
    | with_reducible apply good_State_interruptFlash
    | (with_reducible apply good_foldl; intro _ _ _)
    | dsimp only
    | split
    | (intro hk; (try dsimp only); repeat' first | exact hk | split | exact ⟨by first | exact hk.ready | simpa using hk.ready | simpa using h.inv.sys.ready⟩)


theorem goes_execResetEnd {o : Otp} {q : List Instr} {s : State} (h : Good o q s) : ∀ a0, Goes o q (execResetEnd a0 s) := by
  intro a0
  unfold execResetEnd
  repeat' first
    | with_reducible assumption
    | with_reducible apply goes_next
    | with_reducible apply good_State_endReset
    | (with_reducible apply good_foldl; intro _ _ _)
    | dsimp only
    | split
    | (intro hk; (try dsimp only); repeat' first | exact hk | split)


theorem goes_execNrstRise {o : Otp} {q : List Instr} {s : State} (h : Good o q s) : ∀ a0, Goes o q (execNrstRise a0 s) := by
  intro a0
  unfold execNrstRise
  repeat' first
    | with_reducible assumption
    | with_reducible apply goes_next
    | with_reducible apply good_modSys
    | with_reducible apply good_State_sampleStraps
    | with_reducible apply good_State_endReset
    | (with_reducible apply good_foldl; intro _ _ _)
    | dsimp only
    | split
    | (intro hk; (try dsimp only); repeat' first | exact hk | split | exact ⟨by first | exact hk.ready | simpa using hk.ready | simpa using h.inv.sys.ready⟩)


theorem goes_execReferenceCheck {o : Otp} {q : List Instr} {s : State} (h : Good o q s) : ∀ a0, Goes o q (execReferenceCheck a0 s) := by
  intro a0
  unfold execReferenceCheck
  repeat' first
    | with_reducible assumption
    | with_reducible apply goes_next
    | with_reducible apply good_modSys
    | (with_reducible apply good_foldl; intro _ _ _)
    | dsimp only
    | split
    | (intro hk; (try dsimp only); repeat' first | exact hk | split | exact ⟨by first | exact hk.ready | simpa using hk.ready | simpa using h.inv.sys.ready⟩)


theorem goes_execPllLock {o : Otp} {q : List Instr} {s : State} (h : Good o q s) : Goes o q (execPllLock s) := by
  unfold execPllLock
  repeat' first
    | with_reducible assumption
    | with_reducible apply goes_next
    | with_reducible apply good_modSys
    | (with_reducible apply good_foldl; intro _ _ _)
    | dsimp only
    | split
    | (intro hk; (try dsimp only); repeat' first | exact hk | split | exact ⟨by first | exact hk.ready | simpa using hk.ready | simpa using h.inv.sys.ready⟩)


theorem goes_execPllLockTimeout {o : Otp} {q : List Instr} {s : State} (h : Good o q s) : Goes o q (execPllLockTimeout s) := by
  unfold execPllLockTimeout
  repeat' first
    | with_reducible assumption
    | with_reducible apply goes_next
    | with_reducible apply good_modSys
    | (with_reducible apply good_foldl; intro _ _ _)
    | dsimp only
    | split
    | (intro hk; (try dsimp only); repeat' first | exact hk | split | exact ⟨by first | exact hk.ready | simpa using hk.ready | simpa using h.inv.sys.ready⟩)


theorem goes_execPllRetryRestart {o : Otp} {q : List Instr} {s : State} (h : Good o q s) : Goes o q (execPllRetryRestart s) := by
  unfold execPllRetryRestart
  repeat' first
    | with_reducible assumption
    | with_reducible apply goes_next
    | with_reducible apply good_modSys
    | (with_reducible apply good_foldl; intro _ _ _)
    | dsimp only
    | split
    | (intro hk; (try dsimp only); repeat' first | exact hk | split | exact ⟨by first | exact hk.ready | simpa using hk.ready | simpa using h.inv.sys.ready⟩)


theorem goes_execClockStart {o : Otp} {q : List Instr} {s : State} (h : Good o q s) : Goes o q (execClockStart s) := by
  unfold execClockStart
  repeat' first
    | with_reducible assumption
    | with_reducible apply goes_next
    | with_reducible apply good_modSys
    | with_reducible apply good_State_clockStart
    | (with_reducible apply good_foldl; intro _ _ _)
    | dsimp only
    | split
    | (intro hk; (try dsimp only); repeat' first | exact hk | split | exact ⟨by first | exact hk.ready | simpa using hk.ready | simpa using h.inv.sys.ready⟩)


theorem goes_execPllLoss {o : Otp} {q : List Instr} {s : State} (h : Good o q s) : Goes o q (execPllLoss s) := by
  unfold execPllLoss
  repeat' first
    | with_reducible assumption
    | with_reducible apply goes_next
    | with_reducible apply good_modSys
    | with_reducible apply good_State_clockLost
    | (with_reducible apply good_foldl; intro _ _ _)
    | dsimp only
    | split
    | (intro hk; (try dsimp only); repeat' first | exact hk | split | exact ⟨by first | exact hk.ready | simpa using hk.ready | simpa using h.inv.sys.ready⟩)


theorem goes_execRefLoss {o : Otp} {q : List Instr} {s : State} (h : Good o q s) : ∀ a0, Goes o q (execRefLoss a0 s) := by
  intro a0
  unfold execRefLoss
  repeat' first
    | with_reducible assumption
    | with_reducible apply goes_next
    | with_reducible apply good_modSys
    | with_reducible apply good_State_clockLost
    | (with_reducible apply good_foldl; intro _ _ _)
    | dsimp only
    | split
    | (intro hk; (try dsimp only); repeat' first | exact hk | split | exact ⟨by first | exact hk.ready | simpa using hk.ready | simpa using h.inv.sys.ready⟩)


theorem goes_execLfrcMeasUpdate {o : Otp} {q : List Instr} {s : State} (h : Good o q s) : ∀ a0, Goes o q (execLfrcMeasUpdate a0 s) := by
  intro a0
  unfold execLfrcMeasUpdate
  repeat' first
    | with_reducible assumption
    | with_reducible apply goes_next
    | with_reducible apply good_modSys
    | (with_reducible apply good_foldl; intro _ _ _)
    | dsimp only
    | split
    | (intro hk; (try dsimp only); repeat' first | exact hk | split | exact ⟨by first | exact hk.ready | simpa using hk.ready | simpa using h.inv.sys.ready⟩)


theorem goes_execBlockReady {o : Otp} {q : List Instr} {s : State} (h : Good o q s) : ∀ a0, Goes o q (execBlockReady a0 s) := by
  intro a0
  unfold execBlockReady
  repeat' first
    | with_reducible assumption
    | with_reducible apply goes_next
    | (with_reducible refine good_State_setReady (by simp) ?_)
    | with_reducible apply good_State_setReady
    | with_reducible apply good_State_armDflt
    | with_reducible apply good_State_wakeWorkers
    | with_reducible apply good_State_claspReady
    | with_reducible apply good_modSys
    | (with_reducible apply good_foldl; intro _ _ _)
    | dsimp only
    | split
    | (intro hk; (try dsimp only); repeat' first | exact hk | split | exact ⟨by first | exact hk.ready | simpa using hk.ready | simpa using h.inv.sys.ready⟩)


theorem goes_execWakeInput {o : Otp} {q : List Instr} {s : State} (h : Good o q s) : ∀ a0 a1, Goes o q (execWakeInput a0 a1 s) := by
  intro a0 a1
  unfold execWakeInput
  repeat' first
    | with_reducible assumption
    | with_reducible apply goes_next
    | with_reducible apply good_modSys
    | with_reducible apply good_State_latchWake
    | (with_reducible apply good_foldl; intro _ _ _)
    | dsimp only
    | split
    | (intro hk; (try dsimp only); repeat' first | exact hk | split | exact ⟨by first | exact hk.ready | simpa using hk.ready | simpa using h.inv.sys.ready⟩)


theorem goes_execWakeTimerExpired {o : Otp} {q : List Instr} {s : State} (h : Good o q s) : Goes o q (execWakeTimerExpired s) := by
  unfold execWakeTimerExpired
  repeat' first
    | with_reducible assumption
    | with_reducible apply goes_next
    | with_reducible apply good_State_latchWake
    | with_reducible apply good_modSys
    | (with_reducible apply good_foldl; intro _ _ _)
    | dsimp only
    | split
    | (intro hk; (try dsimp only); repeat' first | exact hk | split | exact ⟨by first | exact hk.ready | simpa using hk.ready | simpa using h.inv.sys.ready⟩)


theorem goes_execHsCsnWake {o : Otp} {q : List Instr} {s : State} (h : Good o q s) : Goes o q (execHsCsnWake s) := by
  unfold execHsCsnWake
  repeat' first
    | with_reducible assumption
    | with_reducible apply goes_next
    | with_reducible apply good_State_latchWake
    | (with_reducible apply good_foldl; intro _ _ _)
    | dsimp only
    | split
    | (intro hk; (try dsimp only); repeat' first | exact hk | split)


theorem goes_execSlolosWakeDetected {o : Otp} {q : List Instr} {s : State} (h : Good o q s) : Goes o q (execSlolosWakeDetected s) := by
  unfold execSlolosWakeDetected
  repeat' first
    | with_reducible assumption
    | with_reducible apply goes_next
    | with_reducible apply good_State_sendB
    | with_reducible apply good_State_latchWake
    | (with_reducible apply good_foldl; intro _ _ _)
    | dsimp only
    | split
    | (intro hk; (try dsimp only); repeat' first | exact hk | split)


theorem goes_execStandbyWake {o : Otp} {q : List Instr} {s : State} (h : Good o q s) : Goes o q (execStandbyWake s) := by
  unfold execStandbyWake
  repeat' first
    | with_reducible assumption
    | with_reducible apply goes_next
    | with_reducible apply good_modTime
    | with_reducible apply good_modSys
    | with_reducible apply good_modSlolos
    | with_reducible apply good_State_endPast
    | (with_reducible apply good_foldl; intro _ _ _)
    | dsimp only
    | split
    | (intro hk; (try dsimp only); repeat' first | exact hk | split | exact ⟨by first | exact hk.ready | simpa using hk.ready | simpa using h.inv.sys.ready⟩ | exact ⟨by first | exact hk.timers | simpa using hk.timers | simpa using h.inv.time.timers, by first | exact hk.captures | simpa using hk.captures | simpa using h.inv.time.captures, by first | exact hk.epoch | simpa using hk.epoch | simpa using h.inv.time.epoch⟩ | exact ⟨by first | exact hk.ctxs | simpa using hk.ctxs | simpa using h.inv.slolos.ctxs, by first | exact hk.marker | simpa using hk.marker | simpa using h.inv.slolos.marker⟩)


theorem goes_execHibWake {o : Otp} {q : List Instr} {s : State} (h : Good o q s) : Goes o q (execHibWake s) := by
  unfold execHibWake
  repeat' first
    | with_reducible assumption
    | with_reducible apply goes_next
    | with_reducible apply good_State_trigger
    | (with_reducible apply good_foldl; intro _ _ _)
    | dsimp only
    | split
    | (intro hk; (try dsimp only); repeat' first | exact hk | split)


theorem goes_execServiceWake {o : Otp} {q : List Instr} {s : State} (h : Good o q s) : Goes o q (execServiceWake s) := by
  unfold execServiceWake
  repeat' first
    | with_reducible assumption
    | with_reducible apply goes_next
    | with_reducible apply good_modSys
    | (with_reducible apply good_foldl; intro _ _ _)
    | dsimp only
    | split
    | (intro hk; (try dsimp only); repeat' first | exact hk | split | exact ⟨by first | exact hk.ready | simpa using hk.ready | simpa using h.inv.sys.ready⟩)


theorem goes_execServiceWakeReturn {o : Otp} {q : List Instr} {s : State} (h : Good o q s) : Goes o q (execServiceWakeReturn s) := by
  unfold execServiceWakeReturn
  repeat' first
    | with_reducible assumption
    | with_reducible apply goes_next
    | with_reducible apply good_modSys
    | (with_reducible apply good_foldl; intro _ _ _)
    | dsimp only
    | split
    | (intro hk; (try dsimp only); repeat' first | exact hk | with_reducible apply sound_Sys_sleep | split | exact ⟨by first | exact hk.ready | simpa using hk.ready | simpa using h.inv.sys.ready⟩)


theorem goes_execJtagInstruction {o : Otp} {q : List Instr} {s : State} (h : Good o q s) : ∀ a0, Goes o q (execJtagInstruction a0 s) := by
  intro a0
  unfold execJtagInstruction
  repeat' first
    | with_reducible assumption
    | with_reducible apply goes_next
    | with_reducible apply good_modSys
    | (with_reducible apply good_foldl; intro _ _ _)
    | dsimp only
    | split
    | (intro hk; (try dsimp only); repeat' first | exact hk | split | exact ⟨by first | exact hk.ready | simpa using hk.ready | simpa using h.inv.sys.ready⟩)


theorem goes_execEnterStandby {o : Otp} {q : List Instr} {s : State} (h : Good o q s) : ∀ a0 a1, Goes o q (execEnterStandby a0 a1 s) :=
  fun x b => goes_next (good_receive keeps_opEnterStandby h x b)

theorem goes_execEnterHibernate {o : Otp} {q : List Instr} {s : State} (h : Good o q s) : ∀ a0 a1, Goes o q (execEnterHibernate a0 a1 s) :=
  fun x b => goes_next (good_receive keeps_opEnterHibernate h x b)

theorem goes_execSetWake {o : Otp} {q : List Instr} {s : State} (h : Good o q s) : ∀ a0 a1, Goes o q (execSetWake a0 a1 s) :=
  fun x b => goes_next (good_receive keeps_opSetWake h x b)

theorem goes_execSoftReset {o : Otp} {q : List Instr} {s : State} (h : Good o q s) : ∀ a0 a1, Goes o q (execSoftReset a0 a1 s) :=
  fun x b => goes_next (good_receive keeps_opSoftReset h x b)

theorem goes_execTimerOverflow {o : Otp} {q : List Instr} {s : State} (h : Good o q s) : ∀ timer, Goes o q (execTimerOverflow timer s) := by
  intro timer
  unfold execTimerOverflow
  extract_lets t
  split
  · rename_i e
    simp only [Bool.and_eq_true, decide_eq_true_eq] at e
    have h1 : Good o q (s.modTime fun y => y.overflow timer) := good_modTime (fun hk => sound_Time_overflow hk _ e.1.2) h
    exact goes_next (good_State_timerWake h1 _)
  · exact goes_next h

theorem goes_execTimerMatch {o : Otp} {q : List Instr} {s : State} (h : Good o q s) : ∀ a0, Goes o q (execTimerMatch a0 s) := by
  intro a0
  unfold execTimerMatch
  repeat' first
    | with_reducible assumption
    | with_reducible apply goes_next
    | with_reducible apply good_State_timerWake
    | with_reducible apply good_modTime
    | (with_reducible apply good_foldl; intro _ _ _)
    | dsimp only
    | split
    | (intro hk; (try dsimp only); repeat' first | exact hk | with_reducible apply sound_Time_matchNow | split | exact ⟨by first | exact hk.timers | simpa using hk.timers | simpa using h.inv.time.timers, by first | exact hk.captures | simpa using hk.captures | simpa using h.inv.time.captures, by first | exact hk.epoch | simpa using hk.epoch | simpa using h.inv.time.epoch⟩)


theorem goes_execCaptureEdge {o : Otp} {q : List Instr} {s : State} (h : Good o q s) : ∀ input edge,
    Goes o q (execCaptureEdge input edge s) := by
  intro input edge
  unfold execCaptureEdge
  split
  · refine goes_next (good_modTime ?_ h)
    refine fun hk => sound_mapTimers ?_ hk
    intro t ht
    split
    · unfold Timer.capture
      split
      · exact ht
      split
      · simp only [List.length_append, List.length_cons, List.length_nil]
        omega
      · exact ht
    · exact ht
  · exact goes_next h

theorem goes_execLfrcStepSwitch {o : Otp} {q : List Instr} {s : State} (h : Good o q s) : Goes o q (execLfrcStepSwitch s) := by
  unfold execLfrcStepSwitch
  repeat' first
    | with_reducible assumption
    | with_reducible apply goes_next
    | with_reducible apply good_modTime
    | (with_reducible apply good_foldl; intro _ _ _)
    | dsimp only
    | split
    | (intro hk; (try dsimp only); repeat' first | exact hk | split | exact ⟨by first | exact hk.timers | simpa using hk.timers | simpa using h.inv.time.timers, by first | exact hk.captures | simpa using hk.captures | simpa using h.inv.time.captures, by first | exact hk.epoch | simpa using hk.epoch | simpa using h.inv.time.epoch⟩)


theorem goes_execTimerConfig {o : Otp} {q : List Instr} {s : State} (h : Good o q s) : ∀ a0 a1, Goes o q (execTimerConfig a0 a1 s) :=
  fun x b => goes_next (good_receive keeps_opTimerConfig h x b)

theorem goes_execTimerStatus {o : Otp} {q : List Instr} {s : State} (h : Good o q s) : ∀ a0 a1, Goes o q (execTimerStatus a0 a1 s) :=
  fun x b => goes_next (good_receive keeps_opTimerStatus h x b)

theorem goes_execTimerCaptures {o : Otp} {q : List Instr} {s : State} (h : Good o q s) : ∀ a0 a1, Goes o q (execTimerCaptures a0 a1 s) :=
  fun x b => goes_next (good_receive keeps_opTimerCaptures h x b)

theorem goes_execTimeRead {o : Otp} {q : List Instr} {s : State} (h : Good o q s) : ∀ a0 a1, Goes o q (execTimeRead a0 a1 s) :=
  fun x b => goes_next (good_receive keeps_opTimeRead h x b)

theorem goes_execDripLeak {o : Otp} {q : List Instr} {s : State} (h : Good o q s) : ∀ mem, Goes o q (execDripLeak mem s) := by
  intro mem
  unfold execDripLeak
  split
  · refine goes_next (good_modMemi ?_ h)
    refine fun hk => sound_Memi_modRam ?_ hk _
    intro r hr
    exact Nat.le_trans (Nat.sub_le r.count 1) hr
  · exact goes_next h

theorem goes_execScrubVisit {o : Otp} {q : List Instr} {s : State} (h : Good o q s) : ∀ a0 a1 a2 a3 a4, Goes o q (execScrubVisit a0 a1 a2 a3 a4 s) := by
  intro a0 a1 a2 a3 a4
  unfold execScrubVisit
  repeat' first
    | with_reducible assumption
    | with_reducible apply goes_next
    | with_reducible apply good_State_ramUse
    | with_reducible apply good_State_scrub
    | (with_reducible apply good_foldl; intro _ _ _)
    | dsimp only
    | split
    | (intro hk; (try dsimp only); repeat' first | exact hk | split)


theorem goes_execMemiConfig {o : Otp} {q : List Instr} {s : State} (h : Good o q s) : ∀ a0 a1, Goes o q (execMemiConfig a0 a1 s) :=
  fun x b => goes_next (good_receive keeps_opMemiConfig h x b)

theorem goes_execMemiRead {o : Otp} {q : List Instr} {s : State} (h : Good o q s) : ∀ a0 a1, Goes o q (execMemiRead a0 a1 s) :=
  fun x b => goes_next (good_receive keeps_opMemiRead h x b)

theorem goes_execMemiInject {o : Otp} {q : List Instr} {s : State} (h : Good o q s) : ∀ a0 a1, Goes o q (execMemiInject a0 a1 s) :=
  fun x b => goes_next (good_receive keeps_opMemiInject h x b)

theorem goes_execClaspSenseChange {o : Otp} {q : List Instr} {s : State} (h : Good o q s) : ∀ a0 a1 a2, Goes o q (execClaspSenseChange a0 a1 a2 s) := by
  intro a0 a1 a2
  unfold execClaspSenseChange
  repeat' first
    | with_reducible assumption
    | with_reducible apply goes_next
    | with_reducible apply good_State_modPort
    | with_reducible apply good_State_portRest
    | (with_reducible apply good_foldl; intro _ _ _)
    | dsimp only
    | split
    | (intro hk; (try dsimp only); repeat' first | exact hk | split)


theorem goes_execClaspAttachTimer {o : Otp} {q : List Instr} {s : State} (h : Good o q s) : ∀ a0, Goes o q (execClaspAttachTimer a0 s) := by
  intro a0
  unfold execClaspAttachTimer
  repeat' first
    | with_reducible assumption
    | with_reducible apply goes_next
    | with_reducible apply good_State_modPort
    | with_reducible apply good_State_setPort
    | with_reducible apply good_State_attachOutcome
    | with_reducible apply good_State_attach
    | (with_reducible apply good_foldl; intro _ _ _)
    | dsimp only
    | split
    | (intro hk; (try dsimp only); repeat' first | exact hk | split)


theorem goes_execClaspToggle {o : Otp} {q : List Instr} {s : State} (h : Good o q s) : ∀ a0, Goes o q (execClaspToggle a0 s) := by
  intro a0
  unfold execClaspToggle
  repeat' first
    | with_reducible assumption
    | with_reducible apply goes_next
    | with_reducible apply good_State_modPort
    | (with_reducible apply good_foldl; intro _ _ _)
    | dsimp only
    | split
    | (intro hk; (try dsimp only); repeat' first | exact hk | split)


theorem goes_execClaspTryTimeout {o : Otp} {q : List Instr} {s : State} (h : Good o q s) : ∀ a0, Goes o q (execClaspTryTimeout a0 s) := by
  intro a0
  unfold execClaspTryTimeout
  repeat' first
    | with_reducible assumption
    | with_reducible apply goes_next
    | with_reducible apply good_State_modPort
    | with_reducible apply good_State_setPort
    | with_reducible apply good_State_portRest
    | (with_reducible apply good_foldl; intro _ _ _)
    | dsimp only
    | split
    | (intro hk; (try dsimp only); repeat' first | exact hk | split)


theorem goes_execClaspDetachDetected {o : Otp} {q : List Instr} {s : State} (h : Good o q s) : ∀ a0, Goes o q (execClaspDetachDetected a0 s) := by
  intro a0
  unfold execClaspDetachDetected
  repeat' first
    | with_reducible assumption
    | with_reducible apply goes_next
    | with_reducible apply good_modClasp
    | with_reducible apply good_State_tiePulled
    | with_reducible apply good_State_recordClass
    | with_reducible apply good_State_setChan
    | with_reducible apply good_State_recover
    | with_reducible apply good_State_modPort
    | (with_reducible apply good_foldl; intro _ _ _)
    | dsimp only
    | split
    | (intro hk; (try dsimp only); repeat' first | exact hk | split | exact ⟨by first | exact hk.ports | simpa using hk.ports | simpa using h.inv.clasp.ports⟩)


theorem goes_execClaspRecoveryEnd {o : Otp} {q : List Instr} {s : State} (h : Good o q s) : ∀ a0, Goes o q (execClaspRecoveryEnd a0 s) := by
  intro a0
  unfold execClaspRecoveryEnd
  repeat' first
    | with_reducible assumption
    | with_reducible apply goes_next
    | with_reducible apply good_State_portRest
    | (with_reducible apply good_foldl; intro _ _ _)
    | dsimp only
    | split
    | (intro hk; (try dsimp only); repeat' first | exact hk | split)


theorem goes_execCaps {o : Otp} {q : List Instr} {s : State} (h : Good o q s) : ∀ a0 a1 a2 a3 a4, Goes o q (execCaps a0 a1 a2 a3 a4 s) := by
  intro a0 a1 a2 a3 a4
  unfold execCaps
  repeat' first
    | with_reducible assumption
    | with_reducible apply goes_next
    | with_reducible apply good_State_claspRequest
    | with_reducible apply good_State_onCaps
    | with_reducible refine good_State_onCaps_eq (by assumption) ?_
    | (with_reducible apply good_foldl; intro _ _ _)
    | dsimp only
    | split
    | (intro hk; (try dsimp only); repeat' first | exact hk | split)


theorem goes_execRequest {o : Otp} {q : List Instr} {s : State} (h : Good o q s) : ∀ a0 a1 a2 a3 a4, Goes o q (execRequest a0 a1 a2 a3 a4 s) := by
  intro a0 a1 a2 a3 a4
  unfold execRequest
  repeat' first
    | with_reducible assumption
    | with_reducible apply goes_next
    | with_reducible apply good_State_claspRequest
    | with_reducible apply good_State_onRequest
    | with_reducible refine good_State_onRequest_eq (by assumption) ?_
    | (with_reducible apply good_foldl; intro _ _ _)
    | dsimp only
    | split
    | (intro hk; (try dsimp only); repeat' first | exact hk | split)


theorem goes_execReady {o : Otp} {q : List Instr} {s : State} (h : Good o q s) : ∀ a0 a1 a2 a3 a4, Goes o q (execReady a0 a1 a2 a3 a4 s) := by
  intro a0 a1 a2 a3 a4
  unfold execReady
  repeat' first
    | with_reducible assumption
    | with_reducible apply goes_next
    | with_reducible apply good_State_claspRequest
    | with_reducible apply good_State_onReady
    | with_reducible refine good_State_onReady_eq (by assumption) ?_
    | (with_reducible apply good_foldl; intro _ _ _)
    | dsimp only
    | split
    | (intro hk; (try dsimp only); repeat' first | exact hk | split)


theorem goes_execSwapJs {o : Otp} {q : List Instr} {s : State} (h : Good o q s) : ∀ a0 a1 a2 a3 a4, Goes o q (execSwapJs a0 a1 a2 a3 a4 s) := by
  intro a0 a1 a2 a3 a4
  unfold execSwapJs
  repeat' first
    | with_reducible assumption
    | with_reducible apply goes_next
    | with_reducible apply good_State_claspRequest
    | with_reducible apply good_State_onSwap
    | with_reducible refine good_State_onSwap_eq (by assumption) ?_
    | (with_reducible apply good_foldl; intro _ _ _)
    | dsimp only
    | split
    | (intro hk; (try dsimp only); repeat' first | exact hk | split)


theorem goes_execHold {o : Otp} {q : List Instr} {s : State} (h : Good o q s) : ∀ a0 a1 a2 a3 a4, Goes o q (execHold a0 a1 a2 a3 a4 s) := by
  intro a0 a1 a2 a3 a4
  unfold execHold
  repeat' first
    | with_reducible assumption
    | with_reducible apply goes_next
    | with_reducible apply good_State_claspRequest
    | with_reducible apply good_State_onHold
    | with_reducible refine good_State_onHold_eq (by assumption) ?_
    | (with_reducible apply good_foldl; intro _ _ _)
    | dsimp only
    | split
    | (intro hk; (try dsimp only); repeat' first | exact hk | split)


theorem goes_execDetach {o : Otp} {q : List Instr} {s : State} (h : Good o q s) : ∀ a0 a1 a2 a3 a4, Goes o q (execDetach a0 a1 a2 a3 a4 s) := by
  intro a0 a1 a2 a3 a4
  unfold execDetach
  repeat' first
    | with_reducible assumption
    | with_reducible apply goes_next
    | with_reducible apply good_State_claspRequest
    | with_reducible apply good_State_onDetach
    | with_reducible refine good_State_onDetach_eq (by assumption) ?_
    | (with_reducible apply good_foldl; intro _ _ _)
    | dsimp only
    | split
    | (intro hk; (try dsimp only); repeat' first | exact hk | split)


theorem goes_execAccept {o : Otp} {q : List Instr} {s : State} (h : Good o q s) : ∀ port fromB seqNo answers payload,
    Goes o q (execAccept port fromB seqNo answers payload s) := by
  intro port fromB seqNo answers payload
  unfold execAccept
  refine goes_next (good_State_claspAnswer ?_ h _ _ _ _ _ _)
  intro s m h
  split
  · exact good_State_accepted h _ _ _
  · refine good_modClasp ?_ h
    exact fun hk => ⟨hk.ports⟩

theorem goes_execReject {o : Otp} {q : List Instr} {s : State} (h : Good o q s) : ∀ a0 a1 a2 a3 a4, Goes o q (execReject a0 a1 a2 a3 a4 s) := by
  intro a0 a1 a2 a3 a4
  unfold execReject
  repeat' first
    | with_reducible assumption
    | with_reducible apply goes_next
    | with_reducible apply good_State_claspAnswer
    | with_reducible apply good_State_rejected
    | (with_reducible apply good_foldl; intro _ _ _)
    | dsimp only
    | split
    | (intro hk; (try dsimp only); repeat' first | exact hk | split)


theorem goes_execClaspBadMessage {o : Otp} {q : List Instr} {s : State} (h : Good o q s) : ∀ a0, Goes o q (execClaspBadMessage a0 s) := by
  intro a0
  unfold execClaspBadMessage
  repeat' first
    | with_reducible assumption
    | with_reducible apply goes_next
    | with_reducible apply good_modClasp
    | (with_reducible apply good_foldl; intro _ _ _)
    | dsimp only
    | split
    | (intro hk; (try dsimp only); repeat' first | exact hk | split | exact ⟨by first | exact hk.ports | simpa using hk.ports | simpa using h.inv.clasp.ports⟩)


theorem goes_execClaspLineIdle {o : Otp} {q : List Instr} {s : State} (h : Good o q s) : ∀ a0, Goes o q (execClaspLineIdle a0 s) := by
  intro a0
  unfold execClaspLineIdle
  repeat' first
    | with_reducible assumption
    | with_reducible apply goes_next
    | with_reducible apply good_State_modPort
    | with_reducible apply good_State_owedCaps
    | (with_reducible apply good_foldl; intro _ _ _)
    | dsimp only
    | split
    | (intro hk; (try dsimp only); repeat' first | exact hk | split)


theorem goes_execClaspMessageSent {o : Otp} {q : List Instr} {s : State} (h : Good o q s) : ∀ a0, Goes o q (execClaspMessageSent a0 s) := by
  intro a0
  unfold execClaspMessageSent
  repeat' first
    | with_reducible assumption
    | with_reducible apply goes_next
    | with_reducible apply good_State_modPort
    | with_reducible apply good_State_enterTransition
    | (with_reducible apply good_foldl; intro _ _ _)
    | dsimp only
    | split
    | (intro hk; (try dsimp only); repeat' first | exact hk | split)


theorem goes_execClaspCollision {o : Otp} {q : List Instr} {s : State} (h : Good o q s) : ∀ a0, Goes o q (execClaspCollision a0 s) := by
  intro a0
  unfold execClaspCollision
  repeat' first
    | with_reducible assumption
    | with_reducible apply goes_next
    | with_reducible apply good_modClasp
    | with_reducible apply good_State_modPort
    | (with_reducible apply good_foldl; intro _ _ _)
    | dsimp only
    | split
    | (intro hk; (try dsimp only); repeat' first | exact hk | split | exact ⟨by first | exact hk.ports | simpa using hk.ports | simpa using h.inv.clasp.ports⟩)


theorem goes_execClaspRetryIdle {o : Otp} {q : List Instr} {s : State} (h : Good o q s) : ∀ a0, Goes o q (execClaspRetryIdle a0 s) := by
  intro a0
  unfold execClaspRetryIdle
  repeat' first
    | with_reducible assumption
    | with_reducible apply goes_next
    | with_reducible apply good_State_modPort
    | (with_reducible apply good_foldl; intro _ _ _)
    | dsimp only
    | split
    | (intro hk; (try dsimp only); repeat' first | exact hk | split)


theorem goes_execClaspAnswerTimeout {o : Otp} {q : List Instr} {s : State} (h : Good o q s) : ∀ a0, Goes o q (execClaspAnswerTimeout a0 s) := by
  intro a0
  unfold execClaspAnswerTimeout
  repeat' first
    | with_reducible assumption
    | with_reducible apply goes_next
    | with_reducible apply good_modClasp
    | with_reducible apply good_State_modPort
    | with_reducible apply good_State_silence
    | (with_reducible apply good_foldl; intro _ _ _)
    | dsimp only
    | split
    | (intro hk; (try dsimp only); repeat' first | exact hk | split | exact ⟨by first | exact hk.ports | simpa using hk.ports | simpa using h.inv.clasp.ports⟩)


theorem goes_execClaspTransitionTimeout {o : Otp} {q : List Instr} {s : State} (h : Good o q s) : ∀ a0, Goes o q (execClaspTransitionTimeout a0 s) := by
  intro a0
  unfold execClaspTransitionTimeout
  repeat' first
    | with_reducible assumption
    | with_reducible apply goes_next
    | with_reducible apply good_State_sendHold
    | (with_reducible apply good_foldl; intro _ _ _)
    | dsimp only
    | split
    | (intro hk; (try dsimp only); repeat' first | exact hk | split)


theorem goes_execClaspHoldTimeout {o : Otp} {q : List Instr} {s : State} (h : Good o q s) : ∀ a0, Goes o q (execClaspHoldTimeout a0 s) := by
  intro a0
  unfold execClaspHoldTimeout
  repeat' first
    | with_reducible assumption
    | with_reducible apply goes_next
    | with_reducible apply good_State_recover
    | with_reducible apply good_State_portDetach
    | (with_reducible apply good_foldl; intro _ _ _)
    | dsimp only
    | split
    | (intro hk; (try dsimp only); repeat' first | exact hk | split)


theorem goes_execClaspSwapDelay {o : Otp} {q : List Instr} {s : State} (h : Good o q s) : ∀ a0, Goes o q (execClaspSwapDelay a0 s) := by
  intro a0
  unfold execClaspSwapDelay
  repeat' first
    | with_reducible assumption
    | with_reducible apply goes_next
    | with_reducible apply good_State_modPort
    | with_reducible apply good_State_portSend
    | (with_reducible apply good_foldl; intro _ _ _)
    | dsimp only
    | split
    | (intro hk; (try dsimp only); repeat' first | exact hk | split)


theorem goes_execClaspConfig {o : Otp} {q : List Instr} {s : State} (h : Good o q s) : ∀ a0 a1, Goes o q (execClaspConfig a0 a1 s) :=
  fun x b => goes_next (good_receive keeps_opClaspConfig h x b)

theorem goes_execClaspStatus {o : Otp} {q : List Instr} {s : State} (h : Good o q s) : ∀ a0 a1, Goes o q (execClaspStatus a0 a1 s) :=
  fun x b => goes_next (good_receive keeps_opClaspStatus h x b)

theorem goes_execClaspRequest {o : Otp} {q : List Instr} {s : State} (h : Good o q s) : ∀ a0 a1, Goes o q (execClaspRequest a0 a1 s) :=
  fun x b => goes_next (good_receive keeps_opClaspRequest h x b)

theorem goes_execClaspSwapJs {o : Otp} {q : List Instr} {s : State} (h : Good o q s) : ∀ a0 a1, Goes o q (execClaspSwapJs a0 a1 s) :=
  fun x b => goes_next (good_receive keeps_opClaspSwapJs h x b)

theorem goes_execClaspHold {o : Otp} {q : List Instr} {s : State} (h : Good o q s) : ∀ a0 a1, Goes o q (execClaspHold a0 a1 s) :=
  fun x b => goes_next (good_receive keeps_opClaspHold h x b)

theorem goes_execClaspDetach {o : Otp} {q : List Instr} {s : State} (h : Good o q s) : ∀ a0 a1, Goes o q (execClaspDetach a0 a1 s) :=
  fun x b => goes_next (good_receive keeps_opClaspDetach h x b)

theorem good_State_unknownCommand {o : Otp} {q : List Instr} {s : State} (h : Good o q s) : ∀ a0, Good o q (s.unknownCommand a0) := by
  intro a0
  unfold State.unknownCommand
  split
  · exact good_State_spiHung h _
  · refine good_modCmd ?_ (good_State_sendMiso (good_State_spiBegin h) _)
    exact fun hk => sound_countFraming hk

theorem goes_execWritePacket {o : Otp} {q : List Instr} {s : State} (h : Good o q s) : ∀ a0, Goes o q (execWritePacket a0 s) := by
  intro a0
  unfold execWritePacket
  repeat' first
    | with_reducible assumption
    | with_reducible apply goes_next
    | with_reducible apply good_State_writePacket
    | with_reducible apply good_State_unknownCommand
    | (with_reducible apply good_foldl; intro _ _ _)
    | dsimp only
    | split
    | (intro hk; (try dsimp only); repeat' first | exact hk | split)


theorem goes_execReadPacket {o : Otp} {q : List Instr} {s : State} (h : Good o q s) : ∀ a0, Goes o q (execReadPacket a0 s) := by
  intro a0
  unfold execReadPacket
  repeat' first
    | with_reducible assumption
    | with_reducible apply goes_next
    | with_reducible apply good_State_readPacket
    | (with_reducible apply good_foldl; intro _ _ _)
    | dsimp only
    | split
    | (intro hk; (try dsimp only); repeat' first | exact hk | split)


theorem goes_execWindowRead {o : Otp} {q : List Instr} {s : State} (h : Good o q s) : ∀ a0 a1, Goes o q (execWindowRead a0 a1 s) := by
  intro a0 a1
  unfold execWindowRead
  repeat' first
    | with_reducible assumption
    | with_reducible apply goes_next
    | with_reducible apply good_State_windowRead
    | (with_reducible apply good_foldl; intro _ _ _)
    | dsimp only
    | split
    | (intro hk; (try dsimp only); repeat' first | exact hk | split)


theorem goes_execWindowWrite {o : Otp} {q : List Instr} {s : State} (h : Good o q s) : ∀ a0 a1, Goes o q (execWindowWrite a0 a1 s) := by
  intro a0 a1
  unfold execWindowWrite
  repeat' first
    | with_reducible assumption
    | with_reducible apply goes_next
    | with_reducible apply good_State_windowWrite
    | (with_reducible apply good_foldl; intro _ _ _)
    | dsimp only
    | split
    | (intro hk; (try dsimp only); repeat' first | exact hk | split)


theorem goes_execStatus {o : Otp} {q : List Instr} {s : State} (h : Good o q s) : Goes o q (execStatus s) := by
  unfold execStatus
  repeat' first
    | with_reducible assumption
    | with_reducible apply goes_next
    | with_reducible apply good_State_spiHung
    | with_reducible apply good_State_sendMiso
    | with_reducible apply good_State_spiBegin
    | with_reducible apply good_modCmd
    | (with_reducible apply good_foldl; intro _ _ _)
    | dsimp only
    | split
    | (intro hk; (try dsimp only); repeat' first | exact hk | with_reducible apply sound_countFraming | split | exact sound_filterFlights hk | exact sound_dropFlight hk | exact hk.of_eq rfl rfl rfl rfl rfl rfl rfl)


theorem goes_execCmdErrorsRead {o : Otp} {q : List Instr} {s : State} (h : Good o q s) : Goes o q (execCmdErrorsRead s) := by
  unfold execCmdErrorsRead
  repeat' first
    | with_reducible assumption
    | with_reducible apply goes_next
    | with_reducible apply good_State_windowRead
    | (with_reducible apply good_foldl; intro _ _ _)
    | dsimp only
    | split
    | (intro hk; (try dsimp only); repeat' first | exact hk | split)


theorem goes_execPendantCountRead {o : Otp} {q : List Instr} {s : State} (h : Good o q s) : Goes o q (execPendantCountRead s) := by
  unfold execPendantCountRead
  repeat' first
    | with_reducible assumption
    | with_reducible apply goes_next
    | with_reducible apply good_State_windowRead
    | (with_reducible apply good_foldl; intro _ _ _)
    | dsimp only
    | split
    | (intro hk; (try dsimp only); repeat' first | exact hk | split)


theorem goes_execSlolosErrorsRead {o : Otp} {q : List Instr} {s : State} (h : Good o q s) : Goes o q (execSlolosErrorsRead s) := by
  unfold execSlolosErrorsRead
  repeat' first
    | with_reducible assumption
    | with_reducible apply goes_next
    | with_reducible apply good_State_windowRead
    | (with_reducible apply good_foldl; intro _ _ _)
    | dsimp only
    | split
    | (intro hk; (try dsimp only); repeat' first | exact hk | split)


theorem goes_execClaspCountRead {o : Otp} {q : List Instr} {s : State} (h : Good o q s) : ∀ a0, Goes o q (execClaspCountRead a0 s) := by
  intro a0
  unfold execClaspCountRead
  repeat' first
    | with_reducible assumption
    | with_reducible apply goes_next
    | with_reducible apply good_State_windowRead
    | (with_reducible apply good_foldl; intro _ _ _)
    | dsimp only
    | split
    | (intro hk; (try dsimp only); repeat' first | exact hk | split)


theorem goes_execMemiStatusRead {o : Otp} {q : List Instr} {s : State} (h : Good o q s) : Goes o q (execMemiStatusRead s) := by
  unfold execMemiStatusRead
  repeat' first
    | with_reducible assumption
    | with_reducible apply goes_next
    | with_reducible apply good_State_windowRead
    | (with_reducible apply good_foldl; intro _ _ _)
    | dsimp only
    | split
    | (intro hk; (try dsimp only); repeat' first | exact hk | split)


theorem goes_execMemiCorrRead {o : Otp} {q : List Instr} {s : State} (h : Good o q s) : ∀ a0, Goes o q (execMemiCorrRead a0 s) := by
  intro a0
  unfold execMemiCorrRead
  repeat' first
    | with_reducible assumption
    | with_reducible apply goes_next
    | with_reducible apply good_State_windowRead
    | (with_reducible apply good_foldl; intro _ _ _)
    | dsimp only
    | split
    | (intro hk; (try dsimp only); repeat' first | exact hk | split)


theorem goes_execTimerCapstatRead {o : Otp} {q : List Instr} {s : State} (h : Good o q s) : ∀ a0, Goes o q (execTimerCapstatRead a0 s) := by
  intro a0
  unfold execTimerCapstatRead
  repeat' first
    | with_reducible assumption
    | with_reducible apply goes_next
    | with_reducible apply good_State_windowRead
    | (with_reducible apply good_foldl; intro _ _ _)
    | dsimp only
    | split
    | (intro hk; (try dsimp only); repeat' first | exact hk | split)


theorem goes_execTimerCaptureRead {o : Otp} {q : List Instr} {s : State} (h : Good o q s) : ∀ a0, Goes o q (execTimerCaptureRead a0 s) := by
  intro a0
  unfold execTimerCaptureRead
  repeat' first
    | with_reducible assumption
    | with_reducible apply goes_next
    | with_reducible apply good_State_windowRead
    | (with_reducible apply good_foldl; intro _ _ _)
    | dsimp only
    | split
    | (intro hk; (try dsimp only); repeat' first | exact hk | split)


theorem goes_execTimeSysLoRead {o : Otp} {q : List Instr} {s : State} (h : Good o q s) : Goes o q (execTimeSysLoRead s) := by
  unfold execTimeSysLoRead
  repeat' first
    | with_reducible assumption
    | with_reducible apply goes_next
    | with_reducible apply good_State_windowRead
    | (with_reducible apply good_foldl; intro _ _ _)
    | dsimp only
    | split
    | (intro hk; (try dsimp only); repeat' first | exact hk | split)


theorem goes_execTimerCountLatchRead {o : Otp} {q : List Instr} {s : State} (h : Good o q s) : ∀ a0, Goes o q (execTimerCountLatchRead a0 s) := by
  intro a0
  unfold execTimerCountLatchRead
  repeat' first
    | with_reducible assumption
    | with_reducible apply goes_next
    | with_reducible apply good_State_windowRead
    | (with_reducible apply good_foldl; intro _ _ _)
    | dsimp only
    | split
    | (intro hk; (try dsimp only); repeat' first | exact hk | split)


theorem goes_execTimeEpochNumRead {o : Otp} {q : List Instr} {s : State} (h : Good o q s) : Goes o q (execTimeEpochNumRead s) := by
  unfold execTimeEpochNumRead
  repeat' first
    | with_reducible assumption
    | with_reducible apply goes_next
    | with_reducible apply good_State_windowRead
    | (with_reducible apply good_foldl; intro _ _ _)
    | dsimp only
    | split
    | (intro hk; (try dsimp only); repeat' first | exact hk | split)


theorem goes_execTimerCompareWrite {o : Otp} {q : List Instr} {s : State} (h : Good o q s) : ∀ a0 a1, Goes o q (execTimerCompareWrite a0 a1 s) := by
  intro a0 a1
  unfold execTimerCompareWrite
  repeat' first
    | with_reducible assumption
    | with_reducible apply goes_next
    | with_reducible apply good_State_windowWrite
    | (with_reducible apply good_foldl; intro _ _ _)
    | dsimp only
    | split
    | (intro hk; (try dsimp only); repeat' first | exact hk | split)


theorem goes_execTimerPeriodWrite {o : Otp} {q : List Instr} {s : State} (h : Good o q s) : ∀ a0 a1, Goes o q (execTimerPeriodWrite a0 a1 s) := by
  intro a0 a1
  unfold execTimerPeriodWrite
  repeat' first
    | with_reducible assumption
    | with_reducible apply goes_next
    | with_reducible apply good_State_windowWrite
    | (with_reducible apply good_foldl; intro _ _ _)
    | dsimp only
    | split
    | (intro hk; (try dsimp only); repeat' first | exact hk | split)


theorem goes_execTimerCountWrite {o : Otp} {q : List Instr} {s : State} (h : Good o q s) : ∀ a0 a1, Goes o q (execTimerCountWrite a0 a1 s) := by
  intro a0 a1
  unfold execTimerCountWrite
  repeat' first
    | with_reducible assumption
    | with_reducible apply goes_next
    | with_reducible apply good_State_windowWrite
    | (with_reducible apply good_foldl; intro _ _ _)
    | dsimp only
    | split
    | (intro hk; (try dsimp only); repeat' first | exact hk | split)


theorem goes_execMeasViewHoldWrite {o : Otp} {q : List Instr} {s : State} (h : Good o q s) : ∀ a0, Goes o q (execMeasViewHoldWrite a0 s) := by
  intro a0
  unfold execMeasViewHoldWrite
  repeat' first
    | with_reducible assumption
    | with_reducible apply goes_next
    | with_reducible apply good_State_windowWrite
    | (with_reducible apply good_foldl; intro _ _ _)
    | dsimp only
    | split
    | (intro hk; (try dsimp only); repeat' first | exact hk | split)


theorem goes_execWdgService {o : Otp} {q : List Instr} {s : State} (h : Good o q s) : ∀ a0, Goes o q (execWdgService a0 s) := by
  intro a0
  unfold execWdgService
  repeat' first
    | with_reducible assumption
    | with_reducible apply goes_next
    | with_reducible apply good_State_wdgExpire
    | with_reducible apply good_State_wdgReset
    | with_reducible apply good_modWdg
    | (with_reducible apply good_foldl; intro _ _ _)
    | dsimp only
    | split
    | (intro hk; (try dsimp only); repeat' first | exact hk | with_reducible apply sound_Wdg_served | split | exact ⟨by first | exact hk.count | simpa using hk.count | simpa using h.inv.wdg.count⟩)


theorem goes_execWdgWindowWrite {o : Otp} {q : List Instr} {s : State} (h : Good o q s) : ∀ a0, Goes o q (execWdgWindowWrite a0 s) := by
  intro a0
  unfold execWdgWindowWrite
  repeat' first
    | with_reducible assumption
    | with_reducible apply goes_next
    | with_reducible apply good_modWdg
    | (with_reducible apply good_foldl; intro _ _ _)
    | dsimp only
    | split
    | (intro hk; (try dsimp only); repeat' first | exact hk | split | exact ⟨by first | exact hk.count | simpa using hk.count | simpa using h.inv.wdg.count⟩)


theorem goes_execWdgExpire {o : Otp} {q : List Instr} {s : State} (h : Good o q s) : Goes o q (execWdgExpire s) := by
  unfold execWdgExpire
  repeat' first
    | with_reducible assumption
    | with_reducible apply goes_next
    | with_reducible apply good_State_wdgExpire
    | with_reducible apply good_modWdg
    | (with_reducible apply good_foldl; intro _ _ _)
    | dsimp only
    | split
    | (intro hk; (try dsimp only); repeat' first | exact hk | split | exact ⟨by first | exact hk.count | simpa using hk.count | simpa using h.inv.wdg.count⟩)


theorem goes_execWdgClkmon {o : Otp} {q : List Instr} {s : State} (h : Good o q s) : Goes o q (execWdgClkmon s) := by
  unfold execWdgClkmon
  repeat' first
    | with_reducible assumption
    | with_reducible apply goes_next
    | with_reducible apply good_State_wdgReset
    | with_reducible apply good_modSys
    | with_reducible apply good_modWdg
    | (with_reducible apply good_foldl; intro _ _ _)
    | dsimp only
    | split
    | (intro hk; (try dsimp only); repeat' first | exact hk | split | exact ⟨by first | exact hk.ready | simpa using hk.ready | simpa using h.inv.sys.ready⟩ | exact ⟨by first | exact hk.count | simpa using hk.count | simpa using h.inv.wdg.count⟩)


theorem goes_execLfrcResume {o : Otp} {q : List Instr} {s : State} (h : Good o q s) : Goes o q (execLfrcResume s) := by
  unfold execLfrcResume
  repeat' first
    | with_reducible assumption
    | with_reducible apply goes_next
    | with_reducible apply good_modSys
    | with_reducible apply good_modWdg
    | (with_reducible apply good_foldl; intro _ _ _)
    | dsimp only
    | split
    | (intro hk; (try dsimp only); repeat' first | exact hk | split | exact ⟨by first | exact hk.ready | simpa using hk.ready | simpa using h.inv.sys.ready⟩ | exact ⟨by first | exact hk.count | simpa using hk.count | simpa using h.inv.wdg.count⟩)


theorem goes_execCertLoad {o : Otp} {q : List Instr} {s : State} (h : Good o q s) : ∀ a0 a1, Goes o q (execCertLoad a0 a1 s) :=
  fun x b => goes_next (good_receive keeps_opCertLoad h x b)

theorem goes_execCertVerified {o : Otp} {q : List Instr} {s : State} (h : Good o q s) : Goes o q (execCertVerified s) := by
  unfold execCertVerified
  repeat' first
    | with_reducible assumption
    | with_reducible apply goes_next
    | with_reducible apply good_modGeode
    | with_reducible apply good_State_finish
    | with_reducible apply good_State_holdCert
    | (with_reducible apply good_foldl; intro _ _ _)
    | dsimp only
    | split
    | (intro hk; (try dsimp only); repeat' first | exact hk | split)


theorem goes_execCertCommitted {o : Otp} {q : List Instr} {s : State} (h : Good o q s) : Goes o q (execCertCommitted s) := by
  unfold execCertCommitted
  split
  · extract_lets a
    refine goes_next ?_
    split
    · refine good_modFlash ?_ (good_State_finishKey (good_modFlash ?_ h) _ _)
      · exact fun hk => sound_Flash_eraseCopy hk _
      · exact fun hk => ⟨(sound_Flash_setCopy hk _ _).staging⟩
    · refine good_State_finishKey (good_modFlash ?_ h) _ _
      exact fun hk => ⟨(sound_Flash_setCopy hk _ _).staging⟩
  · exact goes_next h

theorem goes_execCertEraseDone {o : Otp} {q : List Instr} {s : State} (h : Good o q s) : Goes o q (execCertEraseDone s) := by
  unfold execCertEraseDone
  repeat' first
    | with_reducible assumption
    | with_reducible apply goes_next
    | with_reducible apply good_State_flashIdle
    | with_reducible apply good_modFlash
    | (with_reducible apply good_foldl; intro _ _ _)
    | dsimp only
    | split
    | (intro hk; (try dsimp only); repeat' first | exact hk | split | exact ⟨by first | exact hk.staging | simpa using hk.staging | simpa using h.inv.flash.staging⟩)


theorem goes_execCertRead {o : Otp} {q : List Instr} {s : State} (h : Good o q s) : ∀ a0 a1, Goes o q (execCertRead a0 a1 s) :=
  fun x b => goes_next (good_receive keeps_opCertRead h x b)

theorem goes_execFenceStatus {o : Otp} {q : List Instr} {s : State} (h : Good o q s) : ∀ a0 a1, Goes o q (execFenceStatus a0 a1 s) :=
  fun x b => goes_next (good_receive keeps_opFenceStatus h x b)

theorem goes_execAppCoreActuatorWrite {o : Otp} {q : List Instr} {s : State} (h : Good o q s) : ∀ a0 a1, Goes o q (execAppCoreActuatorWrite a0 a1 s) := by
  intro a0 a1
  unfold execAppCoreActuatorWrite
  repeat' first
    | with_reducible assumption
    | with_reducible apply goes_next
    | with_reducible apply good_State_coreRegister
    | with_reducible apply good_State_writeActuator
    | (with_reducible apply good_foldl; intro _ _ _)
    | dsimp only
    | split
    | (intro hk; (try dsimp only); repeat' first | exact hk | split)


theorem goes_execUpdateEraseDone {o : Otp} {q : List Instr} {s : State} (h : Good o q s) : Goes o q (execUpdateEraseDone s) := by
  unfold execUpdateEraseDone
  split
  · refine goes_next ?_
    split
    · split
      · split
        · refine good_State_flashIdle (good_State_appendOwn (good_modFlash ?_ h) _)
          exact fun hk => ⟨(sound_Flash_setSlot hk _ _).staging⟩
        · refine good_State_flashIdle (good_modFlash ?_ h)
          exact fun hk => ⟨hk.staging⟩
      · exact good_State_flashIdle h
    · exact good_State_flashIdle h
  · exact goes_next h

theorem goes_execChunkCommitted {o : Otp} {q : List Instr} {s : State} (h : Good o q s) : Goes o q (execChunkCommitted s) := by
  unfold execChunkCommitted
  repeat' first
    | with_reducible assumption
    | with_reducible apply goes_next
    | with_reducible apply good_State_flashIdle
    | with_reducible apply good_State_finishKey
    | with_reducible apply good_modFlash
    | with_reducible apply good_State_commitChunk
    | with_reducible apply good_State_takeBit
    | with_reducible refine good_State_takeBit_eq (by assumption) ?_
    | (with_reducible apply good_foldl; intro _ _ _)
    | dsimp only
    | split
    | (intro hk; (try dsimp only); repeat' first | exact hk | with_reducible apply sound_Flash_keepPart | split | exact ⟨by first | exact hk.staging | simpa using hk.staging | simpa using h.inv.flash.staging⟩)


theorem goes_execBodyHashDone {o : Otp} {q : List Instr} {s : State} (h : Good o q s) : Goes o q (execBodyHashDone s) := by
  unfold execBodyHashDone
  split
  · exact goes_next h
  · extract_lets s1
    have h1 : Good o q s1 := good_modGeode h
    clear_value s1
    split
    · exact goes_next h
    split
    · exact goes_next (good_State_finishKey h1 _ _)
    refine goes_next ?_
    split
    · split
      · exact good_State_finishKey h1 _ _
      · extract_lets y
        split
        · refine good_State_finishKey (good_modFlash ?_ h1) _ _
          exact fun hk => ⟨(sound_Flash_setSlot hk _ _).staging⟩
        · refine good_State_finishKey (good_modFlash ?_ h1) _ _
          exact fun hk => ⟨hk.staging⟩
    · exact good_State_finishKey h1 _ _

theorem goes_execFwUpdateBegin {o : Otp} {q : List Instr} {s : State} (h : Good o q s) : ∀ a0 a1, Goes o q (execFwUpdateBegin a0 a1 s) :=
  fun x b => goes_next (good_receive keeps_opFwUpdateBegin h x b)

theorem goes_execFwUpdateChunk {o : Otp} {q : List Instr} {s : State} (h : Good o q s) : ∀ a0 a1, Goes o q (execFwUpdateChunk a0 a1 s) :=
  fun x b => goes_next (good_receive keeps_opFwUpdateChunk h x b)

theorem goes_execFwUpdateFinish {o : Otp} {q : List Instr} {s : State} (h : Good o q s) : ∀ a0 a1, Goes o q (execFwUpdateFinish a0 a1 s) :=
  fun x b => goes_next (good_receive keeps_opFwUpdateFinish h x b)

theorem goes_execFwActivate {o : Otp} {q : List Instr} {s : State} (h : Good o q s) : ∀ a0 a1, Goes o q (execFwActivate a0 a1 s) :=
  fun x b => goes_next (good_receive keeps_opFwActivate h x b)

theorem goes_execFwConfirm {o : Otp} {q : List Instr} {s : State} (h : Good o q s) : ∀ a0 a1, Goes o q (execFwConfirm a0 a1 s) :=
  fun x b => goes_next (good_receive keeps_opFwConfirm h x b)

theorem goes_execFwUpdateAbort {o : Otp} {q : List Instr} {s : State} (h : Good o q s) : ∀ a0 a1, Goes o q (execFwUpdateAbort a0 a1 s) :=
  fun x b => goes_next (good_receive keeps_opFwUpdateAbort h x b)

theorem goes_execLcWipeDone {o : Otp} {q : List Instr} {s : State} (h : Good o q s) : Goes o q (execLcWipeDone s) := by
  unfold execLcWipeDone
  repeat' first
    | with_reducible assumption
    | with_reducible apply goes_next
    | with_reducible apply good_modSys
    | with_reducible apply good_modFlash
    | with_reducible apply good_State_eraseConfig
    | with_reducible apply good_State_trigger
    | with_reducible apply good_modGeode
    | with_reducible apply good_State_markWiped
    | (with_reducible apply good_foldl; intro _ _ _)
    | dsimp only
    | split
    | (intro hk; (try dsimp only); repeat' first | exact hk | with_reducible apply sound_Sys_forget | split | exact ⟨by first | exact hk.ready | simpa using hk.ready | simpa using h.inv.sys.ready⟩ | exact ⟨by first | exact hk.staging | simpa using hk.staging | simpa using h.inv.flash.staging⟩)


theorem goes_execOtpProgramDone {o : Otp} {q : List Instr} {s : State} (h : Good o q s) : Goes o q (execOtpProgramDone s) := by
  unfold execOtpProgramDone
  repeat' first
    | with_reducible assumption
    | with_reducible apply goes_next
    | with_reducible apply good_State_programOtp
    | with_reducible apply good_State_flashIdle
    | with_reducible apply good_State_finish
    | with_reducible apply good_State_confirm
    | (with_reducible apply good_foldl; intro _ _ _)
    | dsimp only
    | split
    | (intro hk; (try dsimp only); repeat' first | exact hk | split)


theorem goes_execLcStatus {o : Otp} {q : List Instr} {s : State} (h : Good o q s) : ∀ a0 a1, Goes o q (execLcStatus a0 a1 s) :=
  fun x b => goes_next (good_receive keeps_opLcStatus h x b)

theorem goes_execLcAdvance {o : Otp} {q : List Instr} {s : State} (h : Good o q s) : ∀ a0 a1, Goes o q (execLcAdvance a0 a1 s) :=
  fun x b => goes_next (good_receive keeps_opLcAdvance h x b)

theorem goes_execKeyProgram {o : Otp} {q : List Instr} {s : State} (h : Good o q s) : ∀ a0 a1, Goes o q (execKeyProgram a0 a1 s) :=
  fun x b => goes_next (good_receive keeps_opKeyProgram h x b)

theorem goes_execKeyRevoke {o : Otp} {q : List Instr} {s : State} (h : Good o q s) : ∀ a0 a1, Goes o q (execKeyRevoke a0 a1 s) :=
  fun x b => goes_next (good_receive keeps_opKeyRevoke h x b)

theorem goes_execKeyStatusRead {o : Otp} {q : List Instr} {s : State} (h : Good o q s) : ∀ a0 a1, Goes o q (execKeyStatusRead a0 a1 s) :=
  fun x b => goes_next (good_receive keeps_opKeyStatusRead h x b)

theorem goes_execOtpOption {o : Otp} {q : List Instr} {s : State} (h : Good o q s) : ∀ a0 a1, Goes o q (execOtpOption a0 a1 s) :=
  fun x b => goes_next (good_receive keeps_opOtpOption h x b)

theorem goes_execCanFrameReceived {o : Otp} {q : List Instr} {s : State} (h : Good o q s) : ∀ a0 a1 a2 a3, Goes o q (execCanFrameReceived a0 a1 a2 a3 s) := by
  intro a0 a1 a2 a3
  unfold execCanFrameReceived
  repeat' first
    | with_reducible assumption
    | with_reducible apply goes_next
    | with_reducible apply good_State_canSegment
    | (with_reducible apply good_foldl; intro _ _ _)
    | dsimp only
    | split
    | (intro hk; (try dsimp only); repeat' first | exact hk | split)


theorem goes_execCanReassemblyTimeout {o : Otp} {q : List Instr} {s : State} (h : Good o q s) : ∀ a0 a1, Goes o q (execCanReassemblyTimeout a0 a1 s) := by
  intro a0 a1
  unfold execCanReassemblyTimeout
  repeat' first
    | with_reducible assumption
    | with_reducible apply goes_next
    | with_reducible apply good_State_canDiscard
    | (with_reducible apply good_foldl; intro _ _ _)
    | dsimp only
    | split
    | (intro hk; (try dsimp only); repeat' first | exact hk | split)


theorem goes_execCanBusOff {o : Otp} {q : List Instr} {s : State} (h : Good o q s) : ∀ a0, Goes o q (execCanBusOff a0 s) := by
  intro a0
  unfold execCanBusOff
  repeat' first
    | with_reducible assumption
    | with_reducible apply goes_next
    | with_reducible apply good_modCmd
    | (with_reducible apply good_foldl; intro _ _ _)
    | dsimp only
    | split
    | (intro hk; (try dsimp only); repeat' first | exact hk | with_reducible apply sound_setCan | split | exact sound_filterFlights hk | exact sound_dropFlight hk | exact hk.of_eq rfl rfl rfl rfl rfl rfl rfl)


theorem goes_execCanBusOffRecovery {o : Otp} {q : List Instr} {s : State} (h : Good o q s) : ∀ a0, Goes o q (execCanBusOffRecovery a0 s) := by
  intro a0
  unfold execCanBusOffRecovery
  repeat' first
    | with_reducible assumption
    | with_reducible apply goes_next
    | with_reducible apply good_modCmd
    | (with_reducible apply good_foldl; intro _ _ _)
    | dsimp only
    | split
    | (intro hk; (try dsimp only); repeat' first | exact hk | with_reducible apply sound_setCan | with_reducible apply sound_countFraming | split | exact sound_filterFlights hk | exact sound_dropFlight hk | exact hk.of_eq rfl rfl rfl rfl rfl rfl rfl)


theorem out_setCan (c : Cmd) (i n : Nat) (x : CanCtl) : (c.setCan i x).out n = c.out n := by
  unfold Cmd.setCan
  split <;> rfl

theorem goes_execCanFrameTransmitted {o : Otp} {q : List Instr} {s : State} (h : Good o q s) : ∀ controller, Goes o q (execCanFrameTransmitted controller s) := by
  intro controller
  unfold execCanFrameTransmitted
  split
  · split
    · rename_i x r e
      extract_lets s1
      have h1 : Good o q s1 := good_modCmd (fun hk => sound_setCan hk) h
      have e1 : s1.cmd.out (controller + 1) = x :: r := by
        rw [← e]
        exact out_setCan _ _ _ _
      clear_value s1
      refine goes_next ?_
      split
      · exact good_State_canSent e1 h1
      · exact h1
    · exact goes_next h
  · exact goes_next h

theorem goes_execMalformedPacket {o : Otp} {q : List Instr} {s : State} (h : Good o q s) : ∀ origin node bytes, Goes o q (execMalformedPacket origin node bytes s) := by
  intro origin node bytes
  unfold execMalformedPacket
  extract_lets s1
  have h1 : Good o q s1 := by
    refine good_modCmd ?_ h
    exact fun hk => sound_eraseInbox hk
  clear_value s1
  split
  · exact goes_next h1
  · split
    · refine goes_next (good_modCmd ?_ h1)
      exact fun hk => sound_countFraming hk
    · split
      · exact goes_next (good_State_replyDamaged h1 _ _ _ _)
      · split
        · refine goes_next (good_modCmd ?_ (good_State_replyDamaged h1 _ _ _ _))
          exact fun hk => hk.of_eq rfl rfl rfl rfl rfl rfl rfl
        · exact goes_next h

theorem goes_execEcho {o : Otp} {q : List Instr} {s : State} (h : Good o q s) : ∀ a0 a1, Goes o q (execEcho a0 a1 s) :=
  fun x b => goes_next (good_receive keeps_opEcho h x b)

theorem goes_execDieInfo {o : Otp} {q : List Instr} {s : State} (h : Good o q s) : ∀ a0 a1, Goes o q (execDieInfo a0 a1 s) :=
  fun x b => goes_next (good_receive keeps_opDieInfo h x b)

theorem goes_execCancel {o : Otp} {q : List Instr} {s : State} (h : Good o q s) : ∀ a0 a1, Goes o q (execCancel a0 a1 s) :=
  fun x b => goes_next (good_receive keeps_opCancel h x b)

theorem goes_execEventRoute {o : Otp} {q : List Instr} {s : State} (h : Good o q s) : ∀ a0 a1, Goes o q (execEventRoute a0 a1 s) :=
  fun x b => goes_next (good_receive keeps_opEventRoute h x b)

theorem goes_execCanConfig {o : Otp} {q : List Instr} {s : State} (h : Good o q s) : ∀ a0 a1, Goes o q (execCanConfig a0 a1 s) :=
  fun x b => goes_next (good_receive keeps_opCanConfig h x b)

theorem goes_execCmdStats {o : Otp} {q : List Instr} {s : State} (h : Good o q s) : ∀ a0 a1, Goes o q (execCmdStats a0 a1 s) :=
  fun x b => goes_next (good_receive keeps_opCmdStats h x b)

theorem goes_execJournalCommitDone {o : Otp} {q : List Instr} {s : State} (h : Good o q s) : Goes o q (execJournalCommitDone s) := by
  unfold execJournalCommitDone
  repeat' first
    | with_reducible assumption
    | with_reducible apply goes_next
    | with_reducible apply good_State_flashIdle
    | with_reducible apply good_State_finishKey
    | with_reducible apply good_modFlash
    | with_reducible apply good_State_cutAppend
    | (with_reducible apply good_foldl; intro _ _ _)
    | dsimp only
    | split
    | (intro hk; (try dsimp only); repeat' first | exact hk | with_reducible apply sound_Flash_commitRecs | split | exact ⟨by first | exact hk.staging | simpa using hk.staging | simpa using h.inv.flash.staging⟩)


theorem goes_execTombstoneCommitted {o : Otp} {q : List Instr} {s : State} (h : Good o q s) : Goes o q (execTombstoneCommitted s) := by
  unfold execTombstoneCommitted
  repeat' first
    | with_reducible assumption
    | with_reducible apply goes_next
    | with_reducible apply good_State_flashIdle
    | with_reducible apply good_State_finishKey
    | with_reducible apply good_modFlash
    | with_reducible apply good_State_cutAppend
    | (with_reducible apply good_foldl; intro _ _ _)
    | dsimp only
    | split
    | (intro hk; (try dsimp only); repeat' first | exact hk | with_reducible apply sound_Flash_commitRecs | split | exact ⟨by first | exact hk.staging | simpa using hk.staging | simpa using h.inv.flash.staging⟩)


theorem goes_execFlashStatus {o : Otp} {q : List Instr} {s : State} (h : Good o q s) : ∀ a0 a1, Goes o q (execFlashStatus a0 a1 s) :=
  fun x b => goes_next (good_receive keeps_opFlashStatus h x b)

theorem goes_execJournalWrite {o : Otp} {q : List Instr} {s : State} (h : Good o q s) : ∀ a0 a1, Goes o q (execJournalWrite a0 a1 s) :=
  fun x b => goes_next (good_receive keeps_opJournalWrite h x b)

theorem goes_execJournalCommit {o : Otp} {q : List Instr} {s : State} (h : Good o q s) : ∀ a0 a1, Goes o q (execJournalCommit a0 a1 s) :=
  fun x b => goes_next (good_receive keeps_opJournalCommit h x b)

theorem goes_execJournalRead {o : Otp} {q : List Instr} {s : State} (h : Good o q s) : ∀ a0 a1, Goes o q (execJournalRead a0 a1 s) :=
  fun x b => goes_next (good_receive keeps_opJournalRead h x b)

theorem goes_execJournalRemove {o : Otp} {q : List Instr} {s : State} (h : Good o q s) : ∀ a0 a1, Goes o q (execJournalRemove a0 a1 s) :=
  fun x b => goes_next (good_receive keeps_opJournalRemove h x b)

theorem goes_execPatchCheckDone {o : Otp} {q : List Instr} {s : State} (h : Good o q s) : ∀ a0, Goes o q (execPatchCheckDone a0 s) := by
  intro a0
  unfold execPatchCheckDone
  repeat' first
    | with_reducible assumption
    | with_reducible apply goes_next
    | with_reducible apply good_State_geodeSafe
    | with_reducible apply good_modSys
    | (with_reducible refine good_State_setReady (by simp) ?_)
    | with_reducible apply good_State_setReady
    | with_reducible apply good_modFlash
    | with_reducible apply good_modGeode
    | with_reducible apply good_State_setStage
    | with_reducible apply good_State_afterWipe
    | (with_reducible apply good_foldl; intro _ _ _)
    | dsimp only
    | split
    | (intro hk; (try dsimp only); repeat' first | exact hk | split | exact ⟨by first | exact hk.ready | simpa using hk.ready | simpa using h.inv.sys.ready⟩ | exact ⟨by first | exact hk.staging | simpa using hk.staging | simpa using h.inv.flash.staging⟩)


theorem goes_execPendingWipeDone {o : Otp} {q : List Instr} {s : State} (h : Good o q s) : Goes o q (execPendingWipeDone s) := by
  unfold execPendingWipeDone
  repeat' first
    | with_reducible assumption
    | with_reducible apply goes_next
    | with_reducible apply good_State_afterWipe
    | with_reducible apply good_modGeode
    | with_reducible apply good_State_markWiped
    | with_reducible apply good_modSys
    | with_reducible apply good_modFlash
    | with_reducible apply good_State_eraseConfig
    | (with_reducible apply good_foldl; intro _ _ _)
    | dsimp only
    | split
    | (intro hk; (try dsimp only); repeat' first | exact hk | with_reducible apply sound_Sys_forget | split | exact ⟨by first | exact hk.ready | simpa using hk.ready | simpa using h.inv.sys.ready⟩ | exact ⟨by first | exact hk.staging | simpa using hk.staging | simpa using h.inv.flash.staging⟩)


theorem goes_execSlotSelectionDone {o : Otp} {q : List Instr} {s : State} (h : Good o q s) : Goes o q (execSlotSelectionDone s) := by
  unfold execSlotSelectionDone
  repeat' first
    | with_reducible assumption
    | with_reducible apply goes_next
    | with_reducible apply good_State_trySlots
    | with_reducible apply good_State_setHint
    | with_reducible apply good_State_recordFault
    | with_reducible apply good_State_writeRecord
    | (with_reducible apply good_foldl; intro _ _ _)
    | dsimp only
    | split
    | (intro hk; (try dsimp only); repeat' first | exact hk | split | exact ⟨by first | exact hk.staging | simpa using hk.staging | simpa using h.inv.flash.staging⟩)


theorem goes_execBootCertLoaded {o : Otp} {q : List Instr} {s : State} (h : Good o q s) : Goes o q (execBootCertLoaded s) := by
  unfold execBootCertLoaded
  repeat' first
    | with_reducible assumption
    | with_reducible apply goes_next
    | with_reducible apply good_State_recordFault
    | with_reducible apply good_State_setStage
    | with_reducible apply good_modGeode
    | (with_reducible apply good_foldl; intro _ _ _)
    | dsimp only
    | split
    | (intro hk; (try dsimp only); repeat' first | exact hk | split)


theorem goes_execEupefenRunning {o : Otp} {q : List Instr} {s : State} (h : Good o q s) : Goes o q (execEupefenRunning s) := by
  unfold execEupefenRunning
  repeat' first
    | with_reducible assumption
    | with_reducible apply goes_next
    | with_reducible apply good_State_setStage
    | with_reducible apply good_State_dropCopies
    | with_reducible apply good_State_clampAll
    | with_reducible apply good_State_loadMq
    | with_reducible apply good_State_loadHome
    | with_reducible apply good_State_loadCommon
    | with_reducible apply good_State_flashIdle
    | with_reducible apply good_State_bootReport
    | (with_reducible apply good_foldl; intro _ _ _)
    | dsimp only
    | split
    | (intro hk; (try dsimp only); repeat' first | exact hk | split)


theorem goes_execExecFault {o : Otp} {q : List Instr} {s : State} (h : Good o q s) : Goes o q (execExecFault s) := by
  unfold execExecFault
  repeat' first
    | with_reducible assumption
    | with_reducible apply goes_next
    | with_reducible apply good_State_geodeSafe
    | (with_reducible apply good_foldl; intro _ _ _)
    | dsimp only
    | split
    | (intro hk; (try dsimp only); repeat' first | exact hk | split)


theorem goes_execEpochStatus {o : Otp} {q : List Instr} {s : State} (h : Good o q s) : ∀ a0 a1, Goes o q (execEpochStatus a0 a1 s) :=
  fun x b => goes_next (good_receive keeps_opEpochStatus h x b)

theorem goes_execEpochSetLength {o : Otp} {q : List Instr} {s : State} (h : Good o q s) : ∀ a0 a1, Goes o q (execEpochSetLength a0 a1 s) :=
  fun x b => goes_next (good_receive keeps_opEpochSetLength h x b)

theorem goes_execPolicyLate {o : Otp} {q : List Instr} {s : State} (h : Good o q s) : Goes o q (execPolicyLate s) := by
  unfold execPolicyLate
  repeat' first
    | with_reducible assumption
    | with_reducible apply goes_next
    | with_reducible apply good_modTime
    | (with_reducible apply good_foldl; intro _ _ _)
    | dsimp only
    | split
    | (intro hk; (try dsimp only); repeat' first | exact hk | split | exact ⟨by first | exact hk.timers | simpa using hk.timers | simpa using h.inv.time.timers, by first | exact hk.captures | simpa using hk.captures | simpa using h.inv.time.captures, by first | exact hk.epoch | simpa using hk.epoch | simpa using h.inv.time.epoch⟩)


theorem goes_execUndefinedOpcode {o : Otp} {q : List Instr} {s : State} (h : Good o q s) : ∀ a0 a1 a2, Goes o q (execUndefinedOpcode a0 a1 a2 s) := by
  intro a0 a1 a2
  unfold execUndefinedOpcode
  repeat' first
    | with_reducible assumption
    | with_reducible apply goes_next
    | with_reducible apply good_receiveUndefined
    | (with_reducible apply good_foldl; intro _ _ _)
    | dsimp only
    | split
    | (intro hk; (try dsimp only); repeat' first | exact hk | split)


theorem goes_execPacketFrame {o : Otp} {q : List Instr} {s : State} (h : Good o q s) : ∀ a0, Goes o q (execPacketFrame a0 s) := by
  intro a0
  unfold execPacketFrame
  repeat' first
    | with_reducible assumption
    | with_reducible apply goes_next
    | with_reducible apply good_State_relayBulk
    | with_reducible apply good_State_hearFrame
    | with_reducible apply good_State_repeatDown
    | with_reducible apply good_State_badFrame
    | with_reducible apply good_State_takePacket
    | with_reducible apply good_State_workerEvent
    | with_reducible apply good_State_workerReply
    | (with_reducible apply good_foldl; intro _ _ _)
    | dsimp only
    | split
    | (intro hk; (try dsimp only); repeat' first | exact hk | split)


theorem goes_execHungAccessComplete {o : Otp} {q : List Instr} {s : State} (h : Good o q s) : Goes o q (execHungAccessComplete s) := by
  unfold execHungAccessComplete
  repeat' first
    | with_reducible assumption
    | with_reducible apply goes_next
    | with_reducible apply good_modSys
    | with_reducible apply good_State_completeAccess
    | with_reducible apply good_State_unstall
    | (with_reducible apply good_foldl; intro _ _ _)
    | dsimp only
    | split
    | (intro hk; (try dsimp only); repeat' first | exact hk | split | exact ⟨by first | exact hk.ready | simpa using hk.ready | simpa using h.inv.sys.ready⟩)


theorem goes_execBlockRestart {o : Otp} {q : List Instr} {s : State} (h : Good o q s) : ∀ block, Goes o q (execBlockRestart block s) := by
  intro block
  unfold execBlockRestart
  split
  · exact goes_next h
  · rename_i e
    have hb : block ≠ .sys := fun k => by simp [k] at e
    extract_lets s0 s1 s2
    have h0 : Good o q s0 := good_State_setReady (Or.inl hb) h
    clear_value s0
    have h1 : Good o q s1 := by
      unfold s1
      split
      · exact good_State_repliesGone (good_modSlolos (fun hk => sound_Slolos_halt hk) h0)
      split
      · exact good_State_claspStart h0
      split
      · exact good_modMeas (fun hk => sound_Meas_halt hk) h0
      split
      · exact good_modTherm (fun hk => sound_Therm_start hk) h0
      · exact h0
    clear_value s1
    have h2 : Good o q s2 := by
      unfold s2
      split
      · refine good_modSys ?_ h1
        exact fun hk => ⟨hk.ready⟩
      · exact h1
    clear_value s2
    refine goes_next ?_
    split
    · refine good_State_unstall (good_modSys ?_ h2)
      exact fun hk => ⟨hk.ready⟩
    · exact h2

theorem goes_execDebugHalt {o : Otp} {q : List Instr} {s : State} (h : Good o q s) : ∀ a0, Goes o q (execDebugHalt a0 s) := by
  intro a0
  unfold execDebugHalt
  repeat' first
    | with_reducible assumption
    | with_reducible apply goes_next
    | with_reducible apply good_modGeode
    | with_reducible apply good_modTime
    | with_reducible apply good_State_unstall
    | (with_reducible apply good_foldl; intro _ _ _)
    | dsimp only
    | split
    | (intro hk; (try dsimp only); repeat' first | exact hk | split | exact ⟨by first | exact hk.timers | simpa using hk.timers | simpa using h.inv.time.timers, by first | exact hk.captures | simpa using hk.captures | simpa using h.inv.time.captures, by first | exact hk.epoch | simpa using hk.epoch | simpa using h.inv.time.epoch⟩)


theorem goes_execEpochBoundary {o : Otp} {q : List Instr} {s : State} (h : Good o q s) : Goes o q (execEpochBoundary s) := by
  unfold execEpochBoundary
  split
  · exact goes_next h
  · split
    · split
      · rename_i e
        exact goes_next (good_State_reach (h.inv.slolos.marker _ e) h _)
      · exact goes_next h
    · extract_lets s1
      have h1 : Good o q s1 := good_State_pass h _ _
      clear_value s1
      exact goes_next (good_State_reach (Nat.mod_lt _ (by decide)) h1 _)

end Sys2Proof.Machine
end

