-- ==== Sys2Proof/Laws/State.lean ====
section
/-!
SUPPORT. What each update of the state leaves and writes, one field at a time, so that no proof unfolds a record update.
-/
namespace Sys2Proof.Machine

variable (s : State)

/-! ### `modSys` -/

@[simp] theorem State.modSys_sys (f : Sys → Sys) : (s.modSys f).sys = f s.sys := rfl
@[simp] theorem State.modSys_otp (f : Sys → Sys) : (s.modSys f).otp = s.otp := rfl
@[simp] theorem State.modSys_flash (f : Sys → Sys) : (s.modSys f).flash = s.flash := rfl
@[simp] theorem State.modSys_geode (f : Sys → Sys) : (s.modSys f).geode = s.geode := rfl
@[simp] theorem State.modSys_cmd (f : Sys → Sys) : (s.modSys f).cmd = s.cmd := rfl
@[simp] theorem State.modSys_time (f : Sys → Sys) : (s.modSys f).time = s.time := rfl
@[simp] theorem State.modSys_wdg (f : Sys → Sys) : (s.modSys f).wdg = s.wdg := rfl
@[simp] theorem State.modSys_memi (f : Sys → Sys) : (s.modSys f).memi = s.memi := rfl
@[simp] theorem State.modSys_conv (f : Sys → Sys) : (s.modSys f).conv = s.conv := rfl
@[simp] theorem State.modSys_prot (f : Sys → Sys) : (s.modSys f).prot = s.prot := rfl
@[simp] theorem State.modSys_path (f : Sys → Sys) : (s.modSys f).path = s.path := rfl
@[simp] theorem State.modSys_slolos (f : Sys → Sys) : (s.modSys f).slolos = s.slolos := rfl
@[simp] theorem State.modSys_charge (f : Sys → Sys) : (s.modSys f).charge = s.charge := rfl
@[simp] theorem State.modSys_pendant (f : Sys → Sys) : (s.modSys f).pendant = s.pendant := rfl
@[simp] theorem State.modSys_clasp (f : Sys → Sys) : (s.modSys f).clasp = s.clasp := rfl
@[simp] theorem State.modSys_meas (f : Sys → Sys) : (s.modSys f).meas = s.meas := rfl
@[simp] theorem State.modSys_therm (f : Sys → Sys) : (s.modSys f).therm = s.therm := rfl
@[simp] theorem State.modSys_pending (f : Sys → Sys) : (s.modSys f).pending = s.pending := rfl
@[simp] theorem State.modSys_freeCtr (f : Sys → Sys) : (s.modSys f).freeCtr = s.freeCtr := rfl

/-! ### `modOtp` -/

@[simp] theorem State.modOtp_sys (f : Otp → Otp) : (s.modOtp f).sys = s.sys := rfl
@[simp] theorem State.modOtp_otp (f : Otp → Otp) : (s.modOtp f).otp = f s.otp := rfl
@[simp] theorem State.modOtp_flash (f : Otp → Otp) : (s.modOtp f).flash = s.flash := rfl
@[simp] theorem State.modOtp_geode (f : Otp → Otp) : (s.modOtp f).geode = s.geode := rfl
@[simp] theorem State.modOtp_cmd (f : Otp → Otp) : (s.modOtp f).cmd = s.cmd := rfl
@[simp] theorem State.modOtp_time (f : Otp → Otp) : (s.modOtp f).time = s.time := rfl
@[simp] theorem State.modOtp_wdg (f : Otp → Otp) : (s.modOtp f).wdg = s.wdg := rfl
@[simp] theorem State.modOtp_memi (f : Otp → Otp) : (s.modOtp f).memi = s.memi := rfl
@[simp] theorem State.modOtp_conv (f : Otp → Otp) : (s.modOtp f).conv = s.conv := rfl
@[simp] theorem State.modOtp_prot (f : Otp → Otp) : (s.modOtp f).prot = s.prot := rfl
@[simp] theorem State.modOtp_path (f : Otp → Otp) : (s.modOtp f).path = s.path := rfl
@[simp] theorem State.modOtp_slolos (f : Otp → Otp) : (s.modOtp f).slolos = s.slolos := rfl
@[simp] theorem State.modOtp_charge (f : Otp → Otp) : (s.modOtp f).charge = s.charge := rfl
@[simp] theorem State.modOtp_pendant (f : Otp → Otp) : (s.modOtp f).pendant = s.pendant := rfl
@[simp] theorem State.modOtp_clasp (f : Otp → Otp) : (s.modOtp f).clasp = s.clasp := rfl
@[simp] theorem State.modOtp_meas (f : Otp → Otp) : (s.modOtp f).meas = s.meas := rfl
@[simp] theorem State.modOtp_therm (f : Otp → Otp) : (s.modOtp f).therm = s.therm := rfl
@[simp] theorem State.modOtp_pending (f : Otp → Otp) : (s.modOtp f).pending = s.pending := rfl
@[simp] theorem State.modOtp_freeCtr (f : Otp → Otp) : (s.modOtp f).freeCtr = s.freeCtr := rfl

/-! ### `modFlash` -/

@[simp] theorem State.modFlash_sys (f : Flash → Flash) : (s.modFlash f).sys = s.sys := rfl
@[simp] theorem State.modFlash_otp (f : Flash → Flash) : (s.modFlash f).otp = s.otp := rfl
@[simp] theorem State.modFlash_flash (f : Flash → Flash) : (s.modFlash f).flash = f s.flash := rfl
@[simp] theorem State.modFlash_geode (f : Flash → Flash) : (s.modFlash f).geode = s.geode := rfl
@[simp] theorem State.modFlash_cmd (f : Flash → Flash) : (s.modFlash f).cmd = s.cmd := rfl
@[simp] theorem State.modFlash_time (f : Flash → Flash) : (s.modFlash f).time = s.time := rfl
@[simp] theorem State.modFlash_wdg (f : Flash → Flash) : (s.modFlash f).wdg = s.wdg := rfl
@[simp] theorem State.modFlash_memi (f : Flash → Flash) : (s.modFlash f).memi = s.memi := rfl
@[simp] theorem State.modFlash_conv (f : Flash → Flash) : (s.modFlash f).conv = s.conv := rfl
@[simp] theorem State.modFlash_prot (f : Flash → Flash) : (s.modFlash f).prot = s.prot := rfl
@[simp] theorem State.modFlash_path (f : Flash → Flash) : (s.modFlash f).path = s.path := rfl
@[simp] theorem State.modFlash_slolos (f : Flash → Flash) : (s.modFlash f).slolos = s.slolos := rfl
@[simp] theorem State.modFlash_charge (f : Flash → Flash) : (s.modFlash f).charge = s.charge := rfl
@[simp] theorem State.modFlash_pendant (f : Flash → Flash) : (s.modFlash f).pendant = s.pendant := rfl
@[simp] theorem State.modFlash_clasp (f : Flash → Flash) : (s.modFlash f).clasp = s.clasp := rfl
@[simp] theorem State.modFlash_meas (f : Flash → Flash) : (s.modFlash f).meas = s.meas := rfl
@[simp] theorem State.modFlash_therm (f : Flash → Flash) : (s.modFlash f).therm = s.therm := rfl
@[simp] theorem State.modFlash_pending (f : Flash → Flash) : (s.modFlash f).pending = s.pending := rfl
@[simp] theorem State.modFlash_freeCtr (f : Flash → Flash) : (s.modFlash f).freeCtr = s.freeCtr := rfl

/-! ### `modGeode` -/

@[simp] theorem State.modGeode_sys (f : Geode → Geode) : (s.modGeode f).sys = s.sys := rfl
@[simp] theorem State.modGeode_otp (f : Geode → Geode) : (s.modGeode f).otp = s.otp := rfl
@[simp] theorem State.modGeode_flash (f : Geode → Geode) : (s.modGeode f).flash = s.flash := rfl
@[simp] theorem State.modGeode_geode (f : Geode → Geode) : (s.modGeode f).geode = f s.geode := rfl
@[simp] theorem State.modGeode_cmd (f : Geode → Geode) : (s.modGeode f).cmd = s.cmd := rfl
@[simp] theorem State.modGeode_time (f : Geode → Geode) : (s.modGeode f).time = s.time := rfl
@[simp] theorem State.modGeode_wdg (f : Geode → Geode) : (s.modGeode f).wdg = s.wdg := rfl
@[simp] theorem State.modGeode_memi (f : Geode → Geode) : (s.modGeode f).memi = s.memi := rfl
@[simp] theorem State.modGeode_conv (f : Geode → Geode) : (s.modGeode f).conv = s.conv := rfl
@[simp] theorem State.modGeode_prot (f : Geode → Geode) : (s.modGeode f).prot = s.prot := rfl
@[simp] theorem State.modGeode_path (f : Geode → Geode) : (s.modGeode f).path = s.path := rfl
@[simp] theorem State.modGeode_slolos (f : Geode → Geode) : (s.modGeode f).slolos = s.slolos := rfl
@[simp] theorem State.modGeode_charge (f : Geode → Geode) : (s.modGeode f).charge = s.charge := rfl
@[simp] theorem State.modGeode_pendant (f : Geode → Geode) : (s.modGeode f).pendant = s.pendant := rfl
@[simp] theorem State.modGeode_clasp (f : Geode → Geode) : (s.modGeode f).clasp = s.clasp := rfl
@[simp] theorem State.modGeode_meas (f : Geode → Geode) : (s.modGeode f).meas = s.meas := rfl
@[simp] theorem State.modGeode_therm (f : Geode → Geode) : (s.modGeode f).therm = s.therm := rfl
@[simp] theorem State.modGeode_pending (f : Geode → Geode) : (s.modGeode f).pending = s.pending := rfl
@[simp] theorem State.modGeode_freeCtr (f : Geode → Geode) : (s.modGeode f).freeCtr = s.freeCtr := rfl

/-! ### `modCmd` -/

@[simp] theorem State.modCmd_sys (f : Cmd → Cmd) : (s.modCmd f).sys = s.sys := rfl
@[simp] theorem State.modCmd_otp (f : Cmd → Cmd) : (s.modCmd f).otp = s.otp := rfl
@[simp] theorem State.modCmd_flash (f : Cmd → Cmd) : (s.modCmd f).flash = s.flash := rfl
@[simp] theorem State.modCmd_geode (f : Cmd → Cmd) : (s.modCmd f).geode = s.geode := rfl
@[simp] theorem State.modCmd_cmd (f : Cmd → Cmd) : (s.modCmd f).cmd = f s.cmd := rfl
@[simp] theorem State.modCmd_time (f : Cmd → Cmd) : (s.modCmd f).time = s.time := rfl
@[simp] theorem State.modCmd_wdg (f : Cmd → Cmd) : (s.modCmd f).wdg = s.wdg := rfl
@[simp] theorem State.modCmd_memi (f : Cmd → Cmd) : (s.modCmd f).memi = s.memi := rfl
@[simp] theorem State.modCmd_conv (f : Cmd → Cmd) : (s.modCmd f).conv = s.conv := rfl
@[simp] theorem State.modCmd_prot (f : Cmd → Cmd) : (s.modCmd f).prot = s.prot := rfl
@[simp] theorem State.modCmd_path (f : Cmd → Cmd) : (s.modCmd f).path = s.path := rfl
@[simp] theorem State.modCmd_slolos (f : Cmd → Cmd) : (s.modCmd f).slolos = s.slolos := rfl
@[simp] theorem State.modCmd_charge (f : Cmd → Cmd) : (s.modCmd f).charge = s.charge := rfl
@[simp] theorem State.modCmd_pendant (f : Cmd → Cmd) : (s.modCmd f).pendant = s.pendant := rfl
@[simp] theorem State.modCmd_clasp (f : Cmd → Cmd) : (s.modCmd f).clasp = s.clasp := rfl
@[simp] theorem State.modCmd_meas (f : Cmd → Cmd) : (s.modCmd f).meas = s.meas := rfl
@[simp] theorem State.modCmd_therm (f : Cmd → Cmd) : (s.modCmd f).therm = s.therm := rfl
@[simp] theorem State.modCmd_pending (f : Cmd → Cmd) : (s.modCmd f).pending = s.pending := rfl
@[simp] theorem State.modCmd_freeCtr (f : Cmd → Cmd) : (s.modCmd f).freeCtr = s.freeCtr := rfl

/-! ### `modTime` -/

@[simp] theorem State.modTime_sys (f : Time → Time) : (s.modTime f).sys = s.sys := rfl
@[simp] theorem State.modTime_otp (f : Time → Time) : (s.modTime f).otp = s.otp := rfl
@[simp] theorem State.modTime_flash (f : Time → Time) : (s.modTime f).flash = s.flash := rfl
@[simp] theorem State.modTime_geode (f : Time → Time) : (s.modTime f).geode = s.geode := rfl
@[simp] theorem State.modTime_cmd (f : Time → Time) : (s.modTime f).cmd = s.cmd := rfl
@[simp] theorem State.modTime_time (f : Time → Time) : (s.modTime f).time = f s.time := rfl
@[simp] theorem State.modTime_wdg (f : Time → Time) : (s.modTime f).wdg = s.wdg := rfl
@[simp] theorem State.modTime_memi (f : Time → Time) : (s.modTime f).memi = s.memi := rfl
@[simp] theorem State.modTime_conv (f : Time → Time) : (s.modTime f).conv = s.conv := rfl
@[simp] theorem State.modTime_prot (f : Time → Time) : (s.modTime f).prot = s.prot := rfl
@[simp] theorem State.modTime_path (f : Time → Time) : (s.modTime f).path = s.path := rfl
@[simp] theorem State.modTime_slolos (f : Time → Time) : (s.modTime f).slolos = s.slolos := rfl
@[simp] theorem State.modTime_charge (f : Time → Time) : (s.modTime f).charge = s.charge := rfl
@[simp] theorem State.modTime_pendant (f : Time → Time) : (s.modTime f).pendant = s.pendant := rfl
@[simp] theorem State.modTime_clasp (f : Time → Time) : (s.modTime f).clasp = s.clasp := rfl
@[simp] theorem State.modTime_meas (f : Time → Time) : (s.modTime f).meas = s.meas := rfl
@[simp] theorem State.modTime_therm (f : Time → Time) : (s.modTime f).therm = s.therm := rfl
@[simp] theorem State.modTime_pending (f : Time → Time) : (s.modTime f).pending = s.pending := rfl
@[simp] theorem State.modTime_freeCtr (f : Time → Time) : (s.modTime f).freeCtr = s.freeCtr := rfl

/-! ### `modWdg` -/

@[simp] theorem State.modWdg_sys (f : Wdg → Wdg) : (s.modWdg f).sys = s.sys := rfl
@[simp] theorem State.modWdg_otp (f : Wdg → Wdg) : (s.modWdg f).otp = s.otp := rfl
@[simp] theorem State.modWdg_flash (f : Wdg → Wdg) : (s.modWdg f).flash = s.flash := rfl
@[simp] theorem State.modWdg_geode (f : Wdg → Wdg) : (s.modWdg f).geode = s.geode := rfl
@[simp] theorem State.modWdg_cmd (f : Wdg → Wdg) : (s.modWdg f).cmd = s.cmd := rfl
@[simp] theorem State.modWdg_time (f : Wdg → Wdg) : (s.modWdg f).time = s.time := rfl
@[simp] theorem State.modWdg_wdg (f : Wdg → Wdg) : (s.modWdg f).wdg = f s.wdg := rfl
@[simp] theorem State.modWdg_memi (f : Wdg → Wdg) : (s.modWdg f).memi = s.memi := rfl
@[simp] theorem State.modWdg_conv (f : Wdg → Wdg) : (s.modWdg f).conv = s.conv := rfl
@[simp] theorem State.modWdg_prot (f : Wdg → Wdg) : (s.modWdg f).prot = s.prot := rfl
@[simp] theorem State.modWdg_path (f : Wdg → Wdg) : (s.modWdg f).path = s.path := rfl
@[simp] theorem State.modWdg_slolos (f : Wdg → Wdg) : (s.modWdg f).slolos = s.slolos := rfl
@[simp] theorem State.modWdg_charge (f : Wdg → Wdg) : (s.modWdg f).charge = s.charge := rfl
@[simp] theorem State.modWdg_pendant (f : Wdg → Wdg) : (s.modWdg f).pendant = s.pendant := rfl
@[simp] theorem State.modWdg_clasp (f : Wdg → Wdg) : (s.modWdg f).clasp = s.clasp := rfl
@[simp] theorem State.modWdg_meas (f : Wdg → Wdg) : (s.modWdg f).meas = s.meas := rfl
@[simp] theorem State.modWdg_therm (f : Wdg → Wdg) : (s.modWdg f).therm = s.therm := rfl
@[simp] theorem State.modWdg_pending (f : Wdg → Wdg) : (s.modWdg f).pending = s.pending := rfl
@[simp] theorem State.modWdg_freeCtr (f : Wdg → Wdg) : (s.modWdg f).freeCtr = s.freeCtr := rfl

/-! ### `modMemi` -/

@[simp] theorem State.modMemi_sys (f : Memi → Memi) : (s.modMemi f).sys = s.sys := rfl
@[simp] theorem State.modMemi_otp (f : Memi → Memi) : (s.modMemi f).otp = s.otp := rfl
@[simp] theorem State.modMemi_flash (f : Memi → Memi) : (s.modMemi f).flash = s.flash := rfl
@[simp] theorem State.modMemi_geode (f : Memi → Memi) : (s.modMemi f).geode = s.geode := rfl
@[simp] theorem State.modMemi_cmd (f : Memi → Memi) : (s.modMemi f).cmd = s.cmd := rfl
@[simp] theorem State.modMemi_time (f : Memi → Memi) : (s.modMemi f).time = s.time := rfl
@[simp] theorem State.modMemi_wdg (f : Memi → Memi) : (s.modMemi f).wdg = s.wdg := rfl
@[simp] theorem State.modMemi_memi (f : Memi → Memi) : (s.modMemi f).memi = f s.memi := rfl
@[simp] theorem State.modMemi_conv (f : Memi → Memi) : (s.modMemi f).conv = s.conv := rfl
@[simp] theorem State.modMemi_prot (f : Memi → Memi) : (s.modMemi f).prot = s.prot := rfl
@[simp] theorem State.modMemi_path (f : Memi → Memi) : (s.modMemi f).path = s.path := rfl
@[simp] theorem State.modMemi_slolos (f : Memi → Memi) : (s.modMemi f).slolos = s.slolos := rfl
@[simp] theorem State.modMemi_charge (f : Memi → Memi) : (s.modMemi f).charge = s.charge := rfl
@[simp] theorem State.modMemi_pendant (f : Memi → Memi) : (s.modMemi f).pendant = s.pendant := rfl
@[simp] theorem State.modMemi_clasp (f : Memi → Memi) : (s.modMemi f).clasp = s.clasp := rfl
@[simp] theorem State.modMemi_meas (f : Memi → Memi) : (s.modMemi f).meas = s.meas := rfl
@[simp] theorem State.modMemi_therm (f : Memi → Memi) : (s.modMemi f).therm = s.therm := rfl
@[simp] theorem State.modMemi_pending (f : Memi → Memi) : (s.modMemi f).pending = s.pending := rfl
@[simp] theorem State.modMemi_freeCtr (f : Memi → Memi) : (s.modMemi f).freeCtr = s.freeCtr := rfl

/-! ### `modConv` -/

@[simp] theorem State.modConv_sys (f : Conv → Conv) : (s.modConv f).sys = s.sys := rfl
@[simp] theorem State.modConv_otp (f : Conv → Conv) : (s.modConv f).otp = s.otp := rfl
@[simp] theorem State.modConv_flash (f : Conv → Conv) : (s.modConv f).flash = s.flash := rfl
@[simp] theorem State.modConv_geode (f : Conv → Conv) : (s.modConv f).geode = s.geode := rfl
@[simp] theorem State.modConv_cmd (f : Conv → Conv) : (s.modConv f).cmd = s.cmd := rfl
@[simp] theorem State.modConv_time (f : Conv → Conv) : (s.modConv f).time = s.time := rfl
@[simp] theorem State.modConv_wdg (f : Conv → Conv) : (s.modConv f).wdg = s.wdg := rfl
@[simp] theorem State.modConv_memi (f : Conv → Conv) : (s.modConv f).memi = s.memi := rfl
@[simp] theorem State.modConv_conv (f : Conv → Conv) : (s.modConv f).conv = f s.conv := rfl
@[simp] theorem State.modConv_prot (f : Conv → Conv) : (s.modConv f).prot = s.prot := rfl
@[simp] theorem State.modConv_path (f : Conv → Conv) : (s.modConv f).path = s.path := rfl
@[simp] theorem State.modConv_slolos (f : Conv → Conv) : (s.modConv f).slolos = s.slolos := rfl
@[simp] theorem State.modConv_charge (f : Conv → Conv) : (s.modConv f).charge = s.charge := rfl
@[simp] theorem State.modConv_pendant (f : Conv → Conv) : (s.modConv f).pendant = s.pendant := rfl
@[simp] theorem State.modConv_clasp (f : Conv → Conv) : (s.modConv f).clasp = s.clasp := rfl
@[simp] theorem State.modConv_meas (f : Conv → Conv) : (s.modConv f).meas = s.meas := rfl
@[simp] theorem State.modConv_therm (f : Conv → Conv) : (s.modConv f).therm = s.therm := rfl
@[simp] theorem State.modConv_pending (f : Conv → Conv) : (s.modConv f).pending = s.pending := rfl
@[simp] theorem State.modConv_freeCtr (f : Conv → Conv) : (s.modConv f).freeCtr = s.freeCtr := rfl

/-! ### `modProt` -/

@[simp] theorem State.modProt_sys (f : Prot → Prot) : (s.modProt f).sys = s.sys := rfl
@[simp] theorem State.modProt_otp (f : Prot → Prot) : (s.modProt f).otp = s.otp := rfl
@[simp] theorem State.modProt_flash (f : Prot → Prot) : (s.modProt f).flash = s.flash := rfl
@[simp] theorem State.modProt_geode (f : Prot → Prot) : (s.modProt f).geode = s.geode := rfl
@[simp] theorem State.modProt_cmd (f : Prot → Prot) : (s.modProt f).cmd = s.cmd := rfl
@[simp] theorem State.modProt_time (f : Prot → Prot) : (s.modProt f).time = s.time := rfl
@[simp] theorem State.modProt_wdg (f : Prot → Prot) : (s.modProt f).wdg = s.wdg := rfl
@[simp] theorem State.modProt_memi (f : Prot → Prot) : (s.modProt f).memi = s.memi := rfl
@[simp] theorem State.modProt_conv (f : Prot → Prot) : (s.modProt f).conv = s.conv := rfl
@[simp] theorem State.modProt_prot (f : Prot → Prot) : (s.modProt f).prot = f s.prot := rfl
@[simp] theorem State.modProt_path (f : Prot → Prot) : (s.modProt f).path = s.path := rfl
@[simp] theorem State.modProt_slolos (f : Prot → Prot) : (s.modProt f).slolos = s.slolos := rfl
@[simp] theorem State.modProt_charge (f : Prot → Prot) : (s.modProt f).charge = s.charge := rfl
@[simp] theorem State.modProt_pendant (f : Prot → Prot) : (s.modProt f).pendant = s.pendant := rfl
@[simp] theorem State.modProt_clasp (f : Prot → Prot) : (s.modProt f).clasp = s.clasp := rfl
@[simp] theorem State.modProt_meas (f : Prot → Prot) : (s.modProt f).meas = s.meas := rfl
@[simp] theorem State.modProt_therm (f : Prot → Prot) : (s.modProt f).therm = s.therm := rfl
@[simp] theorem State.modProt_pending (f : Prot → Prot) : (s.modProt f).pending = s.pending := rfl
@[simp] theorem State.modProt_freeCtr (f : Prot → Prot) : (s.modProt f).freeCtr = s.freeCtr := rfl

/-! ### `modPath` -/

@[simp] theorem State.modPath_sys (f : Path → Path) : (s.modPath f).sys = s.sys := rfl
@[simp] theorem State.modPath_otp (f : Path → Path) : (s.modPath f).otp = s.otp := rfl
@[simp] theorem State.modPath_flash (f : Path → Path) : (s.modPath f).flash = s.flash := rfl
@[simp] theorem State.modPath_geode (f : Path → Path) : (s.modPath f).geode = s.geode := rfl
@[simp] theorem State.modPath_cmd (f : Path → Path) : (s.modPath f).cmd = s.cmd := rfl
@[simp] theorem State.modPath_time (f : Path → Path) : (s.modPath f).time = s.time := rfl
@[simp] theorem State.modPath_wdg (f : Path → Path) : (s.modPath f).wdg = s.wdg := rfl
@[simp] theorem State.modPath_memi (f : Path → Path) : (s.modPath f).memi = s.memi := rfl
@[simp] theorem State.modPath_conv (f : Path → Path) : (s.modPath f).conv = s.conv := rfl
@[simp] theorem State.modPath_prot (f : Path → Path) : (s.modPath f).prot = s.prot := rfl
@[simp] theorem State.modPath_path (f : Path → Path) : (s.modPath f).path = f s.path := rfl
@[simp] theorem State.modPath_slolos (f : Path → Path) : (s.modPath f).slolos = s.slolos := rfl
@[simp] theorem State.modPath_charge (f : Path → Path) : (s.modPath f).charge = s.charge := rfl
@[simp] theorem State.modPath_pendant (f : Path → Path) : (s.modPath f).pendant = s.pendant := rfl
@[simp] theorem State.modPath_clasp (f : Path → Path) : (s.modPath f).clasp = s.clasp := rfl
@[simp] theorem State.modPath_meas (f : Path → Path) : (s.modPath f).meas = s.meas := rfl
@[simp] theorem State.modPath_therm (f : Path → Path) : (s.modPath f).therm = s.therm := rfl
@[simp] theorem State.modPath_pending (f : Path → Path) : (s.modPath f).pending = s.pending := rfl
@[simp] theorem State.modPath_freeCtr (f : Path → Path) : (s.modPath f).freeCtr = s.freeCtr := rfl

/-! ### `modSlolos` -/

@[simp] theorem State.modSlolos_sys (f : Slolos → Slolos) : (s.modSlolos f).sys = s.sys := rfl
@[simp] theorem State.modSlolos_otp (f : Slolos → Slolos) : (s.modSlolos f).otp = s.otp := rfl
@[simp] theorem State.modSlolos_flash (f : Slolos → Slolos) : (s.modSlolos f).flash = s.flash := rfl
@[simp] theorem State.modSlolos_geode (f : Slolos → Slolos) : (s.modSlolos f).geode = s.geode := rfl
@[simp] theorem State.modSlolos_cmd (f : Slolos → Slolos) : (s.modSlolos f).cmd = s.cmd := rfl
@[simp] theorem State.modSlolos_time (f : Slolos → Slolos) : (s.modSlolos f).time = s.time := rfl
@[simp] theorem State.modSlolos_wdg (f : Slolos → Slolos) : (s.modSlolos f).wdg = s.wdg := rfl
@[simp] theorem State.modSlolos_memi (f : Slolos → Slolos) : (s.modSlolos f).memi = s.memi := rfl
@[simp] theorem State.modSlolos_conv (f : Slolos → Slolos) : (s.modSlolos f).conv = s.conv := rfl
@[simp] theorem State.modSlolos_prot (f : Slolos → Slolos) : (s.modSlolos f).prot = s.prot := rfl
@[simp] theorem State.modSlolos_path (f : Slolos → Slolos) : (s.modSlolos f).path = s.path := rfl
@[simp] theorem State.modSlolos_slolos (f : Slolos → Slolos) : (s.modSlolos f).slolos = f s.slolos := rfl
@[simp] theorem State.modSlolos_charge (f : Slolos → Slolos) : (s.modSlolos f).charge = s.charge := rfl
@[simp] theorem State.modSlolos_pendant (f : Slolos → Slolos) : (s.modSlolos f).pendant = s.pendant := rfl
@[simp] theorem State.modSlolos_clasp (f : Slolos → Slolos) : (s.modSlolos f).clasp = s.clasp := rfl
@[simp] theorem State.modSlolos_meas (f : Slolos → Slolos) : (s.modSlolos f).meas = s.meas := rfl
@[simp] theorem State.modSlolos_therm (f : Slolos → Slolos) : (s.modSlolos f).therm = s.therm := rfl
@[simp] theorem State.modSlolos_pending (f : Slolos → Slolos) : (s.modSlolos f).pending = s.pending := rfl
@[simp] theorem State.modSlolos_freeCtr (f : Slolos → Slolos) : (s.modSlolos f).freeCtr = s.freeCtr := rfl

/-! ### `modCharge` -/

@[simp] theorem State.modCharge_sys (f : Charge → Charge) : (s.modCharge f).sys = s.sys := rfl
@[simp] theorem State.modCharge_otp (f : Charge → Charge) : (s.modCharge f).otp = s.otp := rfl
@[simp] theorem State.modCharge_flash (f : Charge → Charge) : (s.modCharge f).flash = s.flash := rfl
@[simp] theorem State.modCharge_geode (f : Charge → Charge) : (s.modCharge f).geode = s.geode := rfl
@[simp] theorem State.modCharge_cmd (f : Charge → Charge) : (s.modCharge f).cmd = s.cmd := rfl
@[simp] theorem State.modCharge_time (f : Charge → Charge) : (s.modCharge f).time = s.time := rfl
@[simp] theorem State.modCharge_wdg (f : Charge → Charge) : (s.modCharge f).wdg = s.wdg := rfl
@[simp] theorem State.modCharge_memi (f : Charge → Charge) : (s.modCharge f).memi = s.memi := rfl
@[simp] theorem State.modCharge_conv (f : Charge → Charge) : (s.modCharge f).conv = s.conv := rfl
@[simp] theorem State.modCharge_prot (f : Charge → Charge) : (s.modCharge f).prot = s.prot := rfl
@[simp] theorem State.modCharge_path (f : Charge → Charge) : (s.modCharge f).path = s.path := rfl
@[simp] theorem State.modCharge_slolos (f : Charge → Charge) : (s.modCharge f).slolos = s.slolos := rfl
@[simp] theorem State.modCharge_charge (f : Charge → Charge) : (s.modCharge f).charge = f s.charge := rfl
@[simp] theorem State.modCharge_pendant (f : Charge → Charge) : (s.modCharge f).pendant = s.pendant := rfl
@[simp] theorem State.modCharge_clasp (f : Charge → Charge) : (s.modCharge f).clasp = s.clasp := rfl
@[simp] theorem State.modCharge_meas (f : Charge → Charge) : (s.modCharge f).meas = s.meas := rfl
@[simp] theorem State.modCharge_therm (f : Charge → Charge) : (s.modCharge f).therm = s.therm := rfl
@[simp] theorem State.modCharge_pending (f : Charge → Charge) : (s.modCharge f).pending = s.pending := rfl
@[simp] theorem State.modCharge_freeCtr (f : Charge → Charge) : (s.modCharge f).freeCtr = s.freeCtr := rfl

/-! ### `modPendant` -/

@[simp] theorem State.modPendant_sys (f : Pendant → Pendant) : (s.modPendant f).sys = s.sys := rfl
@[simp] theorem State.modPendant_otp (f : Pendant → Pendant) : (s.modPendant f).otp = s.otp := rfl
@[simp] theorem State.modPendant_flash (f : Pendant → Pendant) : (s.modPendant f).flash = s.flash := rfl
@[simp] theorem State.modPendant_geode (f : Pendant → Pendant) : (s.modPendant f).geode = s.geode := rfl
@[simp] theorem State.modPendant_cmd (f : Pendant → Pendant) : (s.modPendant f).cmd = s.cmd := rfl
@[simp] theorem State.modPendant_time (f : Pendant → Pendant) : (s.modPendant f).time = s.time := rfl
@[simp] theorem State.modPendant_wdg (f : Pendant → Pendant) : (s.modPendant f).wdg = s.wdg := rfl
@[simp] theorem State.modPendant_memi (f : Pendant → Pendant) : (s.modPendant f).memi = s.memi := rfl
@[simp] theorem State.modPendant_conv (f : Pendant → Pendant) : (s.modPendant f).conv = s.conv := rfl
@[simp] theorem State.modPendant_prot (f : Pendant → Pendant) : (s.modPendant f).prot = s.prot := rfl
@[simp] theorem State.modPendant_path (f : Pendant → Pendant) : (s.modPendant f).path = s.path := rfl
@[simp] theorem State.modPendant_slolos (f : Pendant → Pendant) : (s.modPendant f).slolos = s.slolos := rfl
@[simp] theorem State.modPendant_charge (f : Pendant → Pendant) : (s.modPendant f).charge = s.charge := rfl
@[simp] theorem State.modPendant_pendant (f : Pendant → Pendant) : (s.modPendant f).pendant = f s.pendant := rfl
@[simp] theorem State.modPendant_clasp (f : Pendant → Pendant) : (s.modPendant f).clasp = s.clasp := rfl
@[simp] theorem State.modPendant_meas (f : Pendant → Pendant) : (s.modPendant f).meas = s.meas := rfl
@[simp] theorem State.modPendant_therm (f : Pendant → Pendant) : (s.modPendant f).therm = s.therm := rfl
@[simp] theorem State.modPendant_pending (f : Pendant → Pendant) : (s.modPendant f).pending = s.pending := rfl
@[simp] theorem State.modPendant_freeCtr (f : Pendant → Pendant) : (s.modPendant f).freeCtr = s.freeCtr := rfl

/-! ### `modClasp` -/

@[simp] theorem State.modClasp_sys (f : Clasp → Clasp) : (s.modClasp f).sys = s.sys := rfl
@[simp] theorem State.modClasp_otp (f : Clasp → Clasp) : (s.modClasp f).otp = s.otp := rfl
@[simp] theorem State.modClasp_flash (f : Clasp → Clasp) : (s.modClasp f).flash = s.flash := rfl
@[simp] theorem State.modClasp_geode (f : Clasp → Clasp) : (s.modClasp f).geode = s.geode := rfl
@[simp] theorem State.modClasp_cmd (f : Clasp → Clasp) : (s.modClasp f).cmd = s.cmd := rfl
@[simp] theorem State.modClasp_time (f : Clasp → Clasp) : (s.modClasp f).time = s.time := rfl
@[simp] theorem State.modClasp_wdg (f : Clasp → Clasp) : (s.modClasp f).wdg = s.wdg := rfl
@[simp] theorem State.modClasp_memi (f : Clasp → Clasp) : (s.modClasp f).memi = s.memi := rfl
@[simp] theorem State.modClasp_conv (f : Clasp → Clasp) : (s.modClasp f).conv = s.conv := rfl
@[simp] theorem State.modClasp_prot (f : Clasp → Clasp) : (s.modClasp f).prot = s.prot := rfl
@[simp] theorem State.modClasp_path (f : Clasp → Clasp) : (s.modClasp f).path = s.path := rfl
@[simp] theorem State.modClasp_slolos (f : Clasp → Clasp) : (s.modClasp f).slolos = s.slolos := rfl
@[simp] theorem State.modClasp_charge (f : Clasp → Clasp) : (s.modClasp f).charge = s.charge := rfl
@[simp] theorem State.modClasp_pendant (f : Clasp → Clasp) : (s.modClasp f).pendant = s.pendant := rfl
@[simp] theorem State.modClasp_clasp (f : Clasp → Clasp) : (s.modClasp f).clasp = f s.clasp := rfl
@[simp] theorem State.modClasp_meas (f : Clasp → Clasp) : (s.modClasp f).meas = s.meas := rfl
@[simp] theorem State.modClasp_therm (f : Clasp → Clasp) : (s.modClasp f).therm = s.therm := rfl
@[simp] theorem State.modClasp_pending (f : Clasp → Clasp) : (s.modClasp f).pending = s.pending := rfl
@[simp] theorem State.modClasp_freeCtr (f : Clasp → Clasp) : (s.modClasp f).freeCtr = s.freeCtr := rfl

/-! ### `modMeas` -/

@[simp] theorem State.modMeas_sys (f : Meas → Meas) : (s.modMeas f).sys = s.sys := rfl
@[simp] theorem State.modMeas_otp (f : Meas → Meas) : (s.modMeas f).otp = s.otp := rfl
@[simp] theorem State.modMeas_flash (f : Meas → Meas) : (s.modMeas f).flash = s.flash := rfl
@[simp] theorem State.modMeas_geode (f : Meas → Meas) : (s.modMeas f).geode = s.geode := rfl
@[simp] theorem State.modMeas_cmd (f : Meas → Meas) : (s.modMeas f).cmd = s.cmd := rfl
@[simp] theorem State.modMeas_time (f : Meas → Meas) : (s.modMeas f).time = s.time := rfl
@[simp] theorem State.modMeas_wdg (f : Meas → Meas) : (s.modMeas f).wdg = s.wdg := rfl
@[simp] theorem State.modMeas_memi (f : Meas → Meas) : (s.modMeas f).memi = s.memi := rfl
@[simp] theorem State.modMeas_conv (f : Meas → Meas) : (s.modMeas f).conv = s.conv := rfl
@[simp] theorem State.modMeas_prot (f : Meas → Meas) : (s.modMeas f).prot = s.prot := rfl
@[simp] theorem State.modMeas_path (f : Meas → Meas) : (s.modMeas f).path = s.path := rfl
@[simp] theorem State.modMeas_slolos (f : Meas → Meas) : (s.modMeas f).slolos = s.slolos := rfl
@[simp] theorem State.modMeas_charge (f : Meas → Meas) : (s.modMeas f).charge = s.charge := rfl
@[simp] theorem State.modMeas_pendant (f : Meas → Meas) : (s.modMeas f).pendant = s.pendant := rfl
@[simp] theorem State.modMeas_clasp (f : Meas → Meas) : (s.modMeas f).clasp = s.clasp := rfl
@[simp] theorem State.modMeas_meas (f : Meas → Meas) : (s.modMeas f).meas = f s.meas := rfl
@[simp] theorem State.modMeas_therm (f : Meas → Meas) : (s.modMeas f).therm = s.therm := rfl
@[simp] theorem State.modMeas_pending (f : Meas → Meas) : (s.modMeas f).pending = s.pending := rfl
@[simp] theorem State.modMeas_freeCtr (f : Meas → Meas) : (s.modMeas f).freeCtr = s.freeCtr := rfl

/-! ### `modTherm` -/

@[simp] theorem State.modTherm_sys (f : Therm → Therm) : (s.modTherm f).sys = s.sys := rfl
@[simp] theorem State.modTherm_otp (f : Therm → Therm) : (s.modTherm f).otp = s.otp := rfl
@[simp] theorem State.modTherm_flash (f : Therm → Therm) : (s.modTherm f).flash = s.flash := rfl
@[simp] theorem State.modTherm_geode (f : Therm → Therm) : (s.modTherm f).geode = s.geode := rfl
@[simp] theorem State.modTherm_cmd (f : Therm → Therm) : (s.modTherm f).cmd = s.cmd := rfl
@[simp] theorem State.modTherm_time (f : Therm → Therm) : (s.modTherm f).time = s.time := rfl
@[simp] theorem State.modTherm_wdg (f : Therm → Therm) : (s.modTherm f).wdg = s.wdg := rfl
@[simp] theorem State.modTherm_memi (f : Therm → Therm) : (s.modTherm f).memi = s.memi := rfl
@[simp] theorem State.modTherm_conv (f : Therm → Therm) : (s.modTherm f).conv = s.conv := rfl
@[simp] theorem State.modTherm_prot (f : Therm → Therm) : (s.modTherm f).prot = s.prot := rfl
@[simp] theorem State.modTherm_path (f : Therm → Therm) : (s.modTherm f).path = s.path := rfl
@[simp] theorem State.modTherm_slolos (f : Therm → Therm) : (s.modTherm f).slolos = s.slolos := rfl
@[simp] theorem State.modTherm_charge (f : Therm → Therm) : (s.modTherm f).charge = s.charge := rfl
@[simp] theorem State.modTherm_pendant (f : Therm → Therm) : (s.modTherm f).pendant = s.pendant := rfl
@[simp] theorem State.modTherm_clasp (f : Therm → Therm) : (s.modTherm f).clasp = s.clasp := rfl
@[simp] theorem State.modTherm_meas (f : Therm → Therm) : (s.modTherm f).meas = s.meas := rfl
@[simp] theorem State.modTherm_therm (f : Therm → Therm) : (s.modTherm f).therm = f s.therm := rfl
@[simp] theorem State.modTherm_pending (f : Therm → Therm) : (s.modTherm f).pending = s.pending := rfl
@[simp] theorem State.modTherm_freeCtr (f : Therm → Therm) : (s.modTherm f).freeCtr = s.freeCtr := rfl

/-! ### `modLane` -/

@[simp] theorem State.modLane_sys (k : Nat) (f : Lane → Lane) : (s.modLane k f).sys = s.sys := rfl
@[simp] theorem State.modLane_otp (k : Nat) (f : Lane → Lane) : (s.modLane k f).otp = s.otp := rfl
@[simp] theorem State.modLane_flash (k : Nat) (f : Lane → Lane) : (s.modLane k f).flash = s.flash := rfl
@[simp] theorem State.modLane_geode (k : Nat) (f : Lane → Lane) : (s.modLane k f).geode = s.geode := rfl
@[simp] theorem State.modLane_cmd (k : Nat) (f : Lane → Lane) : (s.modLane k f).cmd = s.cmd := rfl
@[simp] theorem State.modLane_time (k : Nat) (f : Lane → Lane) : (s.modLane k f).time = s.time := rfl
@[simp] theorem State.modLane_wdg (k : Nat) (f : Lane → Lane) : (s.modLane k f).wdg = s.wdg := rfl
@[simp] theorem State.modLane_memi (k : Nat) (f : Lane → Lane) : (s.modLane k f).memi = s.memi := rfl
@[simp] theorem State.modLane_lanes (k : Nat) (f : Lane → Lane) : (s.modLane k f).conv.lanes = modAt s.conv.lanes k f := rfl
@[simp] theorem State.modLane_legs (k : Nat) (f : Lane → Lane) : (s.modLane k f).conv.legs = s.conv.legs := rfl
@[simp] theorem State.modLane_decims (k : Nat) (f : Lane → Lane) : (s.modLane k f).conv.decims = s.conv.decims := rfl
@[simp] theorem State.modLane_prot (k : Nat) (f : Lane → Lane) : (s.modLane k f).prot = s.prot := rfl
@[simp] theorem State.modLane_path (k : Nat) (f : Lane → Lane) : (s.modLane k f).path = s.path := rfl
@[simp] theorem State.modLane_slolos (k : Nat) (f : Lane → Lane) : (s.modLane k f).slolos = s.slolos := rfl
@[simp] theorem State.modLane_charge (k : Nat) (f : Lane → Lane) : (s.modLane k f).charge = s.charge := rfl
@[simp] theorem State.modLane_pendant (k : Nat) (f : Lane → Lane) : (s.modLane k f).pendant = s.pendant := rfl
@[simp] theorem State.modLane_clasp (k : Nat) (f : Lane → Lane) : (s.modLane k f).clasp = s.clasp := rfl
@[simp] theorem State.modLane_meas (k : Nat) (f : Lane → Lane) : (s.modLane k f).meas = s.meas := rfl
@[simp] theorem State.modLane_therm (k : Nat) (f : Lane → Lane) : (s.modLane k f).therm = s.therm := rfl
@[simp] theorem State.modLane_pending (k : Nat) (f : Lane → Lane) : (s.modLane k f).pending = s.pending := rfl
@[simp] theorem State.modLane_freeCtr (k : Nat) (f : Lane → Lane) : (s.modLane k f).freeCtr = s.freeCtr := rfl

/-! ### `modLegs` -/

@[simp] theorem State.modLegs_sys (m : BitVec 16) (f : Leg → Leg) : (s.modLegs m f).sys = s.sys := rfl
@[simp] theorem State.modLegs_otp (m : BitVec 16) (f : Leg → Leg) : (s.modLegs m f).otp = s.otp := rfl
@[simp] theorem State.modLegs_flash (m : BitVec 16) (f : Leg → Leg) : (s.modLegs m f).flash = s.flash := rfl
@[simp] theorem State.modLegs_geode (m : BitVec 16) (f : Leg → Leg) : (s.modLegs m f).geode = s.geode := rfl
@[simp] theorem State.modLegs_cmd (m : BitVec 16) (f : Leg → Leg) : (s.modLegs m f).cmd = s.cmd := rfl
@[simp] theorem State.modLegs_time (m : BitVec 16) (f : Leg → Leg) : (s.modLegs m f).time = s.time := rfl
@[simp] theorem State.modLegs_wdg (m : BitVec 16) (f : Leg → Leg) : (s.modLegs m f).wdg = s.wdg := rfl
@[simp] theorem State.modLegs_memi (m : BitVec 16) (f : Leg → Leg) : (s.modLegs m f).memi = s.memi := rfl
@[simp] theorem State.modLegs_lanes (m : BitVec 16) (f : Leg → Leg) : (s.modLegs m f).conv.lanes = s.conv.lanes := rfl
@[simp] theorem State.modLegs_decims (m : BitVec 16) (f : Leg → Leg) : (s.modLegs m f).conv.decims = s.conv.decims := rfl
@[simp] theorem State.modLegs_prot (m : BitVec 16) (f : Leg → Leg) : (s.modLegs m f).prot = s.prot := rfl
@[simp] theorem State.modLegs_path (m : BitVec 16) (f : Leg → Leg) : (s.modLegs m f).path = s.path := rfl
@[simp] theorem State.modLegs_slolos (m : BitVec 16) (f : Leg → Leg) : (s.modLegs m f).slolos = s.slolos := rfl
@[simp] theorem State.modLegs_charge (m : BitVec 16) (f : Leg → Leg) : (s.modLegs m f).charge = s.charge := rfl
@[simp] theorem State.modLegs_pendant (m : BitVec 16) (f : Leg → Leg) : (s.modLegs m f).pendant = s.pendant := rfl
@[simp] theorem State.modLegs_clasp (m : BitVec 16) (f : Leg → Leg) : (s.modLegs m f).clasp = s.clasp := rfl
@[simp] theorem State.modLegs_meas (m : BitVec 16) (f : Leg → Leg) : (s.modLegs m f).meas = s.meas := rfl
@[simp] theorem State.modLegs_therm (m : BitVec 16) (f : Leg → Leg) : (s.modLegs m f).therm = s.therm := rfl
@[simp] theorem State.modLegs_pending (m : BitVec 16) (f : Leg → Leg) : (s.modLegs m f).pending = s.pending := rfl
@[simp] theorem State.modLegs_freeCtr (m : BitVec 16) (f : Leg → Leg) : (s.modLegs m f).freeCtr = s.freeCtr := rfl

/-! ### `modPort` -/

@[simp] theorem State.modPort_sys (i : Nat) (f : Port → Port) : (s.modPort i f).sys = s.sys := rfl
@[simp] theorem State.modPort_otp (i : Nat) (f : Port → Port) : (s.modPort i f).otp = s.otp := rfl
@[simp] theorem State.modPort_flash (i : Nat) (f : Port → Port) : (s.modPort i f).flash = s.flash := rfl
@[simp] theorem State.modPort_geode (i : Nat) (f : Port → Port) : (s.modPort i f).geode = s.geode := rfl
@[simp] theorem State.modPort_cmd (i : Nat) (f : Port → Port) : (s.modPort i f).cmd = s.cmd := rfl
@[simp] theorem State.modPort_time (i : Nat) (f : Port → Port) : (s.modPort i f).time = s.time := rfl
@[simp] theorem State.modPort_wdg (i : Nat) (f : Port → Port) : (s.modPort i f).wdg = s.wdg := rfl
@[simp] theorem State.modPort_memi (i : Nat) (f : Port → Port) : (s.modPort i f).memi = s.memi := rfl
@[simp] theorem State.modPort_conv (i : Nat) (f : Port → Port) : (s.modPort i f).conv = s.conv := rfl
@[simp] theorem State.modPort_prot (i : Nat) (f : Port → Port) : (s.modPort i f).prot = s.prot := rfl
@[simp] theorem State.modPort_path (i : Nat) (f : Port → Port) : (s.modPort i f).path = s.path := rfl
@[simp] theorem State.modPort_slolos (i : Nat) (f : Port → Port) : (s.modPort i f).slolos = s.slolos := rfl
@[simp] theorem State.modPort_charge (i : Nat) (f : Port → Port) : (s.modPort i f).charge = s.charge := rfl
@[simp] theorem State.modPort_pendant (i : Nat) (f : Port → Port) : (s.modPort i f).pendant = s.pendant := rfl
@[simp] theorem State.modPort_ports (i : Nat) (f : Port → Port) : (s.modPort i f).clasp.ports = modAt s.clasp.ports i f := rfl
@[simp] theorem State.modPort_badMsg (i : Nat) (f : Port → Port) : (s.modPort i f).clasp.badMsg = s.clasp.badMsg := rfl
@[simp] theorem State.modPort_resends (i : Nat) (f : Port → Port) : (s.modPort i f).clasp.resends = s.clasp.resends := rfl
@[simp] theorem State.modPort_collisions (i : Nat) (f : Port → Port) : (s.modPort i f).clasp.collisions = s.clasp.collisions := rfl
@[simp] theorem State.modPort_pulled (i : Nat) (f : Port → Port) : (s.modPort i f).clasp.pulled = s.clasp.pulled := rfl
@[simp] theorem State.modPort_meas (i : Nat) (f : Port → Port) : (s.modPort i f).meas = s.meas := rfl
@[simp] theorem State.modPort_therm (i : Nat) (f : Port → Port) : (s.modPort i f).therm = s.therm := rfl
@[simp] theorem State.modPort_pending (i : Nat) (f : Port → Port) : (s.modPort i f).pending = s.pending := rfl
@[simp] theorem State.modPort_freeCtr (i : Nat) (f : Port → Port) : (s.modPort i f).freeCtr = s.freeCtr := rfl

/-! ### `modStrand` -/

@[simp] theorem State.modStrand_sys (n : Nat) (f : Strand → Strand) : (s.modStrand n f).sys = s.sys := rfl
@[simp] theorem State.modStrand_otp (n : Nat) (f : Strand → Strand) : (s.modStrand n f).otp = s.otp := rfl
@[simp] theorem State.modStrand_flash (n : Nat) (f : Strand → Strand) : (s.modStrand n f).flash = s.flash := rfl
@[simp] theorem State.modStrand_geode (n : Nat) (f : Strand → Strand) : (s.modStrand n f).geode = s.geode := rfl
@[simp] theorem State.modStrand_cmd (n : Nat) (f : Strand → Strand) : (s.modStrand n f).cmd = s.cmd := rfl
@[simp] theorem State.modStrand_time (n : Nat) (f : Strand → Strand) : (s.modStrand n f).time = s.time := rfl
@[simp] theorem State.modStrand_wdg (n : Nat) (f : Strand → Strand) : (s.modStrand n f).wdg = s.wdg := rfl
@[simp] theorem State.modStrand_memi (n : Nat) (f : Strand → Strand) : (s.modStrand n f).memi = s.memi := rfl
@[simp] theorem State.modStrand_conv (n : Nat) (f : Strand → Strand) : (s.modStrand n f).conv = s.conv := rfl
@[simp] theorem State.modStrand_prot (n : Nat) (f : Strand → Strand) : (s.modStrand n f).prot = s.prot := rfl
@[simp] theorem State.modStrand_path (n : Nat) (f : Strand → Strand) : (s.modStrand n f).path = s.path := rfl
@[simp] theorem State.modStrand_slolos (n : Nat) (f : Strand → Strand) : (s.modStrand n f).slolos = s.slolos := rfl
@[simp] theorem State.modStrand_strands (n : Nat) (f : Strand → Strand) : (s.modStrand n f).charge.strands = modAt s.charge.strands n f := rfl
@[simp] theorem State.modStrand_autoStarted (n : Nat) (f : Strand → Strand) : (s.modStrand n f).charge.autoStarted = s.charge.autoStarted := rfl
@[simp] theorem State.modStrand_pendant (n : Nat) (f : Strand → Strand) : (s.modStrand n f).pendant = s.pendant := rfl
@[simp] theorem State.modStrand_clasp (n : Nat) (f : Strand → Strand) : (s.modStrand n f).clasp = s.clasp := rfl
@[simp] theorem State.modStrand_meas (n : Nat) (f : Strand → Strand) : (s.modStrand n f).meas = s.meas := rfl
@[simp] theorem State.modStrand_therm (n : Nat) (f : Strand → Strand) : (s.modStrand n f).therm = s.therm := rfl
@[simp] theorem State.modStrand_pending (n : Nat) (f : Strand → Strand) : (s.modStrand n f).pending = s.pending := rfl
@[simp] theorem State.modStrand_freeCtr (n : Nat) (f : Strand → Strand) : (s.modStrand n f).freeCtr = s.freeCtr := rfl

/-! ### `modChan` -/

@[simp] theorem State.modChan_sys (k : Nat) (f : Chan → Chan) : (s.modChan k f).sys = s.sys := rfl
@[simp] theorem State.modChan_otp (k : Nat) (f : Chan → Chan) : (s.modChan k f).otp = s.otp := rfl
@[simp] theorem State.modChan_flash (k : Nat) (f : Chan → Chan) : (s.modChan k f).flash = s.flash := rfl
@[simp] theorem State.modChan_geode (k : Nat) (f : Chan → Chan) : (s.modChan k f).geode = s.geode := rfl
@[simp] theorem State.modChan_cmd (k : Nat) (f : Chan → Chan) : (s.modChan k f).cmd = s.cmd := rfl
@[simp] theorem State.modChan_time (k : Nat) (f : Chan → Chan) : (s.modChan k f).time = s.time := rfl
@[simp] theorem State.modChan_wdg (k : Nat) (f : Chan → Chan) : (s.modChan k f).wdg = s.wdg := rfl
@[simp] theorem State.modChan_memi (k : Nat) (f : Chan → Chan) : (s.modChan k f).memi = s.memi := rfl
@[simp] theorem State.modChan_conv (k : Nat) (f : Chan → Chan) : (s.modChan k f).conv = s.conv := rfl
@[simp] theorem State.modChan_prot (k : Nat) (f : Chan → Chan) : (s.modChan k f).prot = s.prot := rfl
@[simp] theorem State.modChan_chans (k : Nat) (f : Chan → Chan) : (s.modChan k f).path.chans = modAt s.path.chans k f := rfl
@[simp] theorem State.modChan_inhibit (k : Nat) (f : Chan → Chan) : (s.modChan k f).path.inhibit = s.path.inhibit := rfl
@[simp] theorem State.modChan_holder (k : Nat) (f : Chan → Chan) : (s.modChan k f).path.holder = s.path.holder := rfl
@[simp] theorem State.modChan_slolos (k : Nat) (f : Chan → Chan) : (s.modChan k f).slolos = s.slolos := rfl
@[simp] theorem State.modChan_charge (k : Nat) (f : Chan → Chan) : (s.modChan k f).charge = s.charge := rfl
@[simp] theorem State.modChan_pendant (k : Nat) (f : Chan → Chan) : (s.modChan k f).pendant = s.pendant := rfl
@[simp] theorem State.modChan_clasp (k : Nat) (f : Chan → Chan) : (s.modChan k f).clasp = s.clasp := rfl
@[simp] theorem State.modChan_meas (k : Nat) (f : Chan → Chan) : (s.modChan k f).meas = s.meas := rfl
@[simp] theorem State.modChan_therm (k : Nat) (f : Chan → Chan) : (s.modChan k f).therm = s.therm := rfl
@[simp] theorem State.modChan_pending (k : Nat) (f : Chan → Chan) : (s.modChan k f).pending = s.pending := rfl
@[simp] theorem State.modChan_freeCtr (k : Nat) (f : Chan → Chan) : (s.modChan k f).freeCtr = s.freeCtr := rfl

/-! ### `setReady` -/

@[simp] theorem State.setReady_ready (b : Block) (v : Bool) : (s.setReady b v).sys.ready = s.sys.ready.putBit b.index v := rfl
@[simp] theorem State.setReady_clk (b : Block) (v : Bool) : (s.setReady b v).sys.clk = s.sys.clk := rfl
@[simp] theorem State.setReady_power (b : Block) (v : Bool) : (s.setReady b v).sys.power = s.sys.power := rfl
@[simp] theorem State.setReady_mode (b : Block) (v : Bool) : (s.setReady b v).sys.mode = s.sys.mode := rfl
@[simp] theorem State.setReady_role (b : Block) (v : Bool) : (s.setReady b v).sys.role = s.sys.role := rfl
@[simp] theorem State.setReady_otp (b : Block) (v : Bool) : (s.setReady b v).otp = s.otp := rfl
@[simp] theorem State.setReady_flash (b : Block) (v : Bool) : (s.setReady b v).flash = s.flash := rfl
@[simp] theorem State.setReady_geode (b : Block) (v : Bool) : (s.setReady b v).geode = s.geode := rfl
@[simp] theorem State.setReady_cmd (b : Block) (v : Bool) : (s.setReady b v).cmd = s.cmd := rfl
@[simp] theorem State.setReady_time (b : Block) (v : Bool) : (s.setReady b v).time = s.time := rfl
@[simp] theorem State.setReady_wdg (b : Block) (v : Bool) : (s.setReady b v).wdg = s.wdg := rfl
@[simp] theorem State.setReady_memi (b : Block) (v : Bool) : (s.setReady b v).memi = s.memi := rfl
@[simp] theorem State.setReady_conv (b : Block) (v : Bool) : (s.setReady b v).conv = s.conv := rfl
@[simp] theorem State.setReady_prot (b : Block) (v : Bool) : (s.setReady b v).prot = s.prot := rfl
@[simp] theorem State.setReady_path (b : Block) (v : Bool) : (s.setReady b v).path = s.path := rfl
@[simp] theorem State.setReady_slolos (b : Block) (v : Bool) : (s.setReady b v).slolos = s.slolos := rfl
@[simp] theorem State.setReady_charge (b : Block) (v : Bool) : (s.setReady b v).charge = s.charge := rfl
@[simp] theorem State.setReady_pendant (b : Block) (v : Bool) : (s.setReady b v).pendant = s.pendant := rfl
@[simp] theorem State.setReady_clasp (b : Block) (v : Bool) : (s.setReady b v).clasp = s.clasp := rfl
@[simp] theorem State.setReady_meas (b : Block) (v : Bool) : (s.setReady b v).meas = s.meas := rfl
@[simp] theorem State.setReady_therm (b : Block) (v : Bool) : (s.setReady b v).therm = s.therm := rfl
@[simp] theorem State.setReady_pending (b : Block) (v : Bool) : (s.setReady b v).pending = s.pending := rfl
@[simp] theorem State.setReady_freeCtr (b : Block) (v : Bool) : (s.setReady b v).freeCtr = s.freeCtr := rfl

/-! ### `takeBit` -/

@[simp] theorem State.takeBit_fst : s.takeBit.1 = Config.freeBit s.freeCtr := rfl
@[simp] theorem State.takeBit_sys : s.takeBit.2.sys = s.sys := rfl
@[simp] theorem State.takeBit_otp : s.takeBit.2.otp = s.otp := rfl
@[simp] theorem State.takeBit_flash : s.takeBit.2.flash = s.flash := rfl
@[simp] theorem State.takeBit_geode : s.takeBit.2.geode = s.geode := rfl
@[simp] theorem State.takeBit_cmd : s.takeBit.2.cmd = s.cmd := rfl
@[simp] theorem State.takeBit_time : s.takeBit.2.time = s.time := rfl
@[simp] theorem State.takeBit_wdg : s.takeBit.2.wdg = s.wdg := rfl
@[simp] theorem State.takeBit_memi : s.takeBit.2.memi = s.memi := rfl
@[simp] theorem State.takeBit_conv : s.takeBit.2.conv = s.conv := rfl
@[simp] theorem State.takeBit_prot : s.takeBit.2.prot = s.prot := rfl
@[simp] theorem State.takeBit_path : s.takeBit.2.path = s.path := rfl
@[simp] theorem State.takeBit_slolos : s.takeBit.2.slolos = s.slolos := rfl
@[simp] theorem State.takeBit_charge : s.takeBit.2.charge = s.charge := rfl
@[simp] theorem State.takeBit_pendant : s.takeBit.2.pendant = s.pendant := rfl
@[simp] theorem State.takeBit_clasp : s.takeBit.2.clasp = s.clasp := rfl
@[simp] theorem State.takeBit_meas : s.takeBit.2.meas = s.meas := rfl
@[simp] theorem State.takeBit_therm : s.takeBit.2.therm = s.therm := rfl
@[simp] theorem State.takeBit_pending : s.takeBit.2.pending = s.pending := rfl
@[simp] theorem State.takeBit_freeCtr : s.takeBit.2.freeCtr = s.freeCtr + 1 := rfl

/-! ### `takeNat` -/

@[simp] theorem State.takeNat_fst : s.takeNat.1 = Config.freeNat s.freeCtr := rfl
@[simp] theorem State.takeNat_sys : s.takeNat.2.sys = s.sys := rfl
@[simp] theorem State.takeNat_otp : s.takeNat.2.otp = s.otp := rfl
@[simp] theorem State.takeNat_flash : s.takeNat.2.flash = s.flash := rfl
@[simp] theorem State.takeNat_geode : s.takeNat.2.geode = s.geode := rfl
@[simp] theorem State.takeNat_cmd : s.takeNat.2.cmd = s.cmd := rfl
@[simp] theorem State.takeNat_time : s.takeNat.2.time = s.time := rfl
@[simp] theorem State.takeNat_wdg : s.takeNat.2.wdg = s.wdg := rfl
@[simp] theorem State.takeNat_memi : s.takeNat.2.memi = s.memi := rfl
@[simp] theorem State.takeNat_conv : s.takeNat.2.conv = s.conv := rfl
@[simp] theorem State.takeNat_prot : s.takeNat.2.prot = s.prot := rfl
@[simp] theorem State.takeNat_path : s.takeNat.2.path = s.path := rfl
@[simp] theorem State.takeNat_slolos : s.takeNat.2.slolos = s.slolos := rfl
@[simp] theorem State.takeNat_charge : s.takeNat.2.charge = s.charge := rfl
@[simp] theorem State.takeNat_pendant : s.takeNat.2.pendant = s.pendant := rfl
@[simp] theorem State.takeNat_clasp : s.takeNat.2.clasp = s.clasp := rfl
@[simp] theorem State.takeNat_meas : s.takeNat.2.meas = s.meas := rfl
@[simp] theorem State.takeNat_therm : s.takeNat.2.therm = s.therm := rfl
@[simp] theorem State.takeNat_pending : s.takeNat.2.pending = s.pending := rfl
@[simp] theorem State.takeNat_freeCtr : s.takeNat.2.freeCtr = s.freeCtr + 1 := rfl

/-! ### `takeInt` -/

@[simp] theorem State.takeInt_fst : s.takeInt.1 = Config.freeInt s.freeCtr := rfl
@[simp] theorem State.takeInt_sys : s.takeInt.2.sys = s.sys := rfl
@[simp] theorem State.takeInt_otp : s.takeInt.2.otp = s.otp := rfl
@[simp] theorem State.takeInt_flash : s.takeInt.2.flash = s.flash := rfl
@[simp] theorem State.takeInt_geode : s.takeInt.2.geode = s.geode := rfl
@[simp] theorem State.takeInt_cmd : s.takeInt.2.cmd = s.cmd := rfl
@[simp] theorem State.takeInt_time : s.takeInt.2.time = s.time := rfl
@[simp] theorem State.takeInt_wdg : s.takeInt.2.wdg = s.wdg := rfl
@[simp] theorem State.takeInt_memi : s.takeInt.2.memi = s.memi := rfl
@[simp] theorem State.takeInt_conv : s.takeInt.2.conv = s.conv := rfl
@[simp] theorem State.takeInt_prot : s.takeInt.2.prot = s.prot := rfl
@[simp] theorem State.takeInt_path : s.takeInt.2.path = s.path := rfl
@[simp] theorem State.takeInt_slolos : s.takeInt.2.slolos = s.slolos := rfl
@[simp] theorem State.takeInt_charge : s.takeInt.2.charge = s.charge := rfl
@[simp] theorem State.takeInt_pendant : s.takeInt.2.pendant = s.pendant := rfl
@[simp] theorem State.takeInt_clasp : s.takeInt.2.clasp = s.clasp := rfl
@[simp] theorem State.takeInt_meas : s.takeInt.2.meas = s.meas := rfl
@[simp] theorem State.takeInt_therm : s.takeInt.2.therm = s.therm := rfl
@[simp] theorem State.takeInt_pending : s.takeInt.2.pending = s.pending := rfl
@[simp] theorem State.takeInt_freeCtr : s.takeInt.2.freeCtr = s.freeCtr + 1 := rfl

/-! ### Elements of lists -/

/-- An element of a list after an update reads as the update of the old one, or as the old one. -/
theorem getAt_modAt {α : Type} (l : List α) (i j : Nat) (d : α) (f : α → α) :
    getAt (modAt l i f) j d = if i = j ∧ j < l.length then f (getAt l j d) else getAt l j d := by
  unfold getAt modAt
  by_cases hj : j < l.length <;> by_cases hij : i = j <;> simp [List.getD, hj, hij]

/-- The lane read after an update of one lane. -/
theorem State.modLane_lane (k j : Nat) (f : Lane → Lane) :
    (s.modLane k f).lane j = if k = j ∧ j < s.conv.lanes.length then f (s.lane j) else s.lane j :=
  getAt_modAt ..

/-- The port read after an update of one port. -/
theorem State.modPort_port (i j : Nat) (f : Port → Port) :
    (s.modPort i f).port j = if i = j ∧ j < s.clasp.ports.length then f (s.port j) else s.port j :=
  getAt_modAt ..

/-- The strand read after an update of one strand. -/
theorem State.modStrand_strand (n j : Nat) (f : Strand → Strand) :
    (s.modStrand n f).strand j = if n = j ∧ j < s.charge.strands.length then f (s.strand j) else s.strand j :=
  getAt_modAt ..

/-- The channel read after an update of one channel. -/
theorem State.modChan_chan (k j : Nat) (f : Chan → Chan) :
    (s.modChan k f).chan j = if k = j ∧ j < s.path.chans.length then f (s.chan j) else s.chan j :=
  getAt_modAt ..

end Sys2Proof.Machine
end

