-- ==== Sys2Proof/WellFormed.lean ====
section
/-!
DEFINITION. Which commands are well formed: every number that names a unit of the die names one that exists, and every
field fits the width that the spec gives it. What a packet's payload holds is judged by the block itself (R121), and
so is no part of this.
-/
namespace Sys2Proof

/-- One of the four lanes (R1), A/D tables or protected memories. -/
def okFour (n : Nat) : Bool := n < 4
/-- One of the two ports (Slolos, Clasp) or CAN FD controllers (R3). -/
def okTwo (n : Nat) : Bool := n < 2
/-- A leg, a DFLT input or a CMP comparator (R1, R211), or a general timer (R400). -/
def okSixteen (n : Nat) : Bool := n < 16
/-- A Bezel channel BZ0 to BZ5 (Table 11-1). -/
def okChannel (n : Nat) : Bool := n < 6
/-- A Bezel comparator: upper, lower and voltage of each channel (R264). -/
def okBezelCmp (n : Nat) : Bool := n < 18
/-- A modulator input (Table 08-1). -/
def okModulator (n : Nat) : Bool := n < 20
/-- A worker address or 0 (R12). -/
def okAddress (n : Nat) : Bool := n < 64
/-- A 16-bit or 32-bit number (R6). -/
def ok16 (n : Nat) : Bool := n < 2 ^ 16
def ok32 (n : Nat) : Bool := n < 2 ^ 32
/-- A byte count of Table 06-1: a packet has at most 1,024 payload bytes (R118). -/
def okPayload (p : List Byte) : Bool := p.length ≤ 1024
/-- A capture input (Table 17-8). -/
def okEight (n : Nat) : Bool := n < 8
/-- A CAN node (R143). -/
def okNode (n : Nat) : Bool := n < 256

/-- A header's numbers fit their fields (Table 06-1, R143). -/
def Hdr.wf (h : Hdr) : Bool := ok32 h.epoch && okNode h.node

/-- A packet of a defined opcode. -/
def okPacket (h : Hdr) (p : List Byte) : Bool := h.wf && okPayload p

/-- A Clasp message: port, sequence number and the number it answers (R346, R348). -/
def okClasp (port seqNo answers : Nat) : Bool := okTwo port && seqNo < 256 && answers < 256

/-- A key of a command in flight: an internal tag is 1 to 127 (R124). -/
def FlightKey.wf (k : FlightKey) : Bool := 0 < k.tag && k.tag < 128

/-- The command that an access to queue RAM names. -/
def RamUse.wf : RamUse → Bool
  | .read _ _ _ _ o _ => o.all FlightKey.wf
  | .part _ _ _ _ o => o.all FlightKey.wf
  | .write _ => true

/-- The lane, channel or strand that an actuator value is for (Table 05-5); the Pendant target has none. -/
def Actuator.wf (place : Nat) : Actuator → Bool
  | .laneTarget _ _ => okFour place
  | .laneShare _ => okFour place
  | .lanePeriod _ => okFour place
  | .linkHold _ => okFour place
  | .threshold _ _ => okChannel place
  | .sourceLimit _ => okFour place
  | .coeffs _ values => okFour place && values.length == 7
  | .drop _ => okFour place
  | .window _ _ => okSixteen place
  | .extended _ => okFour place
  | .pendant _ _ => place == 0
  | .boost => okFour place

/-- A write of the application core. -/
def CoreWrite.wf (place : Nat) : CoreWrite → Bool
  | .register data => ok32 place && ok32 data
  | .actuator value => value.wf place

/-- The well-formed commands. -/
def Instr.wf : Instr → Bool
  | .vaonRise => true
  | .supplyMonitorTrip _ => true
  | .supplyMonitorRelease => true
  | .nrstLow _ => true
  | .nrstRise _ => true
  | .resetEntry => true
  | .resetEnd _ => true
  | .referenceCheck _ => true
  | .pllLock => true
  | .pllLockTimeout => true
  | .pllRetryRestart => true
  | .clockStart => true
  | .blockReady _ => true
  | .blockRestart _ => true
  | .pllLoss => true
  | .refLoss _ => true
  | .lfrcMeasUpdate _ => true
  | .patchCheckDone _ => true
  | .pendingWipeDone => true
  | .slotSelectionDone => true
  | .bootCertLoaded => true
  | .eupefenRunning => true
  | .execFault => true
  | .appCoreActuatorWrite place write => write.wf place
  | .writePacket transaction => transaction.command < 256
  | .readPacket _ => true
  | .windowRead address _ => ok32 address
  | .windowWrite address data => ok32 address && ok32 data
  | .status => true
  | .hungAccessComplete => true
  | .hsCsnWake => true
  | .cmdErrorsRead => true
  | .pendantCountRead => true
  | .slolosErrorsRead => true
  | .claspCountRead port => okTwo port
  | .memiStatusRead => true
  | .memiCorrRead mem => okFour mem
  | .timerCapstatRead timer => okSixteen timer
  | .timerCaptureRead timer => okSixteen timer
  | .timeSysLoRead => true
  | .timerCountLatchRead timer => okSixteen timer
  | .timeEpochNumRead => true
  | .timerCompareWrite timer value => okSixteen timer && ok32 value
  | .timerPeriodWrite timer value => okSixteen timer && ok32 value
  | .timerCountWrite timer value => okSixteen timer && ok32 value
  | .measViewHoldWrite _ => true
  | .wdgService key => ok32 key
  | .wdgWindowWrite value => ok32 value
  | .malformedPacket _ node _ => okNode node
  | .undefinedOpcode h opcode p => ok16 opcode && okPacket h p
  | .canFrameReceived controller ident _ bytes => okTwo controller && ident < 2 ^ 29 && bytes.length ≤ 64
  | .canReassemblyTimeout controller node => okTwo controller && okNode node
  | .canBusOff controller => okTwo controller
  | .canBusOffRecovery controller => okTwo controller
  | .echo h p => okPacket h p
  | .dieInfo h p => okPacket h p
  | .cancel h p => okPacket h p
  | .eventRoute h p => okPacket h p
  | .canConfig h p => okPacket h p
  | .cmdStats h p => okPacket h p
  | .enterStandby h p => okPacket h p
  | .enterHibernate h p => okPacket h p
  | .setWake h p => okPacket h p
  | .softReset h p => okPacket h p
  | .wakeInput input _ => okFour input
  | .wakeTimerExpired => true
  | .standbyWake => true
  | .hibWake => true
  | .serviceWake => true
  | .serviceWakeReturn => true
  | .epochStatus h p => okPacket h p
  | .epochSetLength h p => okPacket h p
  | .epochBoundary => true
  | .policyLate => true
  | .markerSend => true
  | .marker _ _ => true
  | .markerMissed => true
  | .telemetrySlot => true
  | .telemetryFrame address _ => okAddress address
  | .sumDeadline => true
  | .allotmentComputed => true
  | .allotmentFrame _ => true
  | .allotmentMissed => true
  | .frameStart lane => okFour lane
  | .legTurnOn leg => okSixteen leg
  | .decimatorOutput modulator _ => okModulator modulator
  | .brakeEnd lane => okFour lane
  | .comparatorCrossing cmp _ _ _ => okSixteen cmp
  | .crowbarBlankEnd lane => okFour lane
  | .crowbarClose lane => okFour lane
  | .crowbarTimeout lane => okFour lane
  | .dfltInputChange leg _ => okSixteen leg
  | .driverFault leg => okSixteen leg
  | .faultFrame _ _ => true
  | .laneConfig h p => okPacket h p
  | .laneStart h p => okPacket h p
  | .laneStop h p => okPacket h p
  | .setLaneTarget h p => okPacket h p
  | .setLaneCoeffs h p => okPacket h p
  | .setLaneProfile h p => okPacket h p
  | .setBurst h p => okPacket h p
  | .tuningControl h p => okPacket h p
  | .lanePhaseLock h p => okPacket h p
  | .laneLegs h p => okPacket h p
  | .laneStatus h p => okPacket h p
  | .protConfig h p => okPacket h p
  | .protClear h p => okPacket h p
  | .protLogRead h p => okPacket h p
  | .echoRead h p => okPacket h p
  | .echoClear h p => okPacket h p
  | .strandConfig h p => okPacket h p
  | .chargeStart h p => okPacket h p
  | .chargeStop h p => okPacket h p
  | .chargeEqualise h p => okPacket h p
  | .strandStatus h p => okPacket h p
  | .bmsLimits h p => okPacket h p
  | .strandPlan h p => okPacket h p
  | .bezelConfig h p => okPacket h p
  | .pathConfig h p => okPacket h p
  | .sourceInhibit h p => okPacket h p
  | .bezelClear h p => okPacket h p
  | .pathStatus h p => okPacket h p
  | .peerPower h p => okPacket h p
  | .bezelComparatorCrossing comparator _ => okBezelCmp comparator
  | .bezelTrip comparator => okBezelCmp comparator
  | .slowOcNoSample channel => okChannel channel
  | .bzFbQualified channel => okChannel channel
  | .bzCloseTimeout channel => okChannel channel
  | .bzOpenTimeout channel => okChannel channel
  | .bzRetryReset channel => okChannel channel
  | .pendantSetpointFrame word => ok32 word
  | .pendantStatusFrame word => ok32 word
  | .pendantGapDiscard => true
  | .pendantAnswerReady => true
  | .pendantAnswerRead => true
  | .pendantAnswerTimeout => true
  | .pendantSlewStep => true
  | .pendantDone => true
  | .pendantNotSettled => true
  | .pendantConfig h p => okPacket h p
  | .pendantStatus h p => okPacket h p
  | .linkUp port => okTwo port
  | .linkDownDetected loss => okTwo loss.port
  | .delayMeasured port _ _ _ => okTwo port
  | .echoFrame port _ _ _ _ => okTwo port
  | .enum _ _ nextAddr prevAddr _ _ => nextAddr < 256 && prevAddr < 256
  | .enumAnswer _ dieId _ address _ => dieId.length == 8 && okAddress address
  | .enumEnd _ address _ => okAddress address
  | .enumNoWorkerTimeout => true
  | .appendRetry => true
  | .join _ => true
  | .joinTimer => true
  | .unassign _ => true
  | .resetFrame _ mask => mask < 2 ^ 64
  | .linkDown _ address port => okAddress address && okTwo port
  | .packetFrame _ => true
  | .slolosWakeDetected => true
  | .chainStatus h p => okPacket h p
  | .chainWorker h p => okPacket h p
  | .chainEnumerate h p => okPacket h p
  | .chainReset h p => okPacket h p
  | .chainConfig h p => okPacket h p
  | .claspSenseChange port _ _ => okTwo port
  | .claspAttachTimer port => okTwo port
  | .claspToggle port => okTwo port
  | .claspTryTimeout port => okTwo port
  | .claspDetachDetected port => okTwo port
  | .caps port _ seqNo answers _ => okClasp port seqNo answers
  | .request port _ seqNo answers _ => okClasp port seqNo answers
  | .accept port _ seqNo answers _ => okClasp port seqNo answers
  | .reject port _ seqNo answers _ => okClasp port seqNo answers
  | .ready port _ seqNo answers _ => okClasp port seqNo answers
  | .swapJs port _ seqNo answers _ => okClasp port seqNo answers
  | .hold port _ seqNo answers _ => okClasp port seqNo answers
  | .detach port _ seqNo answers _ => okClasp port seqNo answers
  | .claspBadMessage port => okTwo port
  | .claspCollision port => okTwo port
  | .claspRetryIdle port => okTwo port
  | .claspAnswerTimeout port => okTwo port
  | .claspTransitionTimeout port => okTwo port
  | .claspHoldTimeout port => okTwo port
  | .claspSwapDelay port => okTwo port
  | .claspRecoveryEnd port => okTwo port
  | .claspConfig h p => okPacket h p
  | .claspStatus h p => okPacket h p
  | .claspRequest h p => okPacket h p
  | .claspSwapJs h p => okPacket h p
  | .claspHold h p => okPacket h p
  | .claspDetach h p => okPacket h p
  | .conversionDone converter code => okFour converter && ok16 code
  | .measCalibrationDone => true
  | .measTable h p => okPacket h p
  | .measAccConfig h p => okPacket h p
  | .measClear h p => okPacket h p
  | .measSnapshotRead h p => okPacket h p
  | .measTableStatus h p => okPacket h p
  | .thermalReadStart => true
  | .thermalReadDone readings => readings.length == 8
  | .thermalHeldRead readings => readings.length == 8
  | .thermConfig h p => okPacket h p
  | .thermStatus h p => okPacket h p
  | .thermPeakClear h p => okPacket h p
  | .timerOverflow timer => okSixteen timer
  | .timerMatch timer => okSixteen timer
  | .captureEdge input edge => okEight input && edge.held < 256
  | .lfrcStepSwitch => true
  | .debugHalt _ => true
  | .wdgExpire => true
  | .wdgClkmon => true
  | .lfrcResume => true
  | .timerConfig h p => okPacket h p
  | .timerStatus h p => okPacket h p
  | .timerCaptures h p => okPacket h p
  | .timeRead h p => okPacket h p
  | .scrubVisit mem uses _ tagged _ => okFour mem && (uses.all RamUse.wf) && tagged.all FlightKey.wf
  | .dripLeak mem => okFour mem
  | .memiConfig h p => okPacket h p
  | .memiRead h p => okPacket h p
  | .memiInject h p => okPacket h p
  | .flashStatus h p => okPacket h p
  | .fwUpdateBegin h p => okPacket h p
  | .updateEraseDone => true
  | .fwUpdateChunk h p => okPacket h p
  | .chunkCommitted => true
  | .fwUpdateFinish h p => okPacket h p
  | .fwActivate h p => okPacket h p
  | .fwConfirm h p => okPacket h p
  | .fwUpdateAbort h p => okPacket h p
  | .journalWrite h p => okPacket h p
  | .journalCommit h p => okPacket h p
  | .journalCommitDone => true
  | .journalRead h p => okPacket h p
  | .journalRemove h p => okPacket h p
  | .lcStatus h p => okPacket h p
  | .lcAdvance h p => okPacket h p
  | .lcWipeDone => true
  | .keyProgram h p => okPacket h p
  | .keyRevoke h p => okPacket h p
  | .keyStatusRead h p => okPacket h p
  | .certLoad h p => okPacket h p
  | .certVerified => true
  | .certCommitted => true
  | .certEraseDone => true
  | .certRead h p => okPacket h p
  | .fenceStatus h p => okPacket h p
  | .otpOption h p => okPacket h p
  | .jtagInstruction _ => true
  | .bzFbChange channel _ => okChannel channel
  | .slolosPortStart port => okTwo port
  | .claspLineIdle port => okTwo port
  | .claspMessageSent port => okTwo port
  | .canFrameTransmitted controller => okTwo controller
  | .otpProgramDone => true
  | .tombstoneCommitted => true
  | .bodyHashDone => true

end Sys2Proof
end

