-- ==== Sys2Proof/Tests/Slice0.lean ====
section
/-!
SUPPORT. Checks of the author's own: well-formed commands, a state and operands that meet each statement's premises, and commands
whose results the spec gives in numbers.
-/
namespace Sys2Proof.Tests
set_option maxRecDepth 100000
set_option Elab.async false
open Sys2Proof Sys2Proof.Machine

/-! ### Bodies and states that the witnesses share -/

/-- `n` zero bytes with fields put at their offsets: (offset, length, value). -/
def build (n : Nat) (l : List (Nat × Nat × Nat)) : List Byte := l.foldl (fun b x => putField b x.1 x.2.1 x.2.2) (zeros n)

/-- A lane profile body at lower and upper bounds of Table 08-9: legs 0 and 1, no strand, 100 kHz, inputs V0 and V1. -/
def profile : List Byte := build 144
  [(0, 2, 3), (2, 1, 0xFF), (3, 1, 8), (4, 4, 100000), (8, 2, 16383), (0xA, 2, 16383), (0xE, 2, 65535), (0x10, 2, 16383),
    (0x14, 1, 16), (0x15, 1, 17), (0x17, 1, 1), (0x18, 4, 1), (0x1C, 4, 1), (0x20, 4, 1), (0x28, 4, 0x01000000),
    (0x2E, 2, 1311), (0x30, 2, 500), (0x32, 1, 20), (0x34, 4, 1), (0x38, 4, 1), (0x3C, 2, 20), (0x3E, 2, 16), (0x78, 4, 1),
    (0x7C, 4, 1), (0x80, 4, 1), (0x84, 1, 64), (0x85, 1, 5), (0x86, 1, 30)]

/-- A protection record body: CMP0 and CMP1 limit their legs, CMP2 to CMP4 watch lane 0's string, and its decimator too. -/
def protBody : List Byte := build 228
  [(4, 1, 1), (5, 1, 0xFF), (6, 1, 1), (8, 2, 1023), (16, 1, 1), (17, 1, 0xFF), (18, 1, 2), (20, 2, 1023),
    (28, 1, 2), (30, 1, 3), (32, 2, 1023), (40, 1, 2), (42, 1, 2), (44, 2, 1023), (0xC4, 4, 900000)]

/-- A strand record body of chemistry 0 with BMS_LIMITS, served by lane 0 of this die. -/
def strandBody : List Byte := build 224
  ([(1, 1, 1), (2, 2, 1), (4, 4, 1000), (8, 4, 1000), (0xC, 2, 42500), (0xE, 2, 42501), (0x10, 2, 25000), (0x12, 2, 30000),
    (0x14, 2, 50), (0x16, 2, 1), (0x18, 2, 60000), (0x1A, 2, 999), (0x1C, 2, 998), (0x1E, 2, 999), (0x20, 2, 4096), (0x22, 2, 1),
    (0x24, 2, 1), (0x26, 2, 1), (0x2A, 2, 20000), (0x2C, 2, 10000), (0x2E, 2, 30000), (0x3A, 2, 0x7FFF), (0x3C, 2, 0x7FFF),
    (0x3E, 2, 100), (0x44, 2, 39000), (0x46, 2, 10000), (0x48, 2, 3600), (0x4A, 2, 600), (0x4C, 1, 0xFF), (0x4D, 1, 100),
    (0x50, 4, 1), (0x54, 4, 1000000), (0x5B, 1, 0xFF), (0x5C, 4, 65535)]
    ++ (List.range 15).map fun e => (0x68 + 8 * e, 1, 0xFF))

/-- A channel record body: enabled, no accumulators, thresholds about its zero level. -/
def chanBody : List Byte := build 64
  [(0, 1, 1), (2, 1, 0xFF), (3, 1, 0xFF), (4, 2, 1023), (6, 2, 1023), (8, 2, 0), (0xA, 2, 0), (0xC, 1, 80), (0xD, 1, 180),
    (0xE, 2, 380), (0x10, 2, 9000), (0x14, 4, 1), (0x18, 4, 1), (0x20, 2, 10), (0x22, 2, 1), (0x24, 2, 20), (0x26, 1, 7),
    (0x27, 1, 1), (0x28, 2, 10), (0x2A, 2, 3600), (0x34, 4, 1)]

/-- A power-path record body. -/
def pathBody : List Byte := build 36
  [(1, 1, 63), (2, 1, 16), (4, 2, 500), (6, 2, 100), (0x10, 2, 990), (0x12, 2, 10), (0x14, 2, 1000), (0x16, 2, 500), (0x1C, 1, 0xFF),
    (0x1E, 2, 10000), (0x20, 4, 1)]

/-- A thermal record body without external channels. -/
def thermBody : List Byte := build 704
  (((List.range 5).map fun k =>
    let o := if k = 0 then 0 else 0x10 + 12 * (k - 1)
    [(o, 2, 1250), (o + 2, 2, 1400), (o + 4, 2, 1600), (o + 6, 2, 10), (o + 8, 2, 200), (o + 10, 1, 10)]).flatten
    ++ (List.range 8).map fun c => (0x40 + 80 * c, 1, 0xFF))

/-- A table of one entry: a voltage channel of converter 0, F = 1, accumulator 63 and tracker 31. -/
def table1 : List Byte := build 520 [(0, 1, 1), (8, 1, 0), (8 + 3, 1, 63), (8 + 6, 1, 31)]

/-- A Pendant record body in LINK mode on input V1, and a Clasp record body. -/
def pendantBody : List Byte := build 16 [(0, 1, 1), (2, 1, 17), (4, 4, 1), (8, 2, 10000), (0xA, 2, 60000)]
def claspBody : List Byte := build 32
  [(1, 1, 3), (2, 1, 0xFF), (0xC, 4, 1), (0x10, 1, 50), (0x12, 2, 60), (0x14, 2, 600)]

/-- The key and the signatures of the tests: private key 1 and nonce 1 of P-256, made outside Lean. -/
def key1 : List Byte := be 32 ecG.1 ++ be 32 ecG.2
def key1Hash : List Byte := be 32 0xd875db7def232236aec738c6b0bb3e80142f5d0fd8f4df24fed6eef5cbb50d9f

/-- A signed certificate whose limits admit the bodies above. -/
def cert : List Byte :=
  build 256 ([(0, 4, 0x31434D4C), (4, 1, 1), (6, 2, 384), (8, 4, 1), (0x14, 4, 3), (0x18, 4, 1000000), (0xA0, 4, 1023750),
      (0xA4, 1, 7), (0xA6, 2, 100)]
    ++ ((List.range 4).map fun k => [(0x20 + 16 * k, 4, 900000), (0x24 + 16 * k, 4, 20000), (0x28 + 16 * k, 4, 20000),
      (0x2C + 16 * k, 2, 500)]).flatten
    ++ ((List.range 6).map fun k => [(0x60 + 8 * k, 4, 20000), (0x64 + 8 * k, 4, 900000)]).flatten
    ++ ((List.range 4).map fun k => [(0x90 + 4 * k, 4, 20000), (0xA8 + 4 * k, 2, 0xFED4), (0xAA + 4 * k, 2, 550)]).flatten)
  ++ key1 ++ be 32 ecG.1 ++ be 32 0x4b90fc67ee55787b41b263151245e43a52bbefab0897c82a66d47f4b38f6cee8

/-- A signed image header: version 256, a body of two chunks, both parts. -/
def header : List Byte :=
  build 0x38 [(0, 4, 0x46505545), (4, 1, 1), (5, 1, 1), (8, 4, 256), (0xC, 4, 1024), (0x14, 1, 3)] ++ key1 ++ zeros 72
  ++ be 32 ecG.1 ++ be 32 0x22a9566eceee54b47464b8bddf909ca0218b871da7225c8714371cfa94fccc43

/-- A standalone die that has booted: clocks running, every block ready, Eupefen running under that certificate. -/
def awake : State :=
  { State.reset with
    sys := { State.reset.sys with clk := .running, ready := 0xFFFF, safeLow := false }
    geode := { Geode.reset with stage := .running, cert := some cert }
    otp := { State.reset.otp with vkeys := setAt State.reset.otp.vkeys 0 key1Hash, ikeys := setAt State.reset.otp.ikeys 0 key1Hash,
                                  iProgrammed := 1 } }

def manager : State := { awake with sys := { awake.sys with role := .manager } }
def worker : State := { awake with sys := { awake.sys with role := .worker }, slolos := { awake.slolos with address := 1 } }
def held : State := { awake with sys := { awake.sys with held := true, trig := 0x102 } }

/-- Lane 0 configured and OFF, under the protection record; BZ4 and strand 0 configured. -/
def ready0 : State :=
  let s := (((awake.configureLane 0 profile).modProt fun p => { p with body := some protBody }).modStrand 0 fun x =>
    { x with body := some strandBody }).modChan 4 fun c => { c with body := some chanBody, state := .opened }
  { s with cmd := awake.cmd }

/-- The same with lane 0 regulating. -/
def running : State := ready0.modLane 0 fun l => { l with mode := .regulate, fn := .bus }

/-- Headers of an unscheduled request over SPI, of one over CAN0, of the die's own, and of one for the next epoch but one. -/
def now : Hdr := { origin := .spi, node := 0, chain := false, flags := 0, target := 0, tag := 1, epoch := 0 }
def own : Hdr := { now with origin := .internal, flags := 0x40, epoch := 2 }
def soon : Hdr := { now with flags := 0x40, tag := 127, epoch := 2 }

/-! ### Further states -/

/-- A command of SPI with tag 127 waits for epoch 2. -/
def waiting127 : Flight := waitingOf awake opLaneStop soon (zeros 4)
def pend : State := awake.queued opLaneStop soon (zeros 4)

/-- A CAN controller is on, node 0, base 1. -/
def canOn0 : State := awake.modCmd fun c => c.setCan 0 { CanCtl.reset with body := some (build 12 [(0, 1, 1), (4, 2, 1)]) }

/-- Lane 3 has a profile of the same frequency and other legs. -/
def paired : State := { ready0.configureLane 3 (putField profile 0 2 12) with cmd := awake.cmd }

/-- Strand 0 with a known temperature; strand 0 of chemistry 3. -/
def warm : State := ready0.modStrand 0 fun x =>
  { x with bms := some (Bms.ofBytes (build 32 [(1, 1, 3), (24, 2, 250), (26, 2, 250)])), bmsFresh := true }
def lead : State := ready0.modStrand 0 fun x => { x with body := some (putField strandBody 0 1 3) }

/-- A source channel is enabled; channel 4 is locked out. -/
def sourced : State := awake.modChan 0 fun c => { c with body := some (build 64 [(0, 1, 1)]) }
def locked4 : State := ready0.modChan 4 fun c => { c with state := .lockout }

/-- Port 1 configured and attached as an importer, with a contract. -/
def joined : State := awake.modPort 1 fun p =>
  { p with body := some claspBody, mode := .attachedSink, pref := 3, grant := some 100, bandA := .mid }

/-- An update session in progress: its first chunk is stored, both are, the slot is whole, the slot runs on trial. -/
def session : Session := { number := 7, header := header, target := .b, next := 1, erased := true }
def updating : State := awake.modFlash fun f =>
  { f with session := some session, lastSession := 7, slotB := { Slot.blank with header := header, chunks := [zeros 512] } }
def sent : State := awake.modFlash fun f =>
  { f with session := some { session with next := 2 }, slotB := { Slot.blank with header := header, chunks := [zeros 512, zeros 512] } }
def whole : State := awake.modFlash fun f => { f with slotB := { Slot.blank with header := header, complete := true } }
def onTrial : State := (whole.modFlash fun f => { f with trial := some .b }).modGeode fun g => { g with slotRunning := some .b }

/-- A blob of one record of the epoch length in the staging buffer, and such a record in the journal. -/
def staged : List Byte :=
  withCrc32 (le 4 0x31425849 ++ le 2 1 ++ le 2 1 ++ le 4 32 ++ zeros 4 ++ le 2 7 ++ le 2 0 ++ le 4 4 ++ le 4 1000)
def withBlob : State := awake.modFlash fun f => { f with staging := Memory.store [] 0 staged }
def recorded : State := awake.modFlash fun f =>
  { f with jRecs := [{ type := 7, inst := 0, seqNo := 1, body := le 4 1000, whole := true }], jSeq := 1 }

/-! ### From a check that computes to the premise it stands for -/

def admitsB (o : OpSpec) (h : Hdr) (p : List Byte) (s : State) : Bool :=
  receives h s && !badHeader h && !(h.flags.getLsbD 5 && !h.chain) && ownTarget h s && !(o.mqOnly && s.otp.partWq)
    && s.cmd.flights.all (fun g => !(g.key.origin == h.origin && g.key.tag == h.tag.toNat)) && !noTag h s
    && !badScheduling o h && (windowRefusal h s).isNone && decide (s.cmd.depth 0 < Config.queueEntries)
    && (ownCheck o (s.heard o h p) (flightOf s o h p)).isNone

theorem admitted_of {o : OpSpec} {h : Hdr} {p : List Byte} {s : State} (e : admitsB o h p s = true) : Admitted o h p s := by
  simp only [admitsB, Bool.and_eq_true, Bool.not_eq_true', List.all_eq_true, decide_eq_true_eq, Option.isNone_iff_eq_none] at e
  obtain ⟨⟨⟨⟨⟨⟨⟨⟨⟨⟨a, b⟩, c⟩, d⟩, f⟩, g⟩, i⟩, j⟩, k⟩, l⟩, m⟩ := e
  exact ⟨a, b, c, d, f, fun x hx hk => by have := g x hx; simp [hk.1, hk.2] at this, i, j, k, l, m⟩

theorem runs_of {o : OpSpec} {h : Hdr} {p : List Byte} {s : State}
    (e : (admitsB o h p s && !h.flags.getLsbD 6 && !o.notReady s && !(o.eupefen && s.geode.stalled)) = true) : Runs o h p s := by
  simp only [Bool.and_eq_true, Bool.not_eq_true'] at e
  exact ⟨admitted_of e.1.1.1, e.1.1.2, e.1.2, e.2⟩

theorem waits_of {o : OpSpec} {h : Hdr} {p : List Byte} {s : State} (e : (admitsB o h p s && h.flags.getLsbD 6) = true) :
    Waits o h p s := by
  rw [Bool.and_eq_true] at e
  exact ⟨admitted_of e.1, e.2⟩

/-! ### Requests: for each opcode a packet and a state in which it is admitted and executes -/


theorem test_echo : Runs opEcho now [0xA7] awake := runs_of (by decide +kernel)

theorem test_dieInfo : Runs opDieInfo now [] awake := runs_of (by decide +kernel)

theorem test_cancel : Runs opCancel now [0, 127] pend := runs_of (by decide +kernel)

theorem test_eventRoute : Runs opEventRoute now (build 12 [(0, 1, 2)]) awake := runs_of (by decide +kernel)

theorem test_canConfig : Runs opCanConfig now (build 16 [(0, 1, 1), (4, 1, 1)]) awake := runs_of (by decide +kernel)

theorem test_cmdStats : Runs opCmdStats now [1] awake := runs_of (by decide +kernel)

theorem test_enterStandby :
    Waits opEnterStandby soon [] awake ∧ Executes opEnterStandby (waitingOf awake opEnterStandby soon []) awake :=
  ⟨waits_of (by decide +kernel), ⟨rfl, by decide +kernel, by decide +kernel⟩⟩

theorem test_enterHibernate :
    Waits opEnterHibernate soon [] awake ∧ Executes opEnterHibernate (waitingOf awake opEnterHibernate soon []) awake :=
  ⟨waits_of (by decide +kernel), ⟨rfl, by decide +kernel, by decide +kernel⟩⟩

theorem test_setWake : Runs opSetWake now (build 8 [(0, 1, 15), (2, 1, 7)]) awake := runs_of (by decide +kernel)

theorem test_softReset :
    Runs opSoftReset now (le 4 0x50F7C0DE) awake ∧ Executes opSoftReset (waitingOf awake opSoftReset soon (le 4 0x50F7C0DE)) awake :=
  ⟨runs_of (by decide +kernel), ⟨rfl, by decide +kernel, by decide +kernel⟩⟩

theorem test_epochStatus : Runs opEpochStatus now [] awake := runs_of (by decide +kernel)

theorem test_epochSetLength :
    Waits opEpochSetLength soon (le 4 10000) awake ∧ Executes opEpochSetLength (waitingOf awake opEpochSetLength soon (le 4 10000)) awake :=
  ⟨waits_of (by decide +kernel), ⟨rfl, by decide +kernel, by decide +kernel⟩⟩

theorem test_laneConfig :
    Waits opLaneConfig soon (zeros 4 ++ profile) awake ∧ Executes opLaneConfig (waitingOf awake opLaneConfig soon (zeros 4 ++ profile)) awake :=
  ⟨waits_of (by decide +kernel), ⟨rfl, by decide +kernel, by decide +kernel⟩⟩

theorem test_laneStart :
    Waits opLaneStart soon (build 8 [(4, 1, 2)]) ready0 ∧ Executes opLaneStart (waitingOf ready0 opLaneStart soon (build 8 [(4, 1, 2)])) ready0 :=
  ⟨waits_of (by decide +kernel), ⟨rfl, by decide +kernel, by decide +kernel⟩⟩

theorem test_laneStop :
    Runs opLaneStop now (zeros 4) running ∧ Waits opLaneStop soon (zeros 4) running ∧
      Executes opLaneStop (waitingOf running opLaneStop soon (zeros 4)) running :=
  ⟨runs_of (by decide +kernel), waits_of (by decide +kernel), ⟨rfl, by decide +kernel, by decide +kernel⟩⟩

theorem test_setLaneTarget :
    Waits opSetLaneTarget soon (build 12 [(4, 4, 900000), (8, 4, 20000)]) ready0 ∧ Executes opSetLaneTarget (waitingOf ready0 opSetLaneTarget soon (build 12 [(4, 4, 900000), (8, 4, 20000)])) ready0 :=
  ⟨waits_of (by decide +kernel), ⟨rfl, by decide +kernel, by decide +kernel⟩⟩

theorem test_setLaneCoeffs :
    Waits opSetLaneCoeffs soon (build 36 [(4, 1, 1)]) ready0 ∧ Executes opSetLaneCoeffs (waitingOf ready0 opSetLaneCoeffs soon (build 36 [(4, 1, 1)])) ready0 :=
  ⟨waits_of (by decide +kernel), ⟨rfl, by decide +kernel, by decide +kernel⟩⟩

theorem test_setLaneProfile :
    Waits opSetLaneProfile soon (build 12 [(4, 1, 1), (6, 2, 5000), (8, 4, 1)]) ready0 ∧ Executes opSetLaneProfile (waitingOf ready0 opSetLaneProfile soon (build 12 [(4, 1, 1), (6, 2, 5000), (8, 4, 1)])) ready0 :=
  ⟨waits_of (by decide +kernel), ⟨rfl, by decide +kernel, by decide +kernel⟩⟩

theorem test_setBurst :
    Waits opSetBurst soon (build 12 [(4, 1, 20), (5, 1, 64), (8, 4, 1)]) ready0 ∧ Executes opSetBurst (waitingOf ready0 opSetBurst soon (build 12 [(4, 1, 20), (5, 1, 64), (8, 4, 1)])) ready0 :=
  ⟨waits_of (by decide +kernel), ⟨rfl, by decide +kernel, by decide +kernel⟩⟩

theorem test_tuningControl :
    Waits opTuningControl soon (build 8 [(4, 1, 2), (5, 1, 64)]) ready0 ∧ Executes opTuningControl (waitingOf ready0 opTuningControl soon (build 8 [(4, 1, 2), (5, 1, 64)])) ready0 :=
  ⟨waits_of (by decide +kernel), ⟨rfl, by decide +kernel, by decide +kernel⟩⟩

theorem test_lanePhaseLock :
    Waits opLanePhaseLock soon (build 8 [(4, 1, 3)]) paired ∧ Executes opLanePhaseLock (waitingOf paired opLanePhaseLock soon (build 8 [(4, 1, 3)])) paired :=
  ⟨waits_of (by decide +kernel), ⟨rfl, by decide +kernel, by decide +kernel⟩⟩

theorem test_laneLegs :
    Waits opLaneLegs soon (build 8 [(4, 2, 1)]) running ∧ Executes opLaneLegs (waitingOf running opLaneLegs soon (build 8 [(4, 2, 1)])) running :=
  ⟨waits_of (by decide +kernel), ⟨rfl, by decide +kernel, by decide +kernel⟩⟩

theorem test_laneStatus : Runs opLaneStatus now [3, 0, 0, 0] awake := runs_of (by decide +kernel)

theorem test_protConfig :
    Waits opProtConfig soon (zeros 4 ++ protBody) awake ∧ Executes opProtConfig (waitingOf awake opProtConfig soon (zeros 4 ++ protBody)) awake :=
  ⟨waits_of (by decide +kernel), ⟨rfl, by decide +kernel, by decide +kernel⟩⟩

theorem test_protClear :
    Waits opProtClear soon (build 8 [(0, 1, 3), (1, 1, 1), (2, 2, 65535)]) awake ∧ Executes opProtClear (waitingOf awake opProtClear soon (build 8 [(0, 1, 3), (1, 1, 1), (2, 2, 65535)])) awake :=
  ⟨waits_of (by decide +kernel), ⟨rfl, by decide +kernel, by decide +kernel⟩⟩

theorem test_protLogRead : Runs opProtLogRead now (le 4 15) awake := runs_of (by decide +kernel)

theorem test_echoRead : Runs opEchoRead now [32, 0, 0, 0] awake := runs_of (by decide +kernel)

theorem test_echoClear :
    Waits opEchoClear soon (le 4 0xFFFFFFFF) awake ∧ Executes opEchoClear (waitingOf awake opEchoClear soon (le 4 0xFFFFFFFF)) awake :=
  ⟨waits_of (by decide +kernel), ⟨rfl, by decide +kernel, by decide +kernel⟩⟩

theorem test_strandConfig :
    Waits opStrandConfig soon (zeros 4 ++ strandBody) awake ∧ Executes opStrandConfig (waitingOf awake opStrandConfig soon (zeros 4 ++ strandBody)) awake :=
  ⟨waits_of (by decide +kernel), ⟨rfl, by decide +kernel, by decide +kernel⟩⟩

theorem test_chargeStart :
    Waits opChargeStart soon (zeros 4) warm ∧ Executes opChargeStart (waitingOf warm opChargeStart soon (zeros 4)) warm :=
  ⟨waits_of (by decide +kernel), ⟨rfl, by decide +kernel, by decide +kernel⟩⟩

theorem test_chargeStop :
    Waits opChargeStop soon (zeros 4) ready0 ∧ Executes opChargeStop (waitingOf ready0 opChargeStop soon (zeros 4)) ready0 :=
  ⟨waits_of (by decide +kernel), ⟨rfl, by decide +kernel, by decide +kernel⟩⟩

theorem test_chargeEqualise :
    Waits opChargeEqualise soon (zeros 4) lead ∧ Executes opChargeEqualise (waitingOf lead opChargeEqualise soon (zeros 4)) lead :=
  ⟨waits_of (by decide +kernel), ⟨rfl, by decide +kernel, by decide +kernel⟩⟩

theorem test_strandStatus : Runs opStrandStatus now (zeros 4) ready0 := runs_of (by decide +kernel)

theorem test_bmsLimits : Runs opBmsLimits now (build 32 [(1, 1, 3)]) ready0 := runs_of (by decide +kernel)

theorem test_strandPlan :
    Waits opStrandPlan own (build 24 [(0, 1, 15)]) awake ∧ Executes opStrandPlan (waitingOf awake opStrandPlan own (build 24 [(0, 1, 15)])) awake :=
  ⟨waits_of (by decide +kernel), ⟨rfl, by decide +kernel, by decide +kernel⟩⟩

theorem test_bezelConfig :
    Waits opBezelConfig soon ([4, 0, 0, 0] ++ chanBody) awake ∧ Executes opBezelConfig (waitingOf awake opBezelConfig soon ([4, 0, 0, 0] ++ chanBody)) awake :=
  ⟨waits_of (by decide +kernel), ⟨rfl, by decide +kernel, by decide +kernel⟩⟩

theorem test_pathConfig :
    Waits opPathConfig soon pathBody awake ∧ Executes opPathConfig (waitingOf awake opPathConfig soon pathBody) awake :=
  ⟨waits_of (by decide +kernel), ⟨rfl, by decide +kernel, by decide +kernel⟩⟩

theorem test_sourceInhibit :
    Waits opSourceInhibit soon [15, 0, 0, 0] sourced ∧ Executes opSourceInhibit (waitingOf sourced opSourceInhibit soon [15, 0, 0, 0]) sourced :=
  ⟨waits_of (by decide +kernel), ⟨rfl, by decide +kernel, by decide +kernel⟩⟩

theorem test_bezelClear :
    Waits opBezelClear soon [4, 0, 0, 0] locked4 ∧ Executes opBezelClear (waitingOf locked4 opBezelClear soon [4, 0, 0, 0]) locked4 :=
  ⟨waits_of (by decide +kernel), ⟨rfl, by decide +kernel, by decide +kernel⟩⟩

theorem test_pathStatus : Runs opPathStatus now [] awake := runs_of (by decide +kernel)

theorem test_peerPower : Runs opPeerPower { now with origin := .can0 } (build 16 [(12, 1, 2)]) canOn0 := runs_of (by decide +kernel)

theorem test_pendantConfig :
    Waits opPendantConfig soon (zeros 4 ++ pendantBody) ready0 ∧ Executes opPendantConfig (waitingOf ready0 opPendantConfig soon (zeros 4 ++ pendantBody)) ready0 :=
  ⟨waits_of (by decide +kernel), ⟨rfl, by decide +kernel, by decide +kernel⟩⟩

theorem test_pendantStatus : Runs opPendantStatus now [] awake := runs_of (by decide +kernel)

theorem test_chainStatus : Runs opChainStatus now [] awake := runs_of (by decide +kernel)

theorem test_chainWorker : Runs opChainWorker now [63, 0, 0, 0] manager := runs_of (by decide +kernel)

theorem test_chainEnumerate :
    Waits opChainEnumerate soon [1, 0, 0, 0] manager ∧ Executes opChainEnumerate (waitingOf manager opChainEnumerate soon [1, 0, 0, 0]) manager :=
  ⟨waits_of (by decide +kernel), ⟨rfl, by decide +kernel, by decide +kernel⟩⟩

theorem test_chainReset :
    Waits opChainReset soon (le 8 0xFFFFFFFFFFFFFFFE) manager ∧ Executes opChainReset (waitingOf manager opChainReset soon (le 8 0xFFFFFFFFFFFFFFFE)) manager :=
  ⟨waits_of (by decide +kernel), ⟨rfl, by decide +kernel, by decide +kernel⟩⟩

theorem test_chainConfig :
    Waits opChainConfig soon (zeros 4 ++ [3, 63, 0, 0, 0, 0, 0, 0]) manager ∧ Executes opChainConfig (waitingOf manager opChainConfig soon (zeros 4 ++ [3, 63, 0, 0, 0, 0, 0, 0])) manager :=
  ⟨waits_of (by decide +kernel), ⟨rfl, by decide +kernel, by decide +kernel⟩⟩

theorem test_claspConfig :
    Waits opClaspConfig soon ([1, 0, 0, 0] ++ claspBody) awake ∧ Executes opClaspConfig (waitingOf awake opClaspConfig soon ([1, 0, 0, 0] ++ claspBody)) awake :=
  ⟨waits_of (by decide +kernel), ⟨rfl, by decide +kernel, by decide +kernel⟩⟩

theorem test_claspStatus : Runs opClaspStatus now [1, 0, 0, 0] awake := runs_of (by decide +kernel)

theorem test_claspRequest :
    Waits opClaspRequest soon (build 20 [(0, 1, 1), (4, 4, 20000), (12, 4, 1000000), (16, 1, 50)]) joined ∧ Executes opClaspRequest (waitingOf joined opClaspRequest soon (build 20 [(0, 1, 1), (4, 4, 20000), (12, 4, 1000000), (16, 1, 50)])) joined :=
  ⟨waits_of (by decide +kernel), ⟨rfl, by decide +kernel, by decide +kernel⟩⟩

theorem test_claspSwapJs :
    Waits opClaspSwapJs soon [1, 0, 0, 0] joined ∧ Executes opClaspSwapJs (waitingOf joined opClaspSwapJs soon [1, 0, 0, 0]) joined :=
  ⟨waits_of (by decide +kernel), ⟨rfl, by decide +kernel, by decide +kernel⟩⟩

theorem test_claspHold :
    Waits opClaspHold soon [1, 0, 0, 0] joined ∧ Executes opClaspHold (waitingOf joined opClaspHold soon [1, 0, 0, 0]) joined :=
  ⟨waits_of (by decide +kernel), ⟨rfl, by decide +kernel, by decide +kernel⟩⟩

theorem test_claspDetach :
    Waits opClaspDetach soon [1, 0, 0, 0, 0xFF, 0, 0, 0] joined ∧ Executes opClaspDetach (waitingOf joined opClaspDetach soon [1, 0, 0, 0, 0xFF, 0, 0, 0]) joined :=
  ⟨waits_of (by decide +kernel), ⟨rfl, by decide +kernel, by decide +kernel⟩⟩

theorem test_measTable :
    Waits opMeasTable soon (zeros 4 ++ table1) awake ∧ Executes opMeasTable (waitingOf awake opMeasTable soon (zeros 4 ++ table1)) awake :=
  ⟨waits_of (by decide +kernel), ⟨rfl, by decide +kernel, by decide +kernel⟩⟩

theorem test_measAccConfig :
    Waits opMeasAccConfig soon (zeros 4 ++ List.replicate 96 1) awake ∧ Executes opMeasAccConfig (waitingOf awake opMeasAccConfig soon (zeros 4 ++ List.replicate 96 1)) awake :=
  ⟨waits_of (by decide +kernel), ⟨rfl, by decide +kernel, by decide +kernel⟩⟩

theorem test_measClear :
    Waits opMeasClear soon (build 16 [(0, 8, 2 ^ 64 - 1), (8, 4, 2 ^ 32 - 1)]) awake ∧ Executes opMeasClear (waitingOf awake opMeasClear soon (build 16 [(0, 8, 2 ^ 64 - 1), (8, 4, 2 ^ 32 - 1)])) awake :=
  ⟨waits_of (by decide +kernel), ⟨rfl, by decide +kernel, by decide +kernel⟩⟩

theorem test_measSnapshotRead : Runs opMeasSnapshotRead now [1, 63, 32, 0] awake := runs_of (by decide +kernel)

theorem test_measTableStatus : Runs opMeasTableStatus now [3, 0, 0, 0] awake := runs_of (by decide +kernel)

theorem test_thermConfig :
    Waits opThermConfig soon (zeros 4 ++ thermBody) awake ∧ Executes opThermConfig (waitingOf awake opThermConfig soon (zeros 4 ++ thermBody)) awake :=
  ⟨waits_of (by decide +kernel), ⟨rfl, by decide +kernel, by decide +kernel⟩⟩

theorem test_thermStatus : Runs opThermStatus now [] awake := runs_of (by decide +kernel)

theorem test_thermPeakClear : Runs opThermPeakClear now [] awake := runs_of (by decide +kernel)

theorem test_timerConfig :
    Runs opTimerConfig now (build 24 [(0, 1, 15), (4, 4, 0xFFFFC), (12, 4, 0xFFFFFFFF), (20, 4, 0x7FFFFFFF)]) awake ∧ Waits opTimerConfig soon (build 24 [(0, 1, 15), (4, 4, 0xFFFFC), (12, 4, 0xFFFFFFFF), (20, 4, 0x7FFFFFFF)]) awake ∧
      Executes opTimerConfig (waitingOf awake opTimerConfig soon (build 24 [(0, 1, 15), (4, 4, 0xFFFFC), (12, 4, 0xFFFFFFFF), (20, 4, 0x7FFFFFFF)])) awake :=
  ⟨runs_of (by decide +kernel), waits_of (by decide +kernel), ⟨rfl, by decide +kernel, by decide +kernel⟩⟩

theorem test_timerStatus : Runs opTimerStatus now [15, 0, 0, 0] awake := runs_of (by decide +kernel)

theorem test_timerCaptures : Runs opTimerCaptures now [15, 0, 0, 0] awake := runs_of (by decide +kernel)

theorem test_timeRead : Runs opTimeRead now [] awake := runs_of (by decide +kernel)

theorem test_memiConfig :
    Waits opMemiConfig soon (zeros 4 ++ (List.replicate 4 (le 2 1 ++ le 2 10000)).flatten) awake ∧ Executes opMemiConfig (waitingOf awake opMemiConfig soon (zeros 4 ++ (List.replicate 4 (le 2 1 ++ le 2 10000)).flatten)) awake :=
  ⟨waits_of (by decide +kernel), ⟨rfl, by decide +kernel, by decide +kernel⟩⟩

theorem test_memiRead : Runs opMemiRead now [] awake := runs_of (by decide +kernel)

theorem test_memiInject : Runs opMemiInject now (build 8 [(0, 1, 3), (1, 1, 2), (4, 4, 4095)]) awake := runs_of (by decide +kernel)

theorem test_flashStatus : Runs opFlashStatus now [] awake := runs_of (by decide +kernel)

theorem test_fwUpdateChunk : Runs opFwUpdateChunk now (build 516 [(0, 2, 7), (2, 2, 1)]) updating := runs_of (by decide +kernel)

theorem test_fwUpdateFinish : Runs opFwUpdateFinish now (le 2 7) sent := runs_of (by decide +kernel)

theorem test_fwActivate :
    Runs opFwActivate now (le 4 0x4AC71E05) whole ∧ Executes opFwActivate (waitingOf whole opFwActivate soon (le 4 0x4AC71E05)) whole :=
  ⟨runs_of (by decide +kernel), ⟨rfl, by decide +kernel, by decide +kernel⟩⟩

theorem test_fwConfirm : Runs opFwConfirm now [] onTrial := runs_of (by decide +kernel)

theorem test_fwUpdateAbort : Runs opFwUpdateAbort now (le 2 7) updating := runs_of (by decide +kernel)

theorem test_journalWrite : Runs opJournalWrite now (build 5 [(0, 4, stagingSize - 1)]) awake := runs_of (by decide +kernel)

theorem test_journalCommit : Runs opJournalCommit now (le 4 staged.length) withBlob := runs_of (by decide +kernel)

theorem test_journalRead : Runs opJournalRead now (build 8 [(0, 2, 7), (4, 4, 3)]) recorded := runs_of (by decide +kernel)

theorem test_journalRemove : Runs opJournalRemove now (build 4 [(0, 2, 7)]) recorded := runs_of (by decide +kernel)

theorem test_lcStatus : Runs opLcStatus now [] awake := runs_of (by decide +kernel)

theorem test_lcAdvance : Runs opLcAdvance now (build 8 [(0, 1, 4), (4, 4, 0x1C0DE5A7)]) awake := runs_of (by decide +kernel)

theorem test_keyProgram : Runs opKeyProgram now (build 100 [(0, 1, 3)]) awake := runs_of (by decide +kernel)

theorem test_keyRevoke : Runs opKeyRevoke now (build 68 []) awake := runs_of (by decide +kernel)

theorem test_keyStatusRead : Runs opKeyStatusRead now [] awake := runs_of (by decide +kernel)

theorem test_certLoad :
    Waits opCertLoad soon cert awake ∧ Executes opCertLoad (waitingOf awake opCertLoad soon cert) awake :=
  ⟨waits_of (by decide +kernel), ⟨rfl, by decide +kernel, by decide +kernel⟩⟩

theorem test_certRead : Runs opCertRead now [] awake := runs_of (by decide +kernel)

theorem test_fenceStatus : Runs opFenceStatus now [1] awake := runs_of (by decide +kernel)

theorem test_otpOption : Runs opOtpOption now [7, 1, 32, 0] awake := runs_of (by decide +kernel)

/-! ### Signed objects -/

theorem test_header_signed : signedBy key1Hash key1 (header.take 0xC0) (slice header 0xC0 64) = true := by decide +kernel

/-- The header passes on every die with its vendor key. -/
theorem header_ok (s : State) (hk : getAt s.otp.vkeys 0 [] = key1Hash) (hv : s.otp.vRevoked = 0) (hr : s.otp.rollback ≤ 256)
    (hw : s.otp.partWq = false) : headerCheck s header = none := by
  have h1 : headerSigned s header = true := by
    have b6 : byteAt header 6 = 0 := by decide +kernel
    have bk : slice header 0x38 64 = key1 := by decide +kernel
    simp only [headerSigned, b6, bk, hk, hv, test_header_signed]; decide
  have f1 : (header.take 4 == [0x45, 0x55, 0x50, 0x46] && byteAt header 4 == 1 && (byteAt header 5 == 1 || byteAt header 5 == 2)) = true := by
    decide +kernel
  have f2 : (byteAt header 5 == 1) = true := by decide +kernel
  have f3 : fieldAt header 8 4 = 256 := by decide +kernel
  have f4 : headerFieldsOk header = true := by decide +kernel
  have f5 : partIncluded s header = true := by
    rw [partIncluded, hw]; decide +kernel
  rw [headerCheck, f1, f2, f3, f4, f5, h1, decide_eq_true hr]
  rfl

/-- FW_UPDATE_BEGIN with that header, where no step refuses it. -/
theorem begin_ok (s : State) (f : Flight) (hl : s.lc = .develop) (hp : f.payload = header)
    (hb : ((s.flash.resumes header).isSome || !s.flashBusy) = true) (ht : ((s.flash.resumes header).isSome || s.flashTemp) = true)
    (hk : getAt s.otp.vkeys 0 [] = key1Hash) (hv : s.otp.vRevoked = 0) (hr : s.otp.rollback ≤ 256) (hw : s.otp.partWq = false) :
    ownCheck opFwUpdateBegin s f = none := by
  have e : ownCheck opFwUpdateBegin s f = firstOf [inState s updateStates, needLength f 256,
      need ((s.flash.resumes f.payload).isSome || !s.flashBusy) stBusy, headerCheck s f.payload,
      need ((s.flash.resumes f.payload).isSome || s.flashTemp) stTempForbidden] := by
    rw [ownCheck, hl]; rfl
  have n : needLength f 256 = none := by rw [needLength, hp]; decide +kernel
  have i : inState s updateStates = none := by rw [inState, hl]; rfl
  rw [e, i, n, hp, hb, ht, header_ok s hk hv hr hw]
  rfl

theorem test_fwUpdateBegin_resumes : Runs opFwUpdateBegin now header updating ∧ updating.flash.resumes header = some session :=
  ⟨⟨⟨by decide +kernel, by decide +kernel, by decide +kernel, by decide +kernel, by decide +kernel, by decide +kernel,
    by decide +kernel, by decide +kernel, by decide +kernel, by decide +kernel,
    begin_ok _ _ (by decide +kernel) rfl (by decide +kernel) (by decide +kernel) (by decide +kernel) (by decide +kernel)
      (by decide +kernel) (by decide +kernel)⟩, by decide, by decide +kernel, by decide +kernel⟩, by decide +kernel⟩

theorem test_fwUpdateBegin_new : Runs opFwUpdateBegin now header awake ∧ awake.flash.resumes header = none :=
  ⟨⟨⟨by decide +kernel, by decide +kernel, by decide +kernel, by decide +kernel, by decide +kernel, by decide +kernel,
    by decide +kernel, by decide +kernel, by decide +kernel, by decide +kernel,
    begin_ok _ _ (by decide +kernel) rfl (by decide +kernel) (by decide +kernel) (by decide +kernel) (by decide +kernel)
      (by decide +kernel) (by decide +kernel)⟩, by decide, by decide +kernel, by decide +kernel⟩, by decide +kernel⟩

/-- A certificate being verified, in time and good; held for its boundary; being written. -/
def verifying : State :=
  let t := awake.queued opCertLoad soon cert
  t.modGeode fun g => { g with checking := some { by_ := (waitingOf awake opCertLoad soon cert).key, bytes := cert, epoch := 2 } }

theorem test_certVerified :
    certCheck verifying cert false = none ∧ verifying.pastCutoff 2 = false ∧
      (∃ f, verifying.findFlight (waitingOf awake opCertLoad soon cert).key = some f) :=
  ⟨by decide +kernel, by decide +kernel, ⟨_, rfl⟩⟩

theorem test_certVerified_refused :
    (certCheck verifying (putField cert 6 2 385) false).isSome = true ∧ verifying.pastCutoff 0 = true := by decide +kernel

def certHeld : State := awake.modGeode fun g => { g with heldCert := some { by_ := waiting127.key, bytes := cert, epoch := 2 } }
def certWriting : State := awake.modFlash fun f => { f with op := .certWrite waiting127.key cert }
def certErasing : State := awake.modFlash fun f => { f with op := .certErase, certA := .partErased }

theorem test_certOps : certHeld.flashTemp = true ∧ certWriting.flash.op = .certWrite waiting127.key cert ∧
    certErasing.flash.op = .certErase ∧ Executes opCertLoad { waiting127 with opcode := 0x0D05 } certHeld :=
  ⟨by decide +kernel, rfl, rfl, rfl, by decide +kernel, by decide +kernel⟩

/-! ### Premises: the queue, receipt and answers -/

theorem test_front : ({ awake with pending := [.status] } : State).pending = .status :: [] := rfl
theorem test_idle_queue : awake.pending = [] := rfl
theorem test_sound : ready0.Inv := by
  constructor <;> constructor <;> decide +kernel
theorem test_sound_steps : ∃ t, step { ready0 with pending := [.status] } = .next t := ⟨_, rfl⟩

theorem test_malformed : awake.hears .spi = true ∧ (zeros 15).length < 16 ∧ getAt (zeros 16) 0 0 ≠ 0xA7 ∧
    (let b := (0xA7 : Byte) :: zeros 16; getAt b 0 0 = 0xA7 ∧ fieldAt b 6 2 + 16 ≠ b.length) ∧
    (let b := (0xA7 : Byte) :: zeros 15; 16 ≤ b.length ∧ fieldAt b 6 2 + 16 = b.length ∧ crc32Good b = false) := by decide +kernel

theorem test_undefined_opcode : awake.defines 0x0006 = false ∧ receives now awake = true ∧
    ({ awake with otp := { awake.otp with partWq := true } } : State).defines 0x0004 = false := by decide +kernel

/-- Table 06-2, steps 4 to 12, as ReceiptOrder writes it. -/
def firstRefusal (o : OpSpec) (h : Hdr) (p : List Byte) (s : State) : Option Byte :=
  let d := (h.epoch + 2 ^ 32 - s.time.epoch) % 2 ^ 32
  let later := h.flags.getLsbD 6
  (([(decide ((h.flags &&& 0x9F) ≠ 0) || decide (64 ≤ h.target.toNat) || decide (128 ≤ h.tag.toNat) || h.tag == 0, stBadParam),
    (h.flags.getLsbD 5 && !h.chain && !(s.isManager && h.target == 0 && o.bcast), stBadParam),
    (!ownTarget h s && !(s.isManager && s.enumerated h.target.toNat), stTargetAbsent),
    (o.mqOnly && s.otp.partWq, stBadOpcode),
    (s.cmd.flights.any fun g => g.key.origin == h.origin && g.key.tag == h.tag.toNat, stTagInUse),
    (noTag h s, stNoTag),
    ((o.sched == .unscheduled && later) || (o.sched == .scheduled && !later) || (!later && h.epoch != 0), stBadParam),
    (later && s.isWorker && !s.time.hasEpoch, stNotReady),
    (later && (d == 0 || decide (2 ^ 31 ≤ d)), stTooLate),
    (later && d == 1 && decide (s.ticksLeft < 10 * Config.ticksPerUs), stTooLate),
    (later && decide (2 ^ 20 < d), stTooEarly),
    (queueFull (flightOf s o h p) s, stQueueFull)] : List (Bool × Byte)).find? (·.1)).map (·.2)

/-- The state with `n` commands waiting, tags from 2 on. -/
def crowded (n : Nat) : State := awake.modCmd fun c =>
  { c with flights := (List.range n).map fun i => { waiting127 with key := { waiting127.key with tag := i + 2 } } }

/-- 9.995 us, and 99.995 us, are left of the epoch. -/
def nearEnd : State := awake.modTime fun t => { t with tick := 198001 }
def marginal : State := awake.modTime fun t => { t with tick := 180001 }

theorem test_steps_4_to_12 :
    firstRefusal opEcho { now with tag := 0 } [] awake = some stBadParam ∧
    firstRefusal opEcho { now with tag := 128 } [] awake = some stBadParam ∧
    firstRefusal opSoftReset { now with flags := 0x20 } [] awake = some stBadParam ∧
    firstRefusal opEcho { now with target := 63 } [] awake = some stTargetAbsent ∧
    firstRefusal opClaspHold now [] { awake with otp := { awake.otp with partWq := true } } = some stBadOpcode ∧
    firstRefusal opEcho { now with tag := 127 } [] pend = some stTagInUse ∧
    firstRefusal opEcho now [] (crowded 128) = some stNoTag ∧
    firstRefusal opEcho { now with epoch := 1 } [] awake = some stBadParam ∧
    firstRefusal opLaneStop soon [] { worker with time := { worker.time with hasEpoch := false } } = some stNotReady ∧
    firstRefusal opLaneStop { soon with epoch := 0 } [] awake = some stTooLate ∧
    firstRefusal opLaneStop { soon with epoch := 1 } [] nearEnd = some stTooLate ∧
    firstRefusal opLaneStop { soon with epoch := 2 ^ 20 + 1 } [] awake = some stTooEarly ∧
    firstRefusal opLaneStop { soon with epoch := 2 ^ 20 } [] awake = none ∧
    firstRefusal opLaneStop soon [] (crowded 8) = some stQueueFull := by decide +kernel

theorem test_step_13 : receiptRefusal opDieInfo now (flightOf awake opDieInfo now [0]) (awake.heard opDieInfo now [0]) = none ∧
    ownTarget now awake = true ∧ ownCheck opDieInfo (awake.heard opDieInfo now [0]) (flightOf awake opDieInfo now [0]) = some [stBadLength] ∧
    requestOf (.dieInfo now [0]) = some (opDieInfo, now, [0]) := ⟨by decide +kernel, by decide +kernel, by decide +kernel, rfl⟩

theorem test_margins : Waits opLaneStop { soon with epoch := 1 } (zeros 4) marginal ∧ marginal.ticksLeft < 100 * Config.ticksPerUs ∧
    opLaneStop.code ≠ 0x0D05 := ⟨waits_of (by decide +kernel), by decide +kernel, by decide⟩

/-- A manager with worker 1 enumerated, port B up; its commands forwarded to that worker, and broadcast. -/
def chained : State :=
  { manager with slolos := { manager.slolos with
      ctxs := setAt manager.slolos.ctxs 0 { Ctx.absent with state := .enumerated }, workers := 1, portB := .up, topology := 1 } }
def toWorker : Hdr := { now with target := 1 }
def toAll : Hdr := { now with flags := 0x20 }

theorem test_forwarded : receives toWorker chained = true ∧
    receiptRefusal opEcho toWorker (flightOf chained opEcho toWorker []) (chained.heard opEcho toWorker []) = none ∧
    (flightOf chained opEcho toWorker []).bcast = false ∧ ownTarget toWorker chained = false ∧
    requestOf (.echo toWorker []) = some (opEcho, toWorker, []) := ⟨by decide +kernel, by decide +kernel, rfl, by decide +kernel, rfl⟩

theorem test_broadcast : receives toAll chained = true ∧
    receiptRefusal opThermPeakClear toAll (flightOf chained opThermPeakClear toAll []) (chained.heard opThermPeakClear toAll []) = none ∧
    (flightOf chained opThermPeakClear toAll []).bcast = true := by decide +kernel

def halted : State := ready0.modGeode fun g => { g with stalled := true }
def noConv : State := awake.setReady .conv false

theorem test_not_executed : receives now State.reset = false ∧ receives { now with origin := .can1 } awake = false ∧
    Admitted opLaneStatus now (zeros 4) noConv ∧ opLaneStatus.notReady noConv = true ∧
    Admitted opStrandStatus now (zeros 4) halted ∧ opStrandStatus.notReady halted = false ∧ opStrandStatus.eupefen = true ∧
    halted.geode.stalled = true :=
  ⟨by decide +kernel, by decide +kernel, admitted_of (by decide +kernel), by decide +kernel, admitted_of (by decide +kernel),
    by decide +kernel, rfl, rfl⟩

theorem test_opSpec : opSpec 0x0404 = some opStrandStatus := rfl

theorem test_answer_kinds : waiting127.bcast = false ∧ waiting127.key.chain = false ∧ waiting127.key.origin.iface = some 0 ∧
    ({ waiting127 with key := { waiting127.key with chain := true } } : Flight).bcast = false ∧ own.origin = .internal := by
  decide +kernel

/-- A command of tag 127 that is forwarded to worker 1; one that is a broadcast. -/
def pendFar : State := chained.modCmd fun c =>
  { c with flights := [{ waiting127 with key := waiting127.key, phase := .forwarded, target := 1, sched := true }] }
def pendAll (e tick : Nat) : State := (chained.modCmd fun c =>
  { c with flights := [{ waiting127 with bcast := true, awaited := [0, 1], epoch := e }] }).modTime fun t => { t with tick := tick }
def cancelOf (p : List Byte) (s : State) : Option Flight := (s.entered opCancel now p).cancelNamed (flightOf s opCancel now p)

theorem test_cancel_outcomes :
    cancelOf [0, 126] pend = none ∧
    ((cancelOf [0, 127] pend).any fun g => !g.bcast && g.phase != .forwarded && !pend.cancelLate g) = true ∧
    ((cancelOf [0, 127] { pend with time := { pend.time with epoch := 1, tick := 198001 } }).any fun g =>
      !g.bcast && ({ pend with time := { pend.time with epoch := 1, tick := 198001 } } : State).cancelLate g) = true ∧
    ((cancelOf [1, 127] pendFar).any fun g => !g.bcast && g.phase == .forwarded) = true ∧
    ((cancelOf [0, 127] (pendAll 1 198001)).any fun g => g.bcast && (pendAll 1 198001).cancelLate g) = true ∧
    ((cancelOf [0, 127] (pendAll 1 198000)).any fun g => g.bcast && !(pendAll 1 198000).cancelLate g) = true := by decide +kernel

theorem test_cancel_runs : Runs opCancel now [0, 126] pend ∧ Runs opCancel now [1, 127] pendFar ∧
    Runs opCancel now [0, 127] (pendAll 1 198001) ∧ Runs opCancel now [0, 127] (pendAll 1 198000) :=
  ⟨runs_of (by decide +kernel), runs_of (by decide +kernel), runs_of (by decide +kernel), runs_of (by decide +kernel)⟩

/-! ### Premises: flash, OTP, life cycle, certificate -/

def withOp (x : FlashOp) (f : Flight) (s : State) : State :=
  (s.modFlash fun y => { y with op := x }).modCmd fun c => { c with flights := [f] }
def otpEnd (code : Nat) : State := withOp (.otp waiting127.key) { waiting127 with opcode := code } awake
def hot : State → State := fun s => s.modTherm fun t => { t with reading := some 1501 }

theorem test_update_events :
    (let s := (updating.modFlash fun f => { f with op := .updateErase 7, session := some { session with erased := false } })
     s.flash.op = .updateErase 7 ∧ s.flash.session = some { session with erased := false } ∧ s.flashTemp = true) ∧
    (let s := withOp (.chunk waiting127.key 1 (zeros 512) true) waiting127 updating
     s.flash.session = some session ∧ session.erased = true ∧ session.next = 1 ∧ s.flashTemp = true ∧ (hot s).flashTemp = false) ∧
    (let s := sent.modGeode fun g => { g with hashing := some (waiting127.key, 7) }
     s.flash.session = some { session with next := 2 } ∧ (s.flash.slot .b).hashOk = false) ∧
    (∃ x : Slot, x.hashOk = true) := by
  refine ⟨by decide +kernel, by decide +kernel, by decide +kernel,
    ⟨{ Slot.blank with header := zeros 0x18 ++ sha256 [] }, by decide +kernel⟩⟩

theorem test_confirm : onTrial.flash.trial = some .b ∧ onTrial.otp.rollback < onTrial.runningVersion ∧
    (let s := onTrial.modOtp fun o => { o with rollback := 256 }
     Runs opFwConfirm now [] s ∧ s.runningVersion ≤ s.otp.rollback) ∧ (waitingOf whole opFwActivate soon []).sched = true ∧
    (let s := withOp (.otp waiting127.key) { waiting127 with opcode := 0x0C05 } onTrial
     s.findFlight waiting127.key = some { waiting127 with opcode := 0x0C05 } ∧ s.flashTemp = true) :=
  ⟨by decide +kernel, by decide +kernel, ⟨runs_of (by decide +kernel), by decide +kernel⟩, rfl, by decide +kernel⟩

theorem test_journal_ends :
    (withOp (.commit waiting127.key [] true) waiting127 awake).flash.op = .commit waiting127.key [] true ∧
    (withOp (.tombstone waiting127.key 7 0 false) waiting127 awake).flash.op = .tombstone waiting127.key 7 0 false ∧
    (∃ b, recorded.flash.configRec (build 8 [(0, 2, 7), (4, 4, 3)]) = some b ∧ 3 < b.length) ∧
    Runs opJournalRead now (build 8 [(0, 2, 7), (4, 4, 4)]) recorded ∧
    (recorded.flash.configRec (build 8 [(0, 2, 7), (4, 4, 4)])).all (fun b => b.length ≤ 4) = true :=
  ⟨rfl, rfl, ⟨le 4 1000, by decide +kernel, by decide⟩, runs_of (by decide +kernel), by decide +kernel⟩

theorem test_journal_write_sound : awake.Inv ∧ Runs opJournalWrite now (build 5 [(0, 4, stagingSize - 1)]) awake :=
  ⟨by constructor <;> constructor <;> decide +kernel, runs_of (by decide +kernel)⟩

theorem test_otp_ends : (∀ c ∈ [0x0D02, 0x0D03, 0x0D08], (otpEnd c).findFlight waiting127.key = some { waiting127 with opcode := c } ∧
      (otpEnd c).flashTemp = true) ∧ (hot (otpEnd 0x0D02)).flashTemp = false ∧
    (withOp (.lcWipe .ret) waiting127 awake).flash.op = .lcWipe .ret ∧ (withOp (.lcWipe .scrapped) waiting127 awake).flashTemp = true := by
  decide +kernel

/-! ### Premises: supplies, resets, clocks, boot -/

/-- A reset held that may end; the same with cause kinds; an NRST that is low. -/
def ending (trig : BitVec 12) : State := { awake with sys := { awake.sys with held := true, trig := trig } }
def straps : Straps := { mode := 0, xsel := false, changing := 0 }

theorem test_reset_entry :
    (let s := awake.trigger causeSoft
     s.sys.held = false ∧ s.sys.trigPending ≠ 0 ∧ s.flash.op = .none ∧ s.sys.trigPending.getLsbD causeThermal = false) ∧
    (awake.trigger causeThermal).sys.trigPending.getLsbD causeThermal = true ∧ awake.sys.trigPending = 0 ∧ held.sys.held = true := by
  decide +kernel

theorem test_reset_end : (ending 0x100).mayEnd = true ∧ straps.changing = 0 ∧ awake.mayEnd = false ∧ awake.sys.nrstLow = false ∧
    ({ ending 0x008 with sys := { (ending 0x008).sys with nrstLow := true } } : State).sys.nrstLow = true ∧
    ((ending 0x002).sys.trig.getLsbD causePor = true) ∧ ((0x100 : BitVec 12) &&& 0xC0E = 0) ∧ ((0x400 : BitVec 12) &&& 0xC0E ≠ 0) ∧
    (ending 0x100).sys.clk = .running ∧ held.sys.held = true := by decide +kernel

def locked (waking : Bool) : State := { awake with sys := { awake.sys with clk := .locked, waking := waking } }

theorem test_lock : (locked true).locking .locked = true ∧ (locked false).sys.waking = false ∧ awake.locking .locked = false := by
  decide +kernel

def asleep : State := { awake with sys := { awake.sys with power := .standby, clk := .stopped, ready := 1, wakeLatched := true } }

theorem test_sleep : asleep.sys.power = .standby ∧ asleep.sys.wakeLatched = true ∧ asleep.sys.held = false ∧
    ¬(awake.sys.power = .standby ∧ awake.sys.wakeLatched = true ∧ awake.sys.held = false) := by decide +kernel

def atStage (g : BootStage) : State := awake.setStage g

theorem test_boot : (∀ g ∈ [BootStage.patch, .wipe, .image, .cert, .journal], (atStage g).geode.stage = g ∧
      (atStage g).sys.clk = .running ∧ (atStage g).sys.held = false) ∧
    (awake.modFlash fun f => { f with op := .bootWipe }).flash.op = .bootWipe ∧ awake.flash.op ≠ .bootWipe ∧
    (atStage .image).flash.trial = none ∧
    (let s := (atStage .image).modFlash fun f => { f with trial := some .b }
     s.flash.trial = some .b ∧ (s.modSys fun y => { y with hint := 1 }).sys.hint = 1 ∧ s.sys.hint ≠ 1) ∧
    ¬(awake.geode.stage = .patch) ∧ awake.geode.stage ≠ .image ∧ awake.geode.stage ≠ .cert ∧ awake.geode.stage ≠ .journal := by
  decide +kernel

/-- An access of SPI, or of the core, that waits. -/
def access : Hung := { block := .meas, address := 0x60000, write := none }
def hungSpi : State := { awake with sys := { awake.sys with hung := some access } }
def hungCore : State := { awake with sys := { awake.sys with coreHung := some access } }

theorem test_hung : hungSpi.sys.hung = some access ∧ (hungCore.sys.hung = none ∧ hungCore.sys.coreHung = some access) ∧
    (awake.sys.hung = none ∧ awake.sys.coreHung = none ∧ awake.sys.clk = .running ∧ awake.sys.held = false) ∧
    State.reset.sys.clk ≠ .running ∧ (Block.meas ≠ .sys) := by decide +kernel

theorem test_core : awake.coreRuns = true ∧ held.coreRuns = false ∧ blockOf (0xD0000 / 2 ^ 16) = none ∧
    blockOf (0xF0000 / 2 ^ 16) = some .geode ∧ blockOf (0x40000 / 2 ^ 16) = some .conv ∧ awake.fused .conv = false ∧
    awake.blockRuns .conv = true ∧ noConv.blockRuns .conv = false ∧ noConv.coreRuns = true ∧
    ({ awake with otp := { awake.otp with partWq := true } } : State).fused .clasp = true ∧ (awake.lc = .develop) ∧
    ¬({ awake with otp := { awake.otp with lcState := Triple.of 3 } } : State).lc = .develop := by decide +kernel

/-! ### Premises: packet frames, SPI, the window, CAN -/

def anyPacket (flags tag : BitVec 8) (op : Nat) (p : List Byte) : List Byte :=
  Packet.bytes { flags := flags, target := 0, tag := tag, opcode := op, epoch := 0, payload := p }
def frameTo (k : Nat) (flags : BitVec 8) (p : List Byte) : List Byte := packetFrame k .spi (anyPacket flags 127 0x0201 p)
def spoil (b : List Byte) : List Byte := b.dropLast ++ [0]

/-- A worker with an address; a manager that waits for worker 1's answer, of a scheduled command, and of a broadcast. -/
def waits1 (g : Flight → Flight) : State := chained.modCmd fun c =>
  { c with flights := [g { waiting127 with phase := .forwarded, target := 1 }] }
def replyPacket (b : List Byte) : Packet := Packet.ofBytes (framePacket b)

theorem test_worker_frames : worker.portsRun = true ∧ worker.isWorker = true ∧ awake.portsRun = false ∧
    frameGoesUp (frameTo 0 0x80 []) = true ∧ frameGoesUp (frameTo 0 0x10 []) = true ∧ frameGoesUp (frameTo 1 0 []) = false ∧
    worker.slolos.address ≠ 0 ∧ byteAt (frameTo 1 0 []) 0 = worker.slolos.address ∧ byteAt (frameTo 2 0 []) 0 ≠ worker.slolos.address := by
  decide +kernel

theorem test_manager_frames : chained.portsRun = true ∧ chained.isWorker = false ∧ chained.sys.held = false ∧
    crc32Good (frameTo 1 0x80 [0]) = true ∧ crc32Good (spoil (frameTo 1 0x80 [0])) = false ∧
    (replyPacket (frameTo 1 0x10 [])).flags.getLsbD 4 = true ∧ (replyPacket (frameTo 1 0 [])).flags.getLsbD 7 = false ∧
    (replyPacket (frameTo 1 0x80 [0])).flags.getLsbD 7 = true ∧ (replyPacket (frameTo 1 0x80 [0])).flags.getLsbD 4 = false ∧
    chained.repliedFlight 1 .spi 127 = none ∧ Origin.ofRank (byteAt (frameTo 1 0x80 [0]) 1) = .spi ∧
    (replyPacket (frameTo 1 0x80 [0])).tag.toNat = 127 ∧
    ((waits1 id).repliedFlight 1 .spi 127).any (fun g => g.sched && !g.accepted && !g.bcast) = true ∧
    getAt (replyPacket (frameTo 1 0x80 [stAccepted])).payload 0 0 = stAccepted ∧
    ((waits1 fun g => { g with accepted := true }).repliedFlight 1 .spi 127).any (fun g => g.sched && g.accepted && !g.bcast) = true ∧
    ((waits1 fun g => { g with bcast := true, awaited := [1] }).repliedFlight 1 .spi 127).any (fun g => g.bcast) = true := by
  decide +kernel

def outItem : OutItem :=
  { pkt := Packet.ofBytes (anyPacket 0x80 1 0 [0]), node := 0, isEvent := false, frees := some waiting127.key }
def outbound : State := awake.modCmd fun c => { c with outSpi := [outItem] }

theorem test_packets : hungSpi.sys.hung.isSome = true ∧ awake.sys.hung = none ∧ State.reset.isReady .cmd = false ∧
    awake.cmd.outSpi = [] ∧ awake.isReady .cmd = true ∧ outbound.cmd.outSpi = [outItem] ∧ awake.cmd.spiHeld < Config.spiBuffers ∧
    (outbound.modCmd fun c => { c with inbox := List.replicate 2 { origin := .spi, node := 0, bytes := [] } }).cmd.spiHeld = Config.spiBuffers := by
  decide +kernel

theorem test_window : awake.readWord 0x0004 = some (awake.readReg .sys 4) ∧ (noConv.readWord 0x40000).isNone = true ∧
    blockOf (0xD0000 / 2 ^ 16) = none ∧ awake.windowOpen .conv = true ∧ noConv.windowOpen .conv = false ∧
    (0x50000 / 2 ^ 16 ≠ 0x4FFFC / 2 ^ 16) ∧ awake.lc ≠ .scrapped ∧
    ({ awake with otp := { awake.otp with lcState := Triple.of 8 } } : State).lc = .scrapped := by decide +kernel

theorem test_rows : awake.sys.hung = none ∧ awake.lc ≠ .scrapped ∧ awake.otp.partWq = false ∧
    (∀ b ∈ [Block.cmd, .pendant, .clasp, .memi, .time, .meas], awake.windowOpen b = true) ∧
    ({ worker with slolos := { worker.slolos with portA := .up } } : State).windowOpen .slolos = true := by decide +kernel

def ident1 : Nat := 0x10000 + 0x0500

theorem test_can : canOn0.isReady .cmd = true ∧ canOn0.canOn 0 = true ∧ awake.canOn 0 = false ∧
    ident1 / 2 ^ 16 % 2 ^ 13 = (canOn0.cmd.can 0).base ∧ ident1 % 256 = (canOn0.cmd.can 0).ownNode ∧
    canOn0.cmd.out 1 = [] ∧ (canOn0.modCmd fun c => { c with outCan0 := [outItem] }).cmd.out 1 = [outItem] ∧
    ¬(canOn0.canOn 1 = true) := by decide +kernel

/-! ### Premises: resets' causes, watchdog, timers, memories, thermal reads -/

def serviced (n : Nat) : State := { awake with wdg := { awake.wdg with count := n, window := some (1, 2) } }

theorem test_watchdog : awake.coreRuns = true ∧ awake.wdg.locked = false ∧
    ({ awake with wdg := { awake.wdg with locked := true } } : State).wdg.locked = true ∧
    ((serviced 100).wdg.openTick ≤ (serviced 100).wdg.count ∧ (serviced 499).wdg.count < (serviced 499).wdg.closeTick ∧
      (serviced 100).wdg.window = some (1, 2)) ∧ (ending 0x100).mayEnd = true := by decide +kernel

def timed (t : Timer) : State := awake.modTime fun y => y.setTimer 15 t

theorem test_timers : awake.isReady .time = true ∧ 15 < awake.time.timers.length ∧
    ((timed { Timer.reset with source := 1 }).time.timer 15).source = 1 ∧
    ((timed { Timer.reset with source := 2 }).time.timer 15).source = 2 ∧
    ((timed { Timer.reset with source := 1, armed := true }).time.timer 15).due = true ∧
    (let x := (timed { Timer.reset with source := 1, armed := true, compare := 5 }).time.timer 15
     x.armed = true ∧ x.due = false ∧ x.source = 1) ∧
    ¬((awake.time.timer 15).armed = true) ∧ awake.time.lfrcStep = false ∧
    (awake.modTime fun y => { y with lfrcStep := true }).time.lfrcStep = true := by decide +kernel

def flipped (k n : Nat) : State := awake.modMemi fun m => m.modRam k fun r => { r with errors := [(0, n)] }
def flipsAt (s : State) (k : Nat) : Nat :=
  (((s.memi.ram k).errors.filter fun e => e.1 == (s.memi.ram k).scrubAt).foldl (fun a e => a + e.2) 0)

theorem test_memories : awake.isReady .memi = true ∧ awake.sys.clk = .running ∧ 3 < awake.memi.rams.length ∧ flipsAt awake 3 = 0 ∧
    flipsAt (flipped 3 1) 3 = 1 ∧ 2 ≤ flipsAt (flipped 3 2) 3 ∧ 2 ≤ flipsAt (flipped 1 2) 1 ∧
    ((some waiting127.key).bind pend.findFlight).isSome = true ∧ ((none : Option FlightKey).bind pend.findFlight) = none ∧
    ¬(4 < awake.memi.rams.length) := by decide +kernel

def reading : State := awake.modTherm fun t => { t with reads := true }

theorem test_thermal : reading.therm.reads = true ∧ reading.sys.clk = .running ∧ reading.sys.held = false ∧
    (List.replicate 8 (1500 : Int)).length = 8 ∧ awake.therm.reads = false ∧
    (let l : Levels := { warning := true, throttle := true, shutdown := true }; l.throttle = true ∧ l.shutdown = true) := by
  decide +kernel

/-! ### Premises: boundaries and the chain -/

def marked : State := { worker with slolos := { worker.slolos with marker := some (1, 1000) } }

theorem test_boundary : (awake.sys.held = false ∧ awake.sys.clk = .running ∧ awake.asleep = false) ∧ asleep.asleep = true ∧
    (worker.isWorker = true ∧ worker.slolos.marker = none) ∧ marked.slolos.marker = some (1, 1000) ∧ awake.isWorker = false ∧
    awake.isStandalone = true ∧ manager.isManager = true ∧ manager.time.boundaries = 0 ∧
    ({ manager with time := { manager.time with boundaries := 1 } } : State).time.boundaries ≠ 0 := by decide +kernel

theorem test_enum_premises :
    (worker.sys.clk = .running ∧ worker.sys.held = false ∧ worker.isWorker = true ∧ worker.slolos.address ≠ 0) ∧
    ({ worker with slolos := { worker.slolos with address := 0 } } : State).slolos.address = 0 ∧ manager.isWorker = false ∧
    held.sys.held = true ∧ (62 < 63 ∧ 63 ≤ 63) := by decide +kernel

/-! ### Premises: frames, protection, the Bezel -/

/-- Lane 0 serves strand 0; a worker's lane in CC by its entry. -/
def strandLane : State := running.modLane 0 fun l => { l with body := some (putField profile 2 1 0) }

theorem test_frame_premises : (running.lane 0).strand = 0xFF ∧ (strandLane.lane 0).strand ≠ 0xFF ∧ strandLane.isWorker = false ∧
    worker.isWorker = true ∧ (worker.lane 0).fieldCode ≠ 2 := by decide +kernel

theorem test_turn_on : running.conv.laneOfLeg 1 = some 0 ∧ running.conv.laneOfLeg 2 = none ∧ running.isReady .conv = true ∧
    (running.lane 0).mode.running = true ∧ (running.lane 0).mode ≠ .brake ∧ (running.lane 0).sleeping = false ∧
    (running.lane 0).awaitDecim = false ∧ running.prot.held.getLsbD 1 = false := by decide +kernel

/-- A lane that regulates 0 mV out of limited frames: 64 counted, and the 65th. -/
def limited : State := running.modLane 0 fun l => { l with limitAct := true, shortCount := 64, host := some (100000, 1000), rt := 0 }

theorem test_limited : let s := limited.modLane 0 Lane.frameChanges
    let x := s.sample 0
    65 ≤ (if (s.lane 0).limitAct = true ∧ 2 * (s.lane 0).rt < x.target then (s.lane 0).shortCount + 1 else 0) := by
  decide +kernel

def crowbar0 : Crowbar := { source := .stringDecimator, fn := .charge, waiting := true, blanked := false, legs := 3 }
def crowbarred : State := (ready0.modLane 0 fun l => { l with mode := .crowbar }).modProt fun p =>
  { p with crowbars := setAt p.crowbars 0 (some crowbar0) }

theorem test_protection : ready0.prot.cmpRole 0 = 1 ∧ ready0.prot.cmpUpAct 0 = 1 ∧ ready0.conv.laneOfLeg 0 = some 0 ∧
    ready0.prot.cmpRole 1 = 1 ∧ ready0.prot.cmpUpAct 1 = 2 ∧ ready0.conv.laneOfLeg 1 = some 0 ∧
    2 ≤ ready0.prot.cmpRole 2 ∧ ready0.prot.cmpUpAct 2 = 3 ∧ ready0.prot.cmpLane 2 < 4 ∧
    (crowbarred.lane 0).mode = .crowbar ∧ getAt crowbarred.prot.crowbars 0 none = some crowbar0 ∧
    getAt ready0.prot.crowbars 0 none = none := by decide +kernel

/-- Channel 4 closed, with its over-current filter running. -/
def closed4 : State := ready0.modChan 4 fun c => { c with state := .closed, drv := true, fb := true, ocPending := true }

theorem test_bezel : closed4.isReady .bezel = true ∧ (closed4.chan 4).state ≠ .disabled ∧ (closed4.chan 4).state.driven = true ∧
    closed4.exporting 4 = false ∧ (closed4.chan 4).ocPending = true ∧ (awake.chan 4).state = .disabled := by decide +kernel

/-! ### Premises: Pendant and Clasp -/

/-- A frame word: START and slew, type, target, sequence number, and the CRC over its first three bytes. -/
def frameWord (kind slew target seq : Nat) : Nat :=
  let w := (5 * 32 + kind * 8 + slew) * 2 ^ 16 + target * 16 + seq
  w * 256 + crc8 [w / 2 ^ 16, w / 2 ^ 8 % 256, w % 256]

/-- The frame is good, as PendantEvents writes it. -/
def goodWord (w : Nat) : Bool := w / 2 ^ 29 % 8 == 5 && w / 2 ^ 27 % 4 ≤ 1 &&
  crc8 [w / 2 ^ 24 % 256, w / 2 ^ 16 % 256, w / 2 ^ 8 % 256] == w % 256

/-- The link record in force; the link is the lanes'. -/
def linked : State := ready0.modPendant fun p => { p with body := some pendantBody }
def lanesLink : State := linked.modPath fun p => { p with holder := .lanes }

theorem test_pendant : linked.isReady .pendant = true ∧ linked.sys.power = .run ∧ linked.otp.partWq = false ∧ linked.isWorker = false ∧
    linked.pendant.mode = 1 ∧ linked.limits = some cert ∧ certSlew cert = 7 ∧ certLinkMax cert = 1000000 ∧
    goodWord (frameWord 0 7 3600 15) = true ∧ frameWord 0 7 3600 15 / 2 ^ 27 % 4 = 0 ∧
    frameWord 0 7 3600 15 / 2 ^ 12 % 4096 * certPendant cert / 4095 = 900000 ∧
    goodWord (frameWord 1 0 0 15) = true ∧ frameWord 1 0 0 15 / 2 ^ 27 % 4 = 1 ∧ goodWord (frameWord 2 0 0 0) = false ∧
    1000000 < frameWord 0 7 4095 0 / 2 ^ 12 % 4096 * certPendant cert / 4095 ∧ ready0.pendant.mode = 0 ∧
    certSlew (putField cert 0xA4 1 6) < 7 ∧ linked.path.holder ≠ .lanes ∧ lanesLink.path.holder = .lanes := by decide +kernel

/-- Port 1 attached: a message awaits its answer; the partner's request was answered. -/
def asking (r : Nat) (st : SendState) (t : Nat) : State := joined.modPort 1 fun p =>
  { p with out := some { msg := { type := t, seqNo := 9, answers := 0, payload := build 14 [(12, 1, 50)] }, state := st, resends := r } }
def answeredOnce : State := joined.modPort 1 fun p =>
  { p with answered := some { type := 3, seqNo := 1, answers := 7, payload := [] } }
def exporting1 : State := joined.modPort 1 fun p => { p with exporter := true, mode := .attachedSource }
def heard1 (s : State) : Bool := s.claspOn 1 && ((s.port 1).mode.attached || (s.port 1).mode == .recovery)

theorem test_clasp : joined.claspOn 1 = true ∧ worker.claspOn 1 = false ∧ awake.claspOn 2 = false ∧
    ((asking 2 .sent 2).port 1).out.isSome = true ∧ heard1 joined = true ∧ heard1 awake = false ∧
    (joined.port 1).mode.attached = true ∧ (joined.port 1).endB = false ∧ (joined.port 1).exporter = false ∧
    (exporting1.port 1).exporter = true ∧ (exporting1.port 1).mode.attached = true ∧
    (((answeredOnce.port 1).answered.map (·.answers)) = some 7) ∧ ((joined.port 1).answered = none) ∧
    (let s := joined.modPort 1 fun p => { p with mode := .recovery }; heard1 s = true ∧ (s.port 1).mode.attached = false) ∧
    (∀ t ∈ [2, 5, 6, 7], ((asking 0 .sent t).port 1).out.any (fun o => o.state == .sent && o.msg.seqNo == 9 && o.msg.type == t) = true) ∧
    ((asking 0 .waiting 2).port 1).out.any (fun o => o.state == .sent) = false := by decide +kernel

/-! ### Premises: conversions -/

/-- Converter 0 runs its table: `d` discards are left, `c` conversions of a sample of 4 are done. -/
def metered (d c : Nat) : State := awake.modMeas fun m => m.modAdc 0 fun a =>
  { a with body := some (putField table1 9 1 1), started := true, discards := d, convs := c, part := 0 }

theorem test_conversion_premises : tabCount (putField table1 9 1 1) ≠ 0 ∧ (metered 0 0).isReady .meas = true ∧
    ((metered 0 0).meas.adc 0).started = true ∧ ((metered 0 0).meas.adc 0).stopped = false ∧
    entF (tabEntry (putField table1 9 1 1) 0) = 4 ∧ ((metered 1 0).meas.adc 0).discards ≠ 0 ∧
    (awake.meas.adc 0).started = false := by decide +kernel

/-! ### Numbers that the spec states -/

/-- The state that a command answers. -/
def after (c : Instr) (s : State) : State :=
  match exec c s with
  | .next t => t
  | _ => State.reset

def digits : List Nat := [0x31, 0x32, 0x33, 0x34, 0x35, 0x36, 0x37, 0x38, 0x39]

/-- R119, R292, R314: the CRCs of "123456789". -/
theorem test_crcs : crc32c (digits.map (BitVec.ofNat 8)) = 0xE3069283 ∧ crc16 (digits.map (BitVec.ofNat 8)) = 0x29B1 ∧ crc8 digits = 0xF4 := by
  decide +kernel

/-- FIPS 180-4: SHA-256 of "abc". -/
theorem test_sha256 : sha256 [0x61, 0x62, 0x63] = be 32 0xba7816bf8f01cfea414140de5dae2223b00361a396177a9cb410ff61f20015ad := by
  decide +kernel

/-- The example after R118: an unscheduled SOFT_RESET with tag 5. -/
theorem test_soft_reset_bytes :
    (Packet.bytes { flags := 0, target := 0, tag := 5, opcode := 19, epoch := 0, payload := le 4 0x50F7C0DE }).take 16 =
      [0xA7, 0, 0, 5, 0x13, 0, 4, 0, 0, 0, 0, 0, 0xDE, 0xC0, 0xF7, 0x50] := by decide +kernel

/-- The example after R171: 150 kHz and 100 kHz. -/
theorem test_period : periodSteps 150000 = 42667 ∧ periodSteps 100000 = 64000 := by decide

/-- The example after R179: duty 26,214 of 64,000 steps, dead times of 1,280. -/
theorem test_turn_on_steps : let s := after (.legTurnOn 0) ((running.modLane 0 fun l =>
      { l with period := 64000, body := some (putField (putField (putField profile 8 2 1280) 0xA 2 1280) 0x10 2 0) }).modLegs 1 fun g =>
      { g with prev := 26214, due := true })
    (s.conv.leg 0).tOn = 25599 ∧ (s.conv.leg 0).lowOnAt = 26879 ∧ (s.conv.leg 0).lowOffAt = 62720 ∧ (s.conv.leg 0).drive = .pulses := by
  decide +kernel

/-- The example of the Pendant link: code 3,200, slew 3, SEQ 1 has the bytes 0xA3 0xC8 0x01 and stands for 800,000 mV. -/
theorem test_setpoint : frameWord 0 3 3200 1 / 2 ^ 8 = 0xA3C801 ∧
    (after (.pendantSetpointFrame (frameWord 0 3 3200 1)) linked).pendant.target = 800000 := by decide +kernel

/-- The same: a slew of 40 mV per microsecond. -/
theorem test_slew : (after .pendantSlewStep (linked.modPendant fun p =>
    { p with phase := .slewing, ref := some 750000, target := 800000, rate := 3 })).pendant.ref = some 750040 := by decide +kernel

/-- The example of a drip counter: at 64 the next increment overflows and returns the count to 0. -/
theorem test_drip : let s := after (.scrubVisit 0 [] ⟨1, 0⟩ none false) (awake.modMemi fun m => m.modRam 0 fun r => { r with count := 64 })
    (s.memi.ram 0).count = 0 ∧ (s.memi.ram 0).overflows = 1 ∧ (s.memi.ram 0).corrected = 1 := by decide +kernel

/-- Table 17-2: 499 is accepted, 99 early (0xD1), 500 expiry (0xD0), another value 0xD3. -/
theorem test_service : (after (.wdgService 0xC3A55A3C) (serviced 499)).wdg.count = 0 ∧
    (after (.wdgService 0xC3A55A3C) (serviced 99)).sys.lastFault.code = 0xD1 ∧
    (after (.wdgService 0xC3A55A3C) (serviced 500)).sys.lastFault.code = 0xD0 ∧
    (after (.wdgService 0) (serviced 100)).sys.lastFault.code = 0xD3 := by decide +kernel

/-- R410: 600 ticks and 600 are clamped to CLOSE 500 and OPEN 499. -/
theorem test_window_clamped : (after (.wdgWindowWrite (600 * 2 ^ 16 + 600)) awake).wdg.window = some (499, 500) := by decide +kernel

/-- The example of LFRC stepping: d = 2,294,967,296 counts as ahead. -/
theorem test_timer_ahead : ({ Timer.reset with source := 1, armed := true, count := 400000000, compare := 2400000000 } : Timer).due = false ∧
    ({ Timer.reset with source := 1, armed := true, count := 2400000000, compare := 2400000000 } : Timer).due = true := by decide +kernel

/-- R138: the status byte before CMD is ready, and then with space and nothing to send. -/
theorem test_status : (after (.status) State.reset).cmd.miso = [0] ∧ (after (.status) awake).cmd.miso = [0xA0] := by decide +kernel

/-- Table 06-5 and Table 04-4: a read of SYS_RST_CAUSE after a POR; a host's write of a SYS register is refused. -/
theorem test_window_access : (after (.windowRead 8 1) awake).cmd.miso = 0xA0 :: (zeros 5 ++ [0xFF, 0x5A, 2, 0, 0, 0]) ∧
    (after (.windowWrite 8 0) awake).cmd.miso = 0xA0 :: (zeros 8 ++ [0xFF, 0xE1]) := by decide +kernel

/-- R132: ECHO's reply, 0x00 and the payload, with the reply flag. -/
theorem test_echo_reply : (after (.echo now [0xA7]) awake).cmd.outSpi.map (·.pkt) =
    [{ flags := 0x80, target := 0, tag := 1, opcode := 0, epoch := 0, payload := [0, 0xA7] }] := by decide +kernel

/-- R77, Table 04-7: POR and SOFT together record POR alone, and both in the history. -/
theorem test_cause : (after (.resetEnd straps) (ending 0x102)).sys.rstCause = 0x002 ∧
    (after (.resetEnd straps) (ending 0x102)).sys.seen = 0x102 := by decide +kernel

/-- R61, Table 04-3: 640 edges pass, 607 and 673 do not. -/
theorem test_reference : (after (.referenceCheck 640) State.reset).sys.clk = .pllStart ∧
    (after (.referenceCheck 607) State.reset).sys.clk = .refCheck ∧ (after (.referenceCheck 673) State.reset).sys.refOk = false := by
  decide +kernel

/-- R383 with the defaults of R384: 150.0 C throttles and 160.0 C shuts down; 145.0 C holds and 144.9 C releases both. -/
theorem test_levels : (Levels.none.next Therm.reset.junctionSet 1500).level = 2 ∧ (Levels.none.next Therm.reset.junctionSet 1600).level = 3 ∧
    ((Levels.none.next Therm.reset.junctionSet 1600).next Therm.reset.junctionSet 1450).shutdown = true ∧
    ((Levels.none.next Therm.reset.junctionSet 1600).next Therm.reset.junctionSet 1449).shutdown = false := by decide +kernel

/-- R212: a LIMIT crossing omits the high side's pulse; R215: a TRIP takes the lane to HICCUP. -/
theorem test_crossings : ((after (.comparatorCrossing 0 true true false) running).conv.leg 0).highOmitted = true ∧
    ((after (.comparatorCrossing 1 true true false) running).lane 0).mode = .hiccup := by decide +kernel

/-- Table 11-4: an over-current trip of the closed channel 4 opens it, TRIPPED, and takes its retry count along. -/
theorem test_bezel_trip : ((after (.bezelTrip 12) closed4).chan 4).state = .tripped ∧
    (after (.bezelTrip 12) awake).path = awake.path := by decide +kernel

/-- R402: an overflow of timer 14 advances a chained timer 15 in the same tick. -/
theorem test_chain_tick : let s := after (.timerOverflow 14) (awake.modTime fun y =>
      (y.setTimer 14 { Timer.reset with source := 1 }).setTimer 15 { Timer.reset with source := 2, count := 6 })
    (s.time.timer 15).count = 7 ∧ s.time.ovf = 0x4000 := by decide +kernel

/-- R328: the command for worker 1 travels in a packet frame with its address and the rank of SPI. -/
theorem test_frame_down : (packetFrame 1 .spi [1, 2, 3]).take 2 = [1, 0] := by decide +kernel

/-- R18, R151: a boundary opens the next epoch at tick 0. -/
theorem test_next_epoch : (after .epochBoundary awake).time.epoch = 1 ∧ (after .epochBoundary awake).time.tick = 0 := by decide +kernel

/-- R366, R371, Table 15-5: the fourth conversion completes a sample, its mean; a discard adds none. -/
theorem test_sample : ((after (.conversionDone 0 100) (metered 0 3)).meas.accs.map (·.count)).getLast? = some 1 ∧
    ((after (.conversionDone 0 100) (metered 0 3)).meas.accs.map (·.sum)).getLast? = some 25 ∧
    ((after (.conversionDone 0 100) (metered 1 0)).meas.accs.map (·.discards)).getLast? = some 1 ∧
    ((after (.conversionDone 0 100) (metered 1 0)).meas.accs.map (·.count)).getLast? = some 0 := by decide +kernel

/-! ### Well-formed commands: each check refuses -/

theorem test_wf_units : (Instr.frameStart 3).wf = true ∧ (Instr.frameStart 4).wf = false ∧ (Instr.linkUp 2).wf = false ∧
    (Instr.legTurnOn 16).wf = false ∧ (Instr.bzCloseTimeout 6).wf = false ∧ (Instr.bezelTrip 17).wf = true ∧
    (Instr.bezelTrip 18).wf = false ∧ (Instr.decimatorOutput 20 0).wf = false ∧ (Instr.telemetryFrame 64 ⟨[], .none⟩).wf = false ∧
    (Instr.captureEdge 8 ⟨true, 0⟩).wf = false ∧ (Instr.captureEdge 0 ⟨true, 256⟩).wf = false ∧
    (Instr.writePacket ⟨256, []⟩).wf = false := by decide

theorem test_wf_numbers : (Instr.conversionDone 0 (2 ^ 16)).wf = false ∧ (Instr.wdgService (2 ^ 32)).wf = false ∧
    (Instr.windowRead (2 ^ 32) 1).wf = false ∧ (Instr.windowWrite 0 (2 ^ 32)).wf = false ∧
    (Instr.undefinedOpcode now (2 ^ 16) []).wf = false ∧ (Instr.malformedPacket .spi 256 []).wf = false ∧
    (Instr.canFrameReceived 0 (2 ^ 29) true []).wf = false ∧ (Instr.canFrameReceived 0 0 true (zeros 65)).wf = false ∧
    (Instr.resetFrame .none (2 ^ 64)).wf = false ∧ (Instr.enum false .none 256 0 0 0).wf = false ∧
    (Instr.enumAnswer .none (zeros 7) 0 1 0).wf = false ∧ (Instr.enumEnd .none 64 false).wf = false := by decide +kernel

theorem test_wf_packets : (Instr.echo now (zeros 1024)).wf = true ∧ (Instr.echo now (zeros 1025)).wf = false ∧
    (Instr.echo { now with epoch := 2 ^ 32 } []).wf = false ∧ (Instr.echo { now with node := 256 } []).wf = false ∧
    (Instr.caps 0 false 256 0 []).wf = false ∧ (Instr.accept 0 false 1 256 []).wf = false ∧ (Instr.hold 2 false 1 0 []).wf = false ∧
    (Instr.scrubVisit 0 [] ⟨0, 0⟩ (some { origin := .spi, chain := false, tag := 128 }) false).wf = false ∧
    (Instr.scrubVisit 0 [] ⟨0, 0⟩ (some { origin := .spi, chain := false, tag := 0 }) false).wf = false ∧
    (Instr.thermalReadDone [0]).wf = false ∧ (Instr.thermalHeldRead []).wf = false := by decide +kernel

/-! ### The host's two questions -/

/-- No row of the table gives bits: no word spells a command, and placing one changes nothing. -/
theorem test_table_word : decodeTableWord 16 0 = none ∧ State.reset.withFetchWord 16 0 = State.reset := ⟨rfl, rfl⟩

/-! ### Premises: clauses over the retention, the balls, the slots and the port's timers -/

/-- The die's own reset, with a write that still crosses: 240 core ticks are left of it, and 80. -/
def crossing (n : Nat) : State :=
  let s := awake.trigger causeSoft
  { s with sys := { s.sys with crossSeen := some (n, 0x002), crossWake := some (n, s.sys.wake) } }

theorem test_crossing : (crossing 240).sys.crossSeen = some (240, 0x002) ∧ (crossing 240).sys.crossWake = some (240, awake.sys.wake) ∧
    80 < 240 ∧ (crossing 80).sys.crossSeen = some (80, 0x002) ∧ (crossing 80).sys.held = false ∧ (crossing 80).sys.trigPending ≠ 0 ∧
    awake.sys.crossSeen = none ∧ awake.sys.crossWake = none := by decide +kernel

theorem test_reset_kinds : (awake.lc = .develop) ∧ awake.sys.forgetting = false ∧ (ending 0x100).sys.trigPll = false ∧
    (let s := ending 0x100; { s with sys := { s.sys with forgetting := true, clk := .locked } : State }.mayEnd = true) ∧
    (let s := ending 0x002; s.mayEnd = true ∧ s.sys.trig.getLsbD causePor = true) ∧
    ({ ending 0x100 with sys := { (ending 0x100).sys with clk := .powerDown } } : State).mayEnd = true ∧
    ¬({ awake with otp := { awake.otp with lcState := Triple.of 1 } } : State).lc = .ret := by decide +kernel

/-- A boundary-scan instruction in force, with all its gate cells high. -/
def scanned : State := { awake with sys := { awake.sys with tapOn := true, cells := some { pwmh := 0xFFFF, pwml := 0, bz := 0 } } }

theorem test_scan : scanned.sys.cells = some { pwmh := 0xFFFF, pwml := 0, bz := 0 } ∧ scanned.level (.pwmh 15) = .driven true ∧
    scanned.level (.bzDrv 5) = .driven false := by decide +kernel

theorem test_core_values : awake.coreRuns = true ∧ awake.limits = some cert ∧ 3 < awake.conv.lanes.length ∧
    ({ awake with otp := { awake.otp with lcState := Triple.of 3 }, geode := { awake.geode with cert := none } } : State).limits = none ∧
    ({ awake with otp := { awake.otp with lcState := Triple.of 3 }, geode := { awake.geode with cert := none } } : State).coreRuns = true ∧
    (let x : Hung := { access with write := some 1 }
     let s : State := { hungSpi with otp := { awake.otp with lcState := Triple.of 8 }, sys := { hungSpi.sys with hung := some x } }
     x.write = some 1 ∧ s.lc = .scrapped ∧ s.sys.hung = some x) ∧
    awake.blockRuns .slolos = false ∧ ({ awake with geode := { awake.geode with stalled := true } } : State).geode.stalled = true := by
  decide +kernel

theorem test_more_updates : updating.flash.session = some session ∧
    (let s := (sent.modGeode fun g => { g with hashing := some (waiting127.key, 7) }).modFlash fun f => { f with op := .certErase }
     s.geode.hashing = some (waiting127.key, 7) ∧ s.flash.op ≠ .none) ∧
    (let s := hot (sent.modGeode fun g => { g with hashing := some (waiting127.key, 7) }); s.flash.op = .none ∧ s.flashTemp = false) := by
  decide +kernel

theorem test_open_frame : 15 < (running.endPulses 0).conv.legs.length ∧ 0 < running.conv.lanes.length ∧
    (running.conv.leg 1).due = false ∧ ((running.openFrame 0).conv.leg 1).due = true := by decide +kernel

theorem test_read_due : awake.therm.started = false ∧
    (let s := awake.modTherm fun t => { t with started := true }; s.therm.fast = false ∧ s.time.tick + 10000 < s.epochTicks) := by
  decide +kernel

/-- The transition of the link: none, and one in progress; the measured input is valid. -/
def slewing : State := lanesLink.modPendant fun p => { p with phase := .slewing, ref := some 700000, target := 800000, rate := 3 }
def measured : State := lanesLink.modConv fun c => { c with decims := modAt c.decims 17 fun d => { d with newest := some 16384 } }

theorem test_transitions : slewing.pendant.phase ≠ .idle ∧ measured.pendant.phase = .idle ∧ measured.volts measured.pendant.input = some 16384 ∧
    ¬(900000 < certLinkMin cert) ∧ (lanesLink.modPendant fun p => { p with phase := .settling }).pendant.phase = .settling := by
  decide +kernel

/-! ### Further numbers that the spec states -/

/-- The example after R177: 8 legs, P of 64,000 steps, a slot every 8,000. In frame 1, a step frame, slot 0 is empty and leg 0 fires at
11.25 us, one slot into it; in frame 2 leg 7 has slot 0. -/
theorem test_rotation : let l := { running.lane 0 with legs := 0x00FF, period := 64000, rotFirst := 7 }
    ({ l with stepping := true } : Lane).fires 7 = false ∧ ({ l with stepping := true } : Lane).turnOnIn 0 = 8000 ∧
    ({ l with stepping := true } : Lane).turnOnIn 6 = 56000 ∧ l.turnOnIn 7 = 0 ∧ l.turnOnIn 0 = 8000 ∧
    ({ l with rotFirst := 0 } : Lane).turnOnIn 7 = 56000 := by decide +kernel

/-- R143, R144: one frame of a reply of 18 bytes: base 1, own node 0, destination 5; FIRST and LAST, sequence 0, padded to 20 bytes. -/
theorem test_can_frame : ((after (.canFrameTransmitted 0) (canOn0.modCmd fun c =>
      { c with outCan0 := [{ outItem with node := 5 }] })).cmd.can 0).frame =
    some { ident := 0x10005, bytes := 0xC0 :: outItem.pkt.bytes ++ zeros (20 - 1 - outItem.pkt.bytes.length) } := by decide +kernel

/-- R79: the Geode's check of the record at the start of the clocks; one that fails reads with the code 0xFF. -/
theorem test_record_check : (after .clockStart (locked false)).sys.lastFault = FaultRec.reset ∧
    (after .clockStart { locked false with sys := { (locked false).sys with lastFault := { FaultRec.reset with crc := 0 } } }).sys.lastFault.code
      = 0xFF := by decide +kernel

/-- R137: an unknown command byte is counted in FRAMING; R138: its transaction's first byte is the status byte. -/
theorem test_unknown_command : (after (.writePacket ⟨6, [0, 0]⟩) awake).cmd.framing = 1 ∧ (after (.writePacket ⟨6, [0, 0]⟩) awake).cmd.miso.head? = some 0xA0 := by
  decide +kernel

/-- R9, R146: a host's write to a SYS register in SCRAPPED is refused with 0xE1. -/
theorem test_scrapped_write :
    (after (.windowWrite 8 0) { awake with otp := { awake.otp with lcState := Triple.of 8 } }).cmd.miso.getLast? = some 0xE1 := by
  decide +kernel

end Sys2Proof.Tests
end

section
/-!
PROOF. O33: the supply monitors, VAON's rise and NRST (R41, R43, R44), one lemma per event and case, and the statement
assembled from them.
-/
namespace Sys2Proof.Machine

variable (s : State)

/-! ### VAON's rise -/

/-- While VAON is present, a further rise of it is no event of the die. -/
theorem execVaonRise_of_powered (h : s.powered = true) : execVaonRise s = .next s := if_pos h

/-- Table 03-4, step 1, and the POR that goes on from it. -/
theorem execVaonRise_of_not_powered (h : s.powered = false) :
    execVaonRise s = .next (((s.modSys fun y =>
      { y with supplies := y.supplies.putBit 0 true, lfrcRun := true, lfrcTrimmed := true, safeLow := true }).modWdg fun w =>
        { w with lfrcStalled := false }).trigger causePor) :=
  if_neg (by simp [h])

/-! ### The supply monitors -/

/-- A fall of VAON is a POR whatever state the die is in, and LFRC stops with its supply (R41). -/
theorem execSupplyMonitorTrip_vaon :
    execSupplyMonitorTrip .vaon s =
      .next (((s.modSys fun y => { y with supplies := y.supplies.putBit 0 false, suppliesOk := false }).trigger causePor).modSys
        fun y => { y with lfrcRun := false, lfrcTrimmed := false }) := rfl

/-- A fall of any other supply is a BOR, except in HIBERNATE, where it only shows in the supplies (R41). -/
theorem execSupplyMonitorTrip_of_ne_vaon {x : Supply} (h : x ≠ .vaon) :
    let t := s.modSys fun y => { y with supplies := y.supplies.putBit (supplyBit x) false, suppliesOk := false }
    execSupplyMonitorTrip x s = .next (if s.sys.hibernate then t else t.trigger causeBor) := by
  cases x with
  | vaon => exact absurd rfl h
  | vio | vana | vpll | vcore => rfl

/-- With VAON present, the release finds every supply valid. -/
theorem execSupplyMonitorRelease_of_powered (h : s.powered = true) :
    execSupplyMonitorRelease s = .next (s.modSys fun y => { y with supplies := 0x1F, suppliesOk := true }) := if_pos h

/-- With VAON absent there is no monitor to release. -/
theorem execSupplyMonitorRelease_of_not_powered (h : s.powered = false) : execSupplyMonitorRelease s = .next s :=
  if_neg (by simp [h])

/-! ### NRST (R44, log 12) -/

/-- A pulse of at most 100 ns never resets. -/
theorem execNrstLow_of_le {n : Nat} (h : n ≤ 100) : execNrstLow n s = .next s := if_pos h

/-- A pulse of at least 1 us always resets. -/
theorem execNrstLow_of_ge {n : Nat} (h : 1000 ≤ n) : execNrstLow n s = .next s.pinReset := by
  have long : ¬ n ≤ 100 := by omega
  simp only [execNrstLow, if_neg long, if_pos h]

/-- Between the two lengths a free bit decides, and is used up either way. -/
theorem execNrstLow_of_between {n : Nat} (long : ¬ n ≤ 100) (short : ¬ 1000 ≤ n) :
    execNrstLow n s = .next (if s.takeBit.1 then s.takeBit.2.pinReset else s.takeBit.2) := by
  simp only [execNrstLow, if_neg long, if_neg short]

/-! ### The statement -/

/-- Settles O33, event by event: each case of the event is one of the lemmas above, and a trigger is merged or waits by its definition. -/
theorem supplyAndNrstEvents : Obligations.SupplyAndNrstEvents := by
  unfold Obligations.SupplyAndNrstEvents
  refine ⟨fun s => ?vaonRise, fun x s => ?trip, fun s => ?release, fun n s => ?nrst, fun s n => ?trigger⟩
  case vaonRise =>
    split
    next h => exact execVaonRise_of_powered s h
    next h => exact execVaonRise_of_not_powered s (Bool.eq_false_iff.mpr h)
  case trip =>
    intro t
    by_cases h : x = .vaon
    · subst h
      exact execSupplyMonitorTrip_vaon s
    · rw [if_neg h]
      exact execSupplyMonitorTrip_of_ne_vaon s h
  case release =>
    split
    next h => exact execSupplyMonitorRelease_of_powered s h
    next h => exact execSupplyMonitorRelease_of_not_powered s (Bool.eq_false_iff.mpr h)
  case nrst =>
    intro low
    split
    next h => exact execNrstLow_of_le s h
    next long =>
      split
      next h => exact execNrstLow_of_ge s h
      next short => exact execNrstLow_of_between s long short
  case trigger => rfl

end Sys2Proof.Machine
end

section
/-!
SUPPORT. Event rows that act under one condition.
-/
namespace Sys2Proof.Machine

/-- An event row that acts under one condition: the model writes it over two outcomes and with Booleans, the statements over two
states and with propositions. -/
theorem next_ite {c d : Prop} [Decidable c] [Decidable d] (h : c ↔ d) (t s : State) :
    (if c then (.next t : Host.Outcome State Fault Refusal) else .next s) = .next (if d then t else s) := by
  by_cases hd : d
  · rw [if_pos (h.mpr hd), if_pos hd]
  · rw [if_neg (mt h.mp hd), if_neg hd]

end Sys2Proof.Machine
end

section
/-!
PROOF. O36: the lock sequence and its losses (R61 to R64), one equation per event and case.
-/
namespace Sys2Proof.Machine

variable (s : State)

/-! ### The reference check (Table 04-2, step 2) -/

/-- The accepted counts of R61. -/
theorem refGood_iff (n : Nat) : refGood n = true ↔ 608 ≤ n ∧ n ≤ 672 := by simp [refGood]

theorem refGood_eq_decide (n : Nat) : refGood n = decide (608 ≤ n ∧ n ≤ 672) :=
  Bool.eq_iff_iff.mpr ((refGood_iff n).trans decide_eq_true_iff.symm)

/-- The check's result is shown in REF_OK, and a count that passes starts the PLL. -/
theorem execReferenceCheck_eq (n : Nat) :
    execReferenceCheck n s = .next (if s.locking .refCheck then s.modSys fun y =>
      { y with
        refOk := decide (608 ≤ n ∧ n ≤ 672)
        clk := if 608 ≤ n ∧ n ≤ 672 then .pllStart else .refCheck } else s) := by
  simp only [execReferenceCheck, refGood_eq_decide, decide_eq_true_eq]
  exact next_ite Iff.rfl _ _

/-! ### The lock, its timeout and its retry (steps 3 and 4, R62) -/

theorem execPllLock_eq :
    execPllLock s = .next (if s.locking .pllStart then s.modSys fun y => { y with clk := .locked } else s) :=
  next_ite Iff.rfl _ _

/-- Either of steps 2 and 3 may exceed its bound. -/
theorem execPllLockTimeout_eq :
    execPllLockTimeout s = .next (if s.locking .refCheck = true ∨ s.locking .pllStart = true then
      s.modSys fun y => { y with clk := .powerDown, pllRetry := satAdd 255 y.pllRetry 1 } else s) :=
  next_ite (Bool.or_eq_true _ _).to_iff _ _

theorem execPllRetryRestart_eq :
    execPllRetryRestart s = .next (if s.locking .powerDown then s.modSys fun y => { y with clk := .refCheck } else s) :=
  next_ite Iff.rfl _ _

/-! ### The release of the dividers (step 5) -/

/-- Without a locked PLL there is nothing to release. -/
theorem execClockStart_of_not_locked (h : s.locking .locked = false) : execClockStart s = .next s :=
  if_neg (by simp [h])

/-- After STANDBY or a service wake the retained state goes on (R83, R84). -/
theorem execClockStart_of_waking (h : s.locking .locked = true) (w : s.sys.waking = true) :
    execClockStart s = .next (s.modSys fun y => { y with clk := .running, waking := false }) := by
  simp only [execClockStart, h, w, if_true]

/-- After a reset the Geode boots. -/
theorem execClockStart_of_not_waking (h : s.locking .locked = true) (w : s.sys.waking = false) :
    execClockStart s = .next s.clockStart := by
  simp only [execClockStart, h, w, if_true, Bool.false_eq_true, if_false]

/-- The Geode's check of the last-fault record compares its CRC with that of its other bytes (R79). -/
theorem FaultRec.checked_eq (r : FaultRec) :
    r.checked = if r.crc = BitVec.ofNat 32 (crc32c r.body) then r else { r with code := 0xFF } := by
  simp only [FaultRec.checked, FaultRec.good, beq_iff_eq]

/-- What the start of the clocks writes: the clock, the check of the record, the first boot stage, and a fault where OTP has an
error that its copies do not mend (R93). -/
theorem State.clockStart_eq :
    let r := s.sys.lastFault
    let t : State := { s with
      sys := { s.sys with
        clk := .running, lastFault := if r.crc = BitVec.ofNat 32 (crc32c r.body) then r else { r with code := 0xFF } }
      geode := { s.geode with stage := .patch } }
    s.clockStart = if s.otp.eccBad then t.recordFault 0x85 0x0F [] else t := by
  simp only [← FaultRec.checked_eq]
  rfl

/-! ### Losses (R63) and the measurement of LFRC (R64) -/

theorem execPllLoss_eq :
    execPllLoss s = .next (if s.sys.clk = .running then
      (s.clockLost 0xC0).modSys fun y => { y with pllLost := true } else s) :=
  next_ite beq_iff_eq _ _

/-- A count outside the accepted range while the clocks run. -/
theorem execRefLoss_eq (n : Nat) :
    execRefLoss n s = .next (if s.sys.clk = .running ∧ ¬(608 ≤ n ∧ n ≤ 672) then
      (s.clockLost 0xC1).modSys fun y => { y with refOk := false } else s) :=
  next_ite (by simp only [Bool.and_eq_true, beq_iff_eq, Bool.not_eq_true', ← Bool.not_eq_true, refGood_iff]) _ _

/-- PLL_LOCK reads 1 with a locked or running clock that has not been lost since. -/
theorem Sys.pllLock_iff (y : Sys) : y.pllLock = true ↔ (y.clk = .running ∨ y.clk = .locked) ∧ y.pllLost = false := by
  simp only [Sys.pllLock, Bool.and_eq_true, Bool.or_eq_true, beq_iff_eq, Bool.not_eq_true']

theorem execLfrcMeasUpdate_eq (n : Nat) :
    execLfrcMeasUpdate n s =
      .next (if (s.sys.clk = .running ∨ s.sys.clk = .locked) ∧ s.sys.pllLost = false ∧ s.sys.held = false then
        s.modSys fun y => { y with lfrcMeas := n % 65536 } else s) :=
  next_ite (by simp only [Bool.and_eq_true, Sys.pllLock_iff, Bool.not_eq_true', and_assoc]) _ _

/-! ### The statement -/

/-- Settles O36, event by event: each clause is the equation of its event. -/
theorem lockSequence : Obligations.LockSequence := by
  unfold Obligations.LockSequence
  refine ⟨fun n s => execReferenceCheck_eq s n, execPllLock_eq, execPllLockTimeout_eq, execPllRetryRestart_eq,
    execClockStart_of_not_locked, execClockStart_of_waking, fun s locked awake => ?started, execPllLoss_eq,
    fun n s => execRefLoss_eq s n, fun _ _ => rfl, fun n s => execLfrcMeasUpdate_eq s n, fun _ => rfl⟩
  case started =>
    intro r t
    exact (execClockStart_of_not_waking s locked awake).trans (congrArg _ s.clockStart_eq)

end Sys2Proof.Machine
end

section
/-!
PROOF. O45 and O35: how triggers merge, and what the end of a reset writes (R37, R61, R76 to R79, R86). The end is cut into its four
stages, and each field that a statement speaks of is read off them once.
-/
namespace Sys2Proof.Machine

/-! ### Triggers -/

/-- A bit after another was written. -/
theorem getLsbD_putBit_true {w : Nat} (x : BitVec w) {i : Nat} (h : i < w) (k : Nat) :
    (x.putBit i true).getLsbD k = (x.getLsbD k || k == i) := by
  have one : (BitVec.ofNat w (2 ^ i)).getLsbD k = (k == i) := by
    rw [BitVec.getLsbD_ofNat, Nat.testBit_two_pow, Bool.eq_iff_iff]
    simp only [Bool.and_eq_true, decide_eq_true_eq, beq_iff_eq]
    omega
  rw [BitVec.putBit, if_pos rfl, BitVec.getLsbD_or, one]

section
variable (s : State)

/-- While a reset is held, a trigger merges with it (R77). -/
theorem State.trigger_of_held (n : Nat) (h : s.sys.held = true) :
    s.trigger n = s.modSys fun y => { y with trig := y.trig.putBit n true } := if_pos h

/-! ### The straps (R37, R38) -/

/-- A sample takes at most a free bit. -/
theorem State.sampleStrap_leaves (level changing : Bool) : ∃ b n, s.sampleStrap level changing = (b, { s with freeCtr := n }) := by
  cases changing with
  | false => exact ⟨level, s.freeCtr, rfl⟩
  | true => exact ⟨s.takeBit.1, s.freeCtr + 1, rfl⟩

/-- The samples write MODE and XSEL, and nothing else but the count of free bits. -/
theorem State.sampleStraps_leaves (x : Straps) : ∃ m v n, s.sampleStraps x =
    { s with sys := { s.sys with mode := m, xsel := v, strapsTaken := true }, freeCtr := n } := by
  obtain ⟨m0, n0, e0⟩ := s.sampleStrap_leaves (x.mode.getLsbD 0) (x.changing.getLsbD 0)
  obtain ⟨m1, n1, e1⟩ := ({ s with freeCtr := n0 } : State).sampleStrap_leaves (x.mode.getLsbD 1) (x.changing.getLsbD 1)
  obtain ⟨v, n2, e2⟩ := ({ s with freeCtr := n1 } : State).sampleStrap_leaves x.xsel (x.changing.getLsbD 2)
  refine ⟨BitVec.ofNat 2 (bit m0 + 2 * bit m1), v, n2, ?_⟩
  simp only [State.sampleStraps, e0, e1, e2]
  rfl

/-- The two bits of a strap word are the word. -/
theorem ofNat_bits (m : BitVec 2) : BitVec.ofNat 2 (bit (m.getLsbD 0) + 2 * bit (m.getLsbD 1)) = m := by
  revert m
  decide

/-- Straps that stand still are taken as they are. -/
theorem State.sampleStraps_of_still (x : Straps) (h : x.changing = 0) :
    s.sampleStraps x = { s with sys := { s.sys with mode := x.mode, xsel := x.xsel, strapsTaken := true } } := by
  have still : ∀ i, x.changing.getLsbD i = false := fun i => by rw [h]; exact BitVec.getLsbD_zero
  have taken : ∀ (t : State) (b : Bool) (i : Nat), t.sampleStrap b (x.changing.getLsbD i) = (b, t) := fun t b i => by
    rw [still i]
    rfl
  simp only [State.sampleStraps, taken, ofNat_bits]
  rfl

/-! ### The four stages of a reset's end -/

/-- A kind that restarts the PLL samples the straps, where NRST's rise has not. -/
def State.strapped (x : Straps) : State := if s.sys.restarts && !s.sys.strapsTaken then s.sampleStraps x else s

/-- The triggers `t` clear the always-on retention, or a life-cycle change does. -/
def State.retained (t : BitVec 12) : State := if coldTrig t || s.sys.forgetting then s.modSys Sys.forget else s

/-- The role code: OTP's where it forces one, the straps' otherwise (R2). -/
def State.roleCode : BitVec 2 := if s.otp.roleCfg.getLsbD 2 then s.otp.roleCfg.extractLsb' 0 2 else s.sys.mode

/-- The blocks that the end of a reset starts, and the record of the reset that the triggers `t` made. -/
def State.released (t : BitVec 12) : State :=
  let r := roleOf s.otp.partWq s.roleCode
  let tap := s.lc == .develop || s.lc == .ret
  { s with
    time := { Time.reset with
      epoch := if r.1 == .worker || coldTrig t then 0 else (s.sys.epochAtReset + 1) % 2 ^ 32
      hasEpoch := r.1 != .worker }
    wdg := { Wdg.reset with clkLfrc := s.otp.wdgCfg.getLsbD 0, devClose := s.otp.wdgDevClose }
    therm := Therm.reset
    sys := { s.sys with
      held := false
      trig := 0
      trigPll := false
      strapsTaken := false
      clk := s.sys.clkAtEnd
      pllLost := false
      refOk := false
      role := r.1
      roleRefused := r.2
      roleForced := s.otp.roleCfg.getLsbD 2
      rstCause := causeOf t
      seen := s.sys.seen ||| t
      rstCount := satAdd 65535 s.sys.rstCount 1
      lastFault := if s.sys.faultOpen then
        FaultRec.seal { s.sys.lastFault with causeBit := BitVec.ofNat 8 (causeNumber (causeOf t)) } else s.sys.lastFault
      faultOpen := false
      tapOn := tap
      cells := if !coldTrig t && tap then s.sys.cells else none } }

/-- A clock that runs on starts the Geode's boot at once. -/
def State.started : State := if s.sys.clk == .running then s.clockStart else s

/-- The end of a reset is the four stages in order. -/
theorem State.endReset_eq (x : Straps) : s.endReset x = (((s.strapped x).retained s.sys.trig).released s.sys.trig).started := rfl

/-! ### What each stage leaves -/

/-- Sampling writes the two straps only. -/
theorem State.strapped_leaves (x : Straps) : ∃ m v k n, s.strapped x =
    { s with sys := { s.sys with mode := m, xsel := v, strapsTaken := k }, freeCtr := n } := by
  unfold State.strapped
  split
  · obtain ⟨m, v, n, e⟩ := s.sampleStraps_leaves x
    exact ⟨m, v, true, n, e⟩
  · exact ⟨s.sys.mode, s.sys.xsel, s.sys.strapsTaken, s.freeCtr, rfl⟩

/-- The start of the clocks writes the clock, the last-fault record and the boot stage only. -/
theorem State.clockStart_leaves : ∃ r o q, s.clockStart =
    { s with
      sys := { s.sys with clk := .running, lastFault := r, faultOpen := o, faultSeq := q }
      geode := { s.geode with stage := .patch } } := by
  rw [s.clockStart_eq]
  split
  · exact ⟨_, true, (s.sys.faultSeq + 1) % 2 ^ 32, rfl⟩
  · exact ⟨_, s.sys.faultOpen, s.sys.faultSeq, rfl⟩

/-- With a clock that runs on, the clock stays as it is. -/
theorem State.started_leaves : ∃ r o q, s.started =
    { s with
      sys := { s.sys with lastFault := r, faultOpen := o, faultSeq := q }
      geode := { s.geode with stage := if s.sys.clk = .running then .patch else s.geode.stage } } := by
  unfold State.started
  by_cases running : s.sys.clk = .running
  · obtain ⟨r, o, q, e⟩ := s.clockStart_leaves
    refine ⟨r, o, q, ?_⟩
    rw [if_pos (beq_iff_eq.mpr running), if_pos running, e, ← running]
  · rw [if_neg (mt beq_iff_eq.mp running), if_neg running]
    exact ⟨s.sys.lastFault, s.sys.faultOpen, s.sys.faultSeq, rfl⟩

/-- The always-on retention is returned to its reset value: by a POR, a BOR or a life-cycle change (Table 04-16). -/
def State.forgets : Bool := coldTrig s.sys.trig || s.sys.forgetting

/-- The first two stages write the straps and, where the reset forgets, the retention. -/
theorem State.retained_leaves (x : Straps) : ∃ y n, (s.strapped x).retained s.sys.trig = { s with sys := y, freeCtr := n } ∧
    y.mode = (s.strapped x).sys.mode ∧ y.clkAtEnd = s.sys.clkAtEnd ∧ y.cells = s.sys.cells ∧
    y.seen = (if s.forgets then 0 else s.sys.seen) ∧ y.rstCount = (if s.forgets then 0 else s.sys.rstCount) ∧
    y.epochAtReset = (if s.forgets then 0 else s.sys.epochAtReset) := by
  obtain ⟨m, v, k, n, e⟩ := s.strapped_leaves x
  have forgetting : (s.strapped x).sys.forgetting = s.sys.forgetting := by rw [e]
  by_cases f : s.forgets = true
  · have cut : (s.strapped x).retained s.sys.trig = (s.strapped x).modSys Sys.forget := if_pos (by rw [forgetting]; exact f)
    rw [cut, e]
    simp only [f, if_true]
    exact ⟨_, n, rfl, rfl, rfl, rfl, rfl, rfl, rfl⟩
  · have kept : (s.strapped x).retained s.sys.trig = s.strapped x := if_neg (by rw [forgetting]; exact f)
    rw [kept, e]
    simp only [f, if_false, Bool.false_eq_true]
    exact ⟨_, n, rfl, rfl, rfl, rfl, rfl, rfl, rfl⟩

/-- What the end of a reset writes, field by field, and the blocks that it leaves as the reset's entry made them. -/
structure State.EndedAs (s : State) (x : Straps) (t : State) : Prop where
  held : t.sys.held = false
  trig : t.sys.trig = 0
  mode : t.sys.mode = (s.strapped x).sys.mode
  role : (t.sys.role, t.sys.roleRefused) = roleOf s.otp.partWq (s.strapped x).roleCode
  cause : t.sys.rstCause = causeOf s.sys.trig
  seen : t.sys.seen = (if s.forgets then 0 else s.sys.seen) ||| s.sys.trig
  count : t.sys.rstCount = satAdd 65535 (if s.forgets then 0 else s.sys.rstCount) 1
  epoch : t.time.epoch = if t.sys.role == .worker || coldTrig s.sys.trig then 0
    else ((if s.forgets then 0 else s.sys.epochAtReset) + 1) % 2 ^ 32
  clk : t.sys.clk = s.sys.clkAtEnd
  stage : s.sys.clkAtEnd = .running → t.geode.stage = .patch
  tap : t.sys.tapOn = (s.lc == .develop || s.lc == .ret)
  cells : t.sys.cells = if !coldTrig s.sys.trig && (s.lc == .develop || s.lc == .ret) then s.sys.cells else none
  wdg : t.wdg = { Wdg.reset with clkLfrc := s.otp.wdgCfg.getLsbD 0, devClose := s.otp.wdgDevClose }
  therm : t.therm = Therm.reset
  otp : t.otp = s.otp
  flash : t.flash = s.flash
  cmd : t.cmd = s.cmd
  conv : t.conv = s.conv
  path : t.path = s.path

/-- The end of a reset, read off its four stages. -/
theorem State.endReset_endedAs (x : Straps) : s.EndedAs x (s.endReset x) := by
  obtain ⟨y, n, e, mode, clk, cells, seen, count, epoch⟩ := s.retained_leaves x
  obtain ⟨r, o, q, w⟩ := (((s.strapped x).retained s.sys.trig).released s.sys.trig).started_leaves
  have otp : (s.strapped x).otp = s.otp := by
    obtain ⟨_, _, _, _, z⟩ := s.strapped_leaves x
    rw [z]
  have code : ({ s with sys := y, freeCtr := n } : State).roleCode = (s.strapped x).roleCode := by
    simp only [State.roleCode, otp, mode]
  rw [s.endReset_eq x, w, e]
  exact
    { held := rfl
      trig := rfl
      mode := mode
      role := congrArg (roleOf s.otp.partWq) code
      cause := rfl
      seen := congrArg (· ||| s.sys.trig) seen
      count := congrArg (satAdd 65535 · 1) count
      epoch := by rw [← epoch]; rfl
      clk := clk
      stage := fun runs => if_pos (clk.trans runs)
      tap := rfl
      cells := by rw [← cells]; rfl
      wdg := rfl
      therm := rfl
      otp := rfl
      flash := rfl
      cmd := rfl
      conv := rfl
      path := rfl }

/-! ### The conditions of the end, and the event -/

/-- What must hold before a reset ends (R41, R44, R390, R411). -/
theorem State.mayEnd_iff : s.mayEnd = true ↔ s.sys.held = true ∧ s.sys.suppliesOk = true ∧ s.sys.nrstLow = false ∧
    (s.therm.shutdown = true → 5 ≤ s.therm.coolReads) ∧ s.wdg.lfrcStalled = false := by
  have cooled : (!(s.therm.shutdown && decide (s.therm.coolReads < 5))) = true ↔
      (s.therm.shutdown = true → 5 ≤ s.therm.coolReads) := by
    rw [Bool.not_eq_true', ← Bool.not_eq_true, Bool.and_eq_true, decide_eq_true_iff, not_and, Nat.not_lt]
  simp only [State.mayEnd, Bool.and_eq_true, cooled, Bool.not_eq_true', and_assoc]

theorem execResetEnd_of_not (x : Straps) (h : s.mayEnd = false) : execResetEnd x s = .next s := by
  simp only [execResetEnd, h, Bool.false_eq_true, if_false]

theorem execResetEnd_of_mayEnd (x : Straps) (h : s.mayEnd = true) : execResetEnd x s = .next (s.endReset x) := by
  simp only [execResetEnd, h, if_true]

/-- The rise of an input that is high already is no event. -/
theorem execNrstRise_of_high (x : Straps) (h : s.sys.nrstLow = false) : execNrstRise x s = .next s :=
  if_pos (by rw [h]; rfl)

/-- NRST's rise samples the straps of a POR, BOR or PIN reset, which ends then if nothing else holds it. -/
theorem execNrstRise_of_low (x : Straps) (h : s.sys.nrstLow = true) :
    let t := s.modSys fun y => { y with nrstLow := false }
    let u := if s.sys.held = true ∧ (s.sys.trig &&& 0x00E) ≠ 0 then t.sampleStraps x else t
    execNrstRise x s = if u.mayEnd then execResetEnd x u else .next u := by
  intro t u
  have sampled : (if s.sys.held && (s.sys.trig &&& 0x00E) ≠ 0 then t.sampleStraps x else t) = u := by
    simp only [u, Bool.and_eq_true, decide_eq_true_eq]
  have event : execNrstRise x s = .next (if u.mayEnd then u.endReset x else u) := by
    rw [← sampled]
    exact if_neg (by rw [h]; exact Bool.false_ne_true)
  rw [event]
  split
  next ends => exact (execResetEnd_of_mayEnd u x ends).symm
  next => rfl

/-! ### R77: the merged triggers -/

/-- SYS_RST_CAUSE in the order of R77, with the bits of Table 04-7. -/
theorem causeOf_eq (t : BitVec 12) :
    let one : Nat → BitVec 12 := fun n => 1 <<< n
    causeOf t = if t.getLsbD causePor then one causePor else if t.getLsbD causeBor then one causeBor
      else if t.getLsbD causePin then one causePin else if t.getLsbD causeThermal then one causeThermal
      else if t.getLsbD causeGeodeSafe then one causeGeodeSafe else if (t &&& 0x070) ≠ 0 then t &&& 0x070
      else if t.getLsbD causeChain then one causeChain else if t.getLsbD causeSoft then one causeSoft
      else one causeHibWake := rfl

/-- Settles O45: a merged trigger sets its bit of the held reset, and the end writes the first kind of the order and the history of
all. -/
theorem resetCausesMerge : Obligations.ResetCausesMerge := by
  unfold Obligations.ResetCausesMerge
  refine ⟨fun s n small held => ?merge, fun x s ends => ?finish⟩
  case merge =>
    rw [s.trigger_of_held n held]
    exact ⟨held, rfl, fun k _ => getLsbD_putBit_true s.sys.trig small k⟩
  case finish =>
    have ended := s.endReset_endedAs x
    refine ⟨s.endReset x, execResetEnd_of_mayEnd s x ends, fun k triggered => ?_, ?_⟩
    · rw [ended.seen, BitVec.getLsbD_or, triggered, Bool.or_true]
    · exact ended.cause.trans (causeOf_eq s.sys.trig)

/-! ### R78: the conditions in the words of the tables -/

theorem coldTrig_iff (t : BitVec 12) : coldTrig t = true ↔ t.getLsbD causePor = true ∨ t.getLsbD causeBor = true :=
  Bool.or_eq_true_iff

theorem State.forgets_iff : s.forgets = true ↔
    (s.sys.trig.getLsbD causePor = true ∨ s.sys.trig.getLsbD causeBor = true) ∨ s.sys.forgetting = true := by
  rw [State.forgets, Bool.or_eq_true, coldTrig_iff]

/-- The kinds of Table 04-7 that restart the PLL, and a loss of it. -/
theorem Sys.restarts_iff (y : Sys) : y.restarts = true ↔ (y.trig &&& 0xC0E) ≠ 0 ∨ y.trigPll = true := by
  rw [Sys.restarts, Bool.or_eq_true, decide_eq_true_iff, restartKinds]

/-- MODE as the end finds it: sampled now, where the kind asks for it and NRST's rise has not done so. -/
theorem State.strapped_mode (x : Straps) (still : x.changing = 0) : (s.strapped x).sys.mode =
    if ((s.sys.trig &&& 0xC0E) ≠ 0 ∨ s.sys.trigPll = true) ∧ s.sys.strapsTaken = false then x.mode else s.sys.mode := by
  have asked : (s.sys.restarts && !s.sys.strapsTaken) = true ↔
      ((s.sys.trig &&& 0xC0E) ≠ 0 ∨ s.sys.trigPll = true) ∧ s.sys.strapsTaken = false := by
    rw [Bool.and_eq_true, Sys.restarts_iff, Bool.not_eq_true']
  by_cases h : (s.sys.restarts && !s.sys.strapsTaken) = true
  · rw [State.strapped, if_pos h, if_pos (asked.mp h), s.sampleStraps_of_still x still]
  · rw [State.strapped, if_neg h, if_neg (mt asked.mpr h)]

/-- Sampling leaves OTP, so a forced role stands. -/
theorem State.strapped_roleCode (x : Straps) : (s.strapped x).roleCode =
    if s.otp.roleCfg.getLsbD 2 then s.otp.roleCfg.extractLsb' 0 2 else (s.strapped x).sys.mode := by
  obtain ⟨_, _, _, _, e⟩ := s.strapped_leaves x
  simp only [State.roleCode, e]

/-- Table 01-3 and R2: the role that a code gives, and whether it is refused. -/
theorem roleOf_eq : ∀ (wq : Bool) (code : BitVec 2), roleOf wq code =
    (if code = 1 ∨ code = 3 ∨ wq = true then Role.worker else if code = 0 then .standalone else .manager,
      decide (code ≠ 1 ∧ (code = 3 ∨ wq = true))) := by decide

/-- The epoch number after a reset (Table 04-16): a POR or a BOR forgets it whatever else the reset forgets. -/
theorem State.epochAfter_eq (r : Role) :
    (if r == .worker || coldTrig s.sys.trig then 0 else ((if s.forgets then 0 else s.sys.epochAtReset) + 1) % 2 ^ 32) =
      if r = .worker ∨ s.sys.trig.getLsbD causePor = true ∨ s.sys.trig.getLsbD causeBor = true then 0
      else ((if s.sys.forgetting then 0 else s.sys.epochAtReset) + 1) % 2 ^ 32 := by
  by_cases cold : coldTrig s.sys.trig = true
  · rw [if_pos (by rw [cold, Bool.or_true]), if_pos (Or.inr ((coldTrig_iff _).mp cold))]
  · have forgets : s.forgets = s.sys.forgetting := by rw [State.forgets, Bool.eq_false_iff.mpr cold, Bool.false_or]
    rw [forgets]
    exact if_congr (by rw [Bool.or_eq_true, beq_iff_eq, coldTrig_iff]) rfl rfl

section
variable (y : Sys)

/-- A kind that restarts the PLL begins at the reference check. -/
theorem Sys.clkAtEnd_of_restarts (h : y.restarts = true) : y.clkAtEnd = .refCheck := if_pos h

/-- Any other kind leaves a clock that runs, or a PLL that is locked, as it is, and begins anew from any other state. -/
theorem Sys.clkAtEnd_of_not_restarts (h : ¬y.restarts = true) :
    y.clkAtEnd = if y.clk = .running then .running else if y.clk = .locked then .locked else .refCheck := by
  rw [Sys.clkAtEnd, if_neg h]
  cases y.clk <;> rfl

end

/-- Settles O35: the conditions of the end, the two events that bring it, and then what it writes, field by field. -/
theorem resetEnds : Obligations.ResetEnds := by
  unfold Obligations.ResetEnds
  refine ⟨fun x s => execResetEnd_of_not s x, fun x s => execNrstRise_of_high s x, fun x s => execNrstRise_of_low s x,
    fun x s => s.sampleStraps_of_still x, State.mayEnd_iff, fun x s ends still => ?_⟩
  intro k cold forget restart tap mode code role
  have ended := s.endReset_endedAs x
  have forgets : s.forgets = true ↔ forget := s.forgets_iff
  have restarts : s.sys.restarts = true ↔ restart := s.sys.restarts_iff
  have isCold : coldTrig k = true ↔ cold := coldTrig_iff k
  have isTap : (s.lc == .develop || s.lc == .ret) = true ↔ tap := by rw [Bool.or_eq_true, beq_iff_eq, beq_iff_eq]
  have sampled : (s.strapped x).sys.mode = mode := s.strapped_mode x still
  have given : (s.strapped x).roleCode = code := by rw [s.strapped_roleCode, sampled]
  have roles := ended.role
  rw [given, roleOf_eq] at roles
  obtain ⟨isRole, isRefused⟩ := Prod.mk.inj roles
  refine ⟨s.endReset x, execResetEnd_of_mayEnd s x ends, ended.held, ended.trig, ended.mode.trans sampled, isRole, ?refused,
    ended.cause, fun f => ?seenCut, fun f => ?seenKept, fun f => ?countCut, fun f => ?countKept, ?epoch, fun r => ?refCheck,
    fun r c => ?running, fun r c => ?locked, fun r c d => ?unlocked, ?tapOn, fun on warm => ?cells, fun off => ?noCells,
    ended.wdg, ended.therm, ended.otp, ended.flash, ended.cmd, ended.conv, ended.path⟩
  case refused => rw [isRefused, decide_eq_true_iff]
  case seenCut => exact ended.seen.trans (by rw [if_pos (forgets.mpr f)]; exact BitVec.zero_or)
  case seenKept => rw [ended.seen, if_neg (mt forgets.mp f)]
  case countCut => rw [ended.count, if_pos (forgets.mpr f)]; rfl
  case countKept => rw [ended.count, if_neg (mt forgets.mp f)]
  case epoch => exact (ended.epoch.trans (by rw [isRole])).trans (s.epochAfter_eq role)
  case refCheck => rw [ended.clk, Sys.clkAtEnd_of_restarts _ (restarts.mpr r)]
  case running =>
    have clk := (s.sys.clkAtEnd_of_not_restarts (mt restarts.mp r)).trans (if_pos c)
    exact ⟨ended.clk.trans clk, ended.stage clk⟩
  case locked =>
    rw [ended.clk, s.sys.clkAtEnd_of_not_restarts (mt restarts.mp r), if_neg (by rw [c]; decide), if_pos c]
  case unlocked => rw [ended.clk, s.sys.clkAtEnd_of_not_restarts (mt restarts.mp r), if_neg c, if_neg d]
  case tapOn => rw [ended.tap, isTap]
  case cells =>
    rw [ended.cells, if_pos]
    rw [Bool.and_eq_true, Bool.not_eq_true', ← Bool.not_eq_true]
    exact ⟨mt isCold.mp warm, isTap.mpr on⟩
  case noCells =>
    rw [ended.cells, if_neg]
    rw [Bool.and_eq_true, Bool.not_eq_true', ← Bool.not_eq_true]
    rintro ⟨warm, on⟩
    exact off.elim (· (isTap.mp on)) fun c => warm (isCold.mpr c)

end
end Sys2Proof.Machine
end

section
/-!
PROOF. O34: what the entry of a reset returns to its reset value, what it keeps, and the balls while it is held (R29, R70, R76, R86,
R87).
-/
namespace Sys2Proof.Machine

variable (s : State)

/-! ### Writes that still cross to the always-on domain (R70) -/

/-- Cutting a crossing takes at most a free bit. -/
theorem State.cutCrossing_leaves {α : Type} (x : Option (Nat × α)) (now : α) :
    ∃ n, (s.cutCrossing x now).2 = { s with freeCtr := n } := by
  unfold State.cutCrossing
  split
  · exact ⟨s.freeCtr, rfl⟩
  · split
    · exact ⟨s.freeCtr, rfl⟩
    · exact ⟨s.freeCtr + 1, rfl⟩

/-- The register keeps the value before the write or takes the written one; with more than an LFRC period left, the write is lost. -/
theorem State.cutCrossing_some {α : Type} (n : Nat) (old now : α) :
    ((s.cutCrossing (some (n, old)) now).1 = old ∨ (s.cutCrossing (some (n, old)) now).1 = now) ∧
      (80 < n → (s.cutCrossing (some (n, old)) now).1 = old) := by
  by_cases far : 80 < n
  · have lost : (s.cutCrossing (some (n, old)) now).1 = old := by simp only [State.cutCrossing, if_pos far]
    exact ⟨Or.inl lost, fun _ => lost⟩
  · have free : (s.cutCrossing (some (n, old)) now).1 = if s.takeBit.1 then old else now := by
      simp only [State.cutCrossing, if_neg far]
    refine ⟨?_, fun h => absurd h far⟩
    rw [free]
    split
    · exact Or.inl rfl
    · exact Or.inr rfl

/-- What a register holds after its crossing was cut: the written value where none was crossing. -/
def Cut {α : Type} (x : Option (Nat × α)) (now after : α) : Prop :=
  (x = none → after = now) ∧ ∀ n old, x = some (n, old) → (after = old ∨ after = now) ∧ (80 < n → after = old)

theorem State.cutCrossing_cut {α : Type} (x : Option (Nat × α)) (now : α) : Cut x now (s.cutCrossing x now).1 := by
  refine ⟨fun e => ?_, fun n old e => ?_⟩
  · rw [e]
    rfl
  · rw [e]
    exact s.cutCrossing_some n old now

/-- The state in which nothing crosses any more: the two registers, and the count of free bits after the cuts. -/
def State.cutTo (s : State) (seen : BitVec 12) (wake : WakeCfg) (n : Nat) : State :=
  { s with sys := { s.sys with seen := seen, wake := wake, crossSeen := none, crossWake := none }, freeCtr := n }

/-- Both crossings are cut, and nothing else changes but the count of free bits. -/
theorem State.cutCrossings_leaves : ∃ seen wake n, s.cutCrossings = s.cutTo seen wake n ∧
      Cut s.sys.crossSeen s.sys.seen seen ∧ Cut s.sys.crossWake s.sys.wake wake := by
  let first := s.cutCrossing s.sys.crossSeen s.sys.seen
  let second := first.2.cutCrossing s.sys.crossWake s.sys.wake
  obtain ⟨m, e⟩ : ∃ m, first.2 = { s with freeCtr := m } := s.cutCrossing_leaves ..
  obtain ⟨n, d⟩ : ∃ n, second.2 = { first.2 with freeCtr := n } := first.2.cutCrossing_leaves ..
  have cuts : s.cutCrossings =
      second.2.modSys fun y => { y with seen := first.1, wake := second.1, crossSeen := none, crossWake := none } := rfl
  refine ⟨first.1, second.1, n, ?_, s.cutCrossing_cut .., first.2.cutCrossing_cut ..⟩
  rw [cuts, d, e]
  rfl

/-! ### The entry -/

/-- The entry on a die whose Geode has no operation in progress, written over what the cut crossings left. -/
def State.enterReset (c : State) (t : BitVec 12) (epoch : Nat) : State :=
  (c.wipe (t.getLsbD causeThermal)).modSys fun y =>
    { y with
      trigPending := 0
      held := true
      trig := t
      ready := 0x0001
      epochAtReset := if y.hibernate then y.epochAtReset else if y.forgetting then 0 else epoch
      cells := if coldTrig t then none else y.cells
      safeLow := true
      power := .run
      hibernate := false
      hung := none
      coreHung := none
      waking := false
      wakeLatched := false
      wakeLeft := 0
      strapsTaken := false
      entering := none
      lfrcMeas := 0 }

/-- Nothing to recognise, or a reset held already. -/
theorem execResetEntry_of_not (h : s.sys.held = true ∨ s.sys.trigPending = 0) : execResetEntry s = .next s :=
  if_pos (by simpa only [Bool.or_eq_true, decide_eq_true_eq] using h)

theorem execResetEntry_of_trigger (held : s.sys.held = false) (trig : s.sys.trigPending ≠ 0) (op : s.flash.op = .none) :
    execResetEntry s = .next (s.cutCrossings.enterReset s.sys.trigPending s.time.epoch) := by
  have idle : s.interruptFlash = s := by simp only [State.interruptFlash, op]
  have event : execResetEntry s = .next (s.interruptFlash.cutCrossings.enterReset s.sys.trigPending s.time.epoch) :=
    if_neg (by simpa only [held, Bool.false_or, decide_eq_true_eq] using trig)
  rw [event, idle]

/-- Without an operation in progress the flash keeps all but the staging buffer. -/
theorem State.enterReset_flash {t : BitVec 12} {epoch : Nat} (op : s.flash.op = .none) :
    (s.enterReset t epoch).flash = { s.flash with staging := [] } :=
  (congrArg (fun o => ({ s.flash with op := o, staging := [] } : Flash)) op).symm

/-- A thermal shutdown is held on, over the configuration it was made with (R390). -/
theorem State.enterReset_of_thermal {t : BitVec 12} {epoch : Nat} (h : t.getLsbD causeThermal = true) :
    (s.enterReset t epoch).therm.shutdown = true ∧ (s.enterReset t epoch).therm.body = s.therm.body := by
  have therm : (s.enterReset t epoch).therm = { Therm.reset with body := s.therm.body, shutdown := true } := if_pos h
  rw [therm]
  exact ⟨rfl, rfl⟩

theorem State.enterReset_of_not_thermal {t : BitVec 12} {epoch : Nat} (h : t.getLsbD causeThermal = false) :
    (s.enterReset t epoch).therm = Therm.reset := if_neg (by rw [h]; exact Bool.false_ne_true)

/-! ### The balls at reset (Table 02-7) -/

section
variable {t : State} (held : t.sys.held = true)
include held

/-- A ball that an owning block drives is at its reset state. -/
theorem State.owned_of_held (b : Block) (reset mine : Level) : t.owned b reset mine = reset := by
  simp only [State.owned, held, Bool.true_or, if_true]

/-- Without boundary scan the gates are low. -/
theorem State.gates_of_held (cells : t.sys.cells = none) (n : Nat) :
    t.level (.pwmh n) = .low ∧ t.level (.pwml n) = .low ∧ t.level (.bzDrv n) = .low := by
  simp only [State.level, cells, State.owned_of_held held, and_self]

/-- The balls of the other blocks, once SYS alone is ready and no transmitter holds a frame. -/
theorem State.balls_of_held (ready : t.sys.ready = 1) (chain : t.slolos = Slolos.reset) (n : Nat) :
    t.level (.mclk n) = .low ∧ t.level (.canTx n) = .high ∧ t.level (.clDr n) = .highZ ∧ t.level (.clTxd n) = .low ∧
      t.level (.slTx n) = .idle ∧ t.level (.gpio n) = .input := by
  have clasp : t.isReady .clasp = false := by rw [State.isReady, ready]; rfl
  have silent : (if n = 0 then t.slolos.txA else t.slolos.txB) = [] := by rw [chain]; exact ite_self _
  have jumper : t.jumperGpio n = none := by simp only [State.jumperGpio, held, Bool.or_true, if_true]
  simp only [State.level, State.owned_of_held held, State.claspOn, clasp, silent, jumper, Bool.false_and, Bool.false_eq_true, if_false,
    List.isEmpty_nil, Bool.not_true, Bool.and_false, and_self]

/-- The single balls of SYS, CMD and the Pendant link. -/
theorem State.lines_of_held (ready : t.sys.ready = 1) (safe : t.sys.safeLow = true) :
    t.level .safeN = .low ∧ t.level .hsIntn = .released ∧ t.level .hsMiso = .highZ ∧ t.level .pndAlrtn = .released ∧
      t.level .pndDat = .highZ := by
  have pendant : t.pendantOn = false := by
    have : t.isReady .pendant = false := by rw [State.isReady, ready]; rfl
    simp only [State.pendantOn, this, Bool.false_and]
  simp only [State.level, State.owned_of_held held, pendant, safe, Bool.false_and, Bool.false_eq_true, if_true, if_false, and_self]

end

/-! ### The statement -/

/-- Settles O34: the entry is the wipe of every block over the cut crossings, whose fields are read off, and the balls follow from the
reset being held. -/
theorem resetEntryClearsTheBlocks : Obligations.ResetEntryClearsTheBlocks := by
  unfold Obligations.ResetEntryClearsTheBlocks
  refine ⟨execResetEntry_of_not, fun s held trig op => ?_⟩
  obtain ⟨seen, wake, n, cut, ⟨seenStands, seenCut⟩, ⟨wakeStands, wakeCut⟩⟩ := s.cutCrossings_leaves
  have event := execResetEntry_of_trigger s held trig op
  rw [cut] at event
  obtain ⟨safe, interrupt, miso, alert, data⟩ :=
    State.lines_of_held (t := (s.cutTo seen wake n).enterReset s.sys.trigPending s.time.epoch) rfl rfl rfl
  exact ⟨_, event,
    -- the reset itself and the low-power states
    rfl, rfl, rfl, rfl, rfl, rfl, rfl, rfl, rfl, rfl, rfl,
    -- the always-on domain
    rfl, rfl, rfl, seenStands, wakeStands, seenCut, wakeCut, rfl, rfl, rfl, rfl,
    -- the blocks
    rfl, State.enterReset_flash _ op, rfl, rfl, rfl, rfl, rfl, rfl, rfl, rfl, rfl, rfl, rfl, rfl, rfl,
    -- the balls
    State.gates_of_held rfl, State.balls_of_held rfl rfl rfl, safe, interrupt, miso, alert, data,
    -- the thermal block
    State.enterReset_of_thermal _, State.enterReset_of_not_thermal _⟩

end Sys2Proof.Machine
end

section
/-!
PROOF. O37: readiness, the wakes and the ends of the low-power states, and JTAG (R35, R65, R80 to R85), one equation per event.
-/
namespace Sys2Proof.Machine

variable (s : State)

/-! ### Readiness (R65) -/

/-- A block that can become ready does, with what its start entails; the last of CMD and CONV ends the leaving of STANDBY. -/
theorem execBlockReady_eq (b : Block) :
    let t := s.modSys fun y => { y with ready := y.ready.putBit b.index true }
    let u := if b = .conv ∨ b = .prot then t.armDflt
      else if b = .slolos ∧ s.isManager = true then t.wakeWorkers
      else if b = .clasp then t.claspReady else t
    execBlockReady b s = .next (if s.sys.clk = .running ∧ s.sys.held = false ∧ s.isReady b = false ∧ s.canReady b = true then
      (if u.sys.power = .leaving ∧ u.isReady .cmd = true ∧ u.isReady .conv = true then u.modSys fun y => { y with power := .run }
        else u)
      else s) := by
  intro t u
  have started : (if b == .conv || b == .prot then t.armDflt
      else if b == .slolos && s.isManager then t.wakeWorkers
      else if b == .clasp then t.claspReady else t) = u := by
    simp only [u, Bool.or_eq_true, Bool.and_eq_true, beq_iff_eq]
  have left : (if u.sys.power == .leaving && u.isReady .cmd && u.isReady .conv then u.modSys fun y => { y with power := .run }
      else u) = if u.sys.power = .leaving ∧ u.isReady .cmd = true ∧ u.isReady .conv = true then
        u.modSys fun y => { y with power := .run } else u := by
    simp only [Bool.and_eq_true, beq_iff_eq, and_assoc]
  rw [← left, ← started]
  exact next_ite (by simp only [Bool.and_eq_true, beq_iff_eq, Bool.not_eq_true', and_assoc]) _ _

/-! ### The wake latch (R80, R84) -/

/-- The latch takes a wake under its condition, and holds one that it has. -/
theorem State.latchWake_eq (c : Bool) : s.latchWake c = s.modSys fun y => { y with wakeLatched := y.wakeLatched || c } := by
  cases c with
  | true => simp only [State.latchWake, if_true, Bool.or_true]
  | false => simp only [State.latchWake, Bool.false_eq_true, if_false, Bool.or_false]; rfl

/-- Under a condition that a statement spells out. -/
theorem State.latchWake_ite {c : Bool} {d : Prop} [Decidable d] (h : c = true ↔ d) :
    s.latchWake c = if d then s.modSys fun y => { y with wakeLatched := true } else s :=
  if_congr h rfl rfl

/-- STANDBY, with or without a service wake. -/
theorem Sys.inStandby_iff (y : Sys) : (y.power == .standby || y.power == .serviceWake) = true ↔ y.power = .standby ∨ y.power = .serviceWake := by
  simp only [Bool.or_eq_true, beq_iff_eq]

theorem execWakeInput_eq (n : Nat) (v : Bool) :
    execWakeInput n v s = .next (s.modSys fun y =>
      { y with
        wakePins := y.wakePins.putBit n v
        wakeLatched := y.wakeLatched || (s.asleep && decide (n < 4) && y.wake.enable.getLsbD n && y.wake.level.getLsbD n == v) }) := by
  simp only [execWakeInput, State.latchWake_eq]
  rfl

theorem execWakeTimerExpired_eq :
    execWakeTimerExpired s = .next (if s.asleep = true ∧ s.sys.wakeLeft ≠ 0 then
      s.modSys fun y => { y with wakeLeft := 0, wakeLatched := true } else s) :=
  next_ite (by simp only [Bool.and_eq_true, decide_eq_true_eq]) _ _

theorem execHsCsnWake_eq :
    execHsCsnWake s = .next (if (s.sys.power = .standby ∨ s.sys.power = .serviceWake) ∧ s.sys.wake.csn = true then
      s.modSys fun y => { y with wakeLatched := true } else s) :=
  congrArg _ (s.latchWake_ite (by rw [Bool.and_eq_true, Sys.inStandby_iff]))

/-- A worker that detects the burst also toggles SLB (Table 13-8, step 2). -/
theorem execSlolosWakeDetected_eq :
    execSlolosWakeDetected s =
      .next (if (s.sys.power = .standby ∨ s.sys.power = .serviceWake) ∧ s.sys.wake.slolos = true ∧ s.isWorker = true then
        (s.modSys fun y => { y with wakeLatched := true }).sendB .toggle else s) :=
  next_ite (by rw [Bool.and_eq_true, Bool.and_eq_true, Sys.inStandby_iff, and_assoc]) _ _

/-! ### The ends of the low-power states (R83 to R85) -/

/-- The state in which STANDBY is left, before the commands of passed epochs end. -/
theorem execStandbyWake_of_wake (power : s.sys.power = .standby) (wake : s.sys.wakeLatched = true) (held : s.sys.held = false) :
    execStandbyWake s = .next ({ s with
      sys := { s.sys with power := .leaving, wakeLatched := false, wakeLeft := 0, waking := true, clk := .refCheck }
      time := { s.time with wordNow := s.time.wordNow ||| 0x40, tick := 0 }
      slolos := { s.slolos with
        portA := .off, portB := .off, enumActive := false, verifyDue := s.isManager && s.slolos.workers ≠ 0 } }.endWaiting
        (fun f => (s.time.epoch + 2 ^ 32 - f.epoch) % 2 ^ 32 < 2 ^ 31) stTooLate) :=
  if_pos (by simp only [power, wake, held, beq_self_eq_true, Bool.not_false, Bool.and_self])

theorem execStandbyWake_of_no_wake (h : ¬(s.sys.power = .standby ∧ s.sys.wakeLatched = true ∧ s.sys.held = false)) :
    execStandbyWake s = .next s :=
  if_neg (by simpa only [Bool.and_eq_true, beq_iff_eq, Bool.not_eq_true', and_assoc] using h)

theorem execHibWake_eq :
    execHibWake s = .next (if s.sys.hibernate = true ∧ s.sys.wakeLatched = true ∧ s.sys.suppliesOk = true then
      s.trigger causeHibWake else s) :=
  next_ite (by simp only [Bool.and_eq_true, and_assoc]) _ _

theorem execServiceWake_eq :
    execServiceWake s =
      .next (if s.sys.power = .standby ∧ s.sys.held = false ∧ s.wdg.clkLfrc = true ∧ s.wdg.openTick ≤ s.wdg.count then
        s.modSys fun y => { y with power := .serviceWake, waking := true, clk := .refCheck } else s) :=
  next_ite (by simp only [Bool.and_eq_true, beq_iff_eq, Bool.not_eq_true', decide_eq_true_eq, and_assoc]) _ _

theorem execServiceWakeReturn_eq :
    execServiceWakeReturn s =
      .next (if s.sys.power = .serviceWake ∧ s.sys.held = false ∧ s.wdg.count < s.wdg.openTick then s.modSys Sys.sleep else s) :=
  next_ite (by simp only [Bool.and_eq_true, beq_iff_eq, Bool.not_eq_true', decide_eq_true_eq, and_assoc]) _ _

/-! ### JTAG (R35, R36) -/

theorem execJtagInstruction_eq (x : Option Cells) :
    execJtagInstruction x s =
      .next (if s.sys.tapOn = true ∧ s.sys.hibernate = false ∧ s.sys.supplies.getLsbD 1 = true then
        s.modSys fun y => { y with cells := x } else s) :=
  next_ite (by simp only [Bool.and_eq_true, Bool.not_eq_true', and_assoc]) _ _

/-- The cells in force drive the gate and pass-FET balls. -/
theorem State.level_of_cells {x : Cells} (h : s.sys.cells = some x) (n : Nat) :
    s.level (.pwmh n) = .driven (x.pwmh.getLsbD n) ∧ s.level (.pwml n) = .driven (x.pwml.getLsbD n) ∧
      s.level (.bzDrv n) = .driven (x.bz.getLsbD n) := by
  simp only [State.level, h, and_self]

/-! ### The statement -/

/-- Settles O37, event by event: each clause is the equation of its event, and the last the balls under boundary scan. -/
theorem readinessAndWakes : Obligations.ReadinessAndWakes := by
  unfold Obligations.ReadinessAndWakes
  exact ⟨fun b s => execBlockReady_eq s b, fun n v s => execWakeInput_eq s n v, execWakeTimerExpired_eq, execHsCsnWake_eq,
    execSlolosWakeDetected_eq, execStandbyWake_of_wake, execStandbyWake_of_no_wake, execHibWake_eq, execServiceWake_eq,
    execServiceWakeReturn_eq, fun x s => execJtagInstruction_eq s x, fun _ s n h => s.level_of_cells h n⟩

end Sys2Proof.Machine
end

section
/-!
PROOF. O39: accesses to stopped blocks (R70 to R74), debug halt (R407) and the application core's writes through the fence (R11, R97).
-/
namespace Sys2Proof.Machine

variable (s : State)

/-! ### Accesses that wait -/

/-- Without the clocks, or in a reset, every access waits on. -/
theorem execHungAccessComplete_of_stopped (h : s.sys.clk ≠ .running ∨ s.sys.held = true) : execHungAccessComplete s = .next s :=
  if_pos (by simpa only [Bool.or_eq_true, bne_iff_ne] using h)

/-- With the clocks running, the SPI access comes first, then the core's. -/
theorem execHungAccessComplete_of_running (clk : s.sys.clk = .running) (held : s.sys.held = false) :
    execHungAccessComplete s = match s.completable s.sys.hung, s.completable s.sys.coreHung with
      | some h, _ => .next ((s.completeAccess h).modSys fun y => { y with hung := none })
      | none, some h => .next ((s.completeAccess h).modSys fun y => { y with coreHung := none }).unstall
      | none, none => .next s :=
  if_neg (by simp only [clk, held, bne_self_eq_false, Bool.or_self, Bool.false_eq_true, not_false_eq_true])

/-- The clock of a block other than Slolos returns with the clocks, that of Slolos with its ports (R71). -/
theorem State.clockReturned_iff (b : Block) : s.clockReturned b = true ↔ b ≠ .slolos ∨ s.blockRuns b = true := by
  simp only [State.clockReturned, Bool.or_eq_true, bne_iff_ne]

/-- An access on a block whose clock has returned is carried out. -/
theorem State.completable_of_back {h : Option Hung} {x : Hung} (e : h = some x) (back : x.block ≠ .slolos ∨ s.blockRuns x.block = true) :
    s.completable h = some x := by
  rw [e, State.completable, Option.filter_some, if_pos ((s.clockReturned_iff _).mpr back)]

/-- Any other waits on. -/
theorem State.completable_of_not_back {h : Option Hung}
    (away : ∀ x, h = some x → ¬(x.block ≠ .slolos ∨ s.blockRuns x.block = true)) : s.completable h = none := by
  cases h with
  | none => rfl
  | some x => rw [State.completable, Option.filter_some, if_neg (mt (s.clockReturned_iff _).mp (away x rfl))]

/-- In SCRAPPED a write that waited is refused (R146). -/
theorem State.completeAccess_of_scrapped {x : Hung} {v : Nat} (write : x.write = some v) (lc : s.lc = .scrapped) :
    s.completeAccess x = s.refuseWrite := by
  simp only [State.completeAccess, write, lc, beq_self_eq_true, if_true]

/-! ### Block restarts -/

/-- The sequence that a block begins anew when it restarts: Slolos's ports, the Clasp ports, MEAS's calibration, THERM's first read. -/
def State.beginAnew (s : State) : Block → State
  | .slolos => (s.modSlolos Slolos.halt).repliesGone
  | .clasp => s.claspStart
  | .meas => s.modMeas Meas.halt
  | .therm => s.modTherm Therm.start
  | _ => s

/-- SYS is served by the always-on domain, and a die without clocks or in reset restarts no block. -/
theorem execBlockRestart_of_not {b : Block} (h : b = .sys ∨ s.sys.clk ≠ .running ∨ s.sys.held = true) :
    execBlockRestart b s = .next s :=
  if_pos (by simpa only [Bool.or_eq_true, beq_iff_eq, bne_iff_ne, or_assoc] using h)

/-- READY clears, the sequence begins anew, and the accesses that wait on the block end. -/
theorem execBlockRestart_of_running {b : Block} (other : b ≠ .sys) (clk : s.sys.clk = .running) (held : s.sys.held = false) :
    let u := (s.setReady b false).beginAnew b
    let t := if waitsOn s.sys.hung b then u.modSys fun y => { y with hung := none } else u
    execBlockRestart b s =
      .next (if waitsOn s.sys.coreHung b then (t.modSys fun y => { y with coreHung := none }).unstall else t) := by
  have runs : ¬(b == .sys || s.sys.clk != .running || s.sys.held) = true := by
    simp only [clk, held, bne_self_eq_false, Bool.or_false, beq_iff_eq]
    exact other
  intro u t
  rw [execBlockRestart, if_neg runs]
  cases b <;> rfl

/-! ### Debug halt -/

/-- The core is halted in DEVELOP and RETURN only, and with its clock. -/
theorem execDebugHalt_of_not {v : Bool} (h : ¬(s.lc = .develop ∨ s.lc = .ret) ∨ s.sys.clk ≠ .running ∨ s.sys.held = true) :
    execDebugHalt v s = .next s :=
  if_pos (by simpa only [Bool.or_eq_true, Bool.not_eq_true', ← Bool.not_eq_true, beq_iff_eq, bne_iff_ne, or_assoc] using h)

theorem execDebugHalt_of_permitted {v : Bool} (lc : s.lc = .develop ∨ s.lc = .ret) (clk : s.sys.clk = .running)
    (held : s.sys.held = false) :
    execDebugHalt v s =
      if v then .next ((s.modTime fun t => { t with debugHalt := true, wordNow := t.wordNow ||| 0x20 }).modGeode fun g =>
        { g with stalled := true })
      else .next (if s.sys.coreHung.isSome then s.modTime fun t => { t with debugHalt := false }
        else (s.modTime fun t => { t with debugHalt := false }).unstall) := by
  have permitted : ¬(!(s.lc == .develop || s.lc == .ret) || s.sys.clk != .running || s.sys.held) = true := by
    rcases lc with lc | lc <;>
      simp only [lc, clk, held, beq_self_eq_true, Bool.true_or, Bool.or_true, Bool.not_true, bne_self_eq_false, Bool.or_self,
        Bool.false_eq_true, not_false_eq_true]
  exact if_neg permitted

/-! ### The core's writes to registers -/

/-- A core that does not run writes nothing. -/
theorem execAppCoreActuatorWrite_of_not (a : Nat) (w : CoreWrite) (h : s.coreRuns = false) :
    execAppCoreActuatorWrite a w s = .next s :=
  if_pos (by rw [h]; rfl)

theorem execAppCoreActuatorWrite_register (a v : Nat) (h : s.coreRuns = true) :
    execAppCoreActuatorWrite a (.register v) s = .next (s.coreRegister a v) :=
  if_neg (by rw [h]; exact Bool.false_ne_true)

theorem execAppCoreActuatorWrite_actuator (k : Nat) (x : Actuator) (h : s.coreRuns = true) :
    execAppCoreActuatorWrite k (.actuator x) s = .next (s.writeActuator k x) :=
  if_neg (by rw [h]; exact Bool.false_ne_true)

section
variable {s} {a v : Nat}

/-- A number that names no block. -/
theorem coreRegister_of_none (e : blockOf (windowAddress a / 2 ^ 16) = none) : s.coreRegister a v = s := by
  simp only [State.coreRegister, e]

/-- The fence: the Geode's registers are not the core's to write (R11). -/
theorem coreRegister_of_geode (e : blockOf (windowAddress a / 2 ^ 16) = some .geode) : s.coreRegister a v = s.discardWrite := by
  simp only [State.coreRegister, e]

/-- Any other block: ignored where it is fused, stalling the core where it is stopped, carried out where it runs. -/
theorem coreRegister_of_ne_geode {b : Block} (e : blockOf (windowAddress a / 2 ^ 16) = some b) (other : b ≠ .geode) :
    s.coreRegister a v =
      if s.fused b then s
      else if !s.blockRuns b then
        (s.modSys fun y => { y with coreHung := some { block := b, address := windowAddress a, write := some (v % 2 ^ 32) } }).modGeode
          fun g => { g with stalled := true }
      else (s.writeReg b (windowAddress a % 2 ^ 16) (v % 2 ^ 32)).getD s := by
  cases b with
  | geode => exact absurd rfl other
  | _ => simp only [State.coreRegister, e]

end

/-! ### A lane target through the fence (R97) -/

/-- A value brought into the range from 0 to a limit is the smaller of both. -/
theorem toNat_clampInt_zero (m v : Nat) : (clampInt 0 (m : Int) (v : Int)).toNat = Nat.min v m := by
  have low : ¬((v : Int) < 0) := by omega
  rw [clampInt, if_neg low]
  split
  · exact (Int.toNat_natCast m).trans (Nat.min_eq_right (by omega)).symm
  · exact (Int.toNat_natCast v).trans (Nat.min_eq_left (by omega)).symm

/-- The count of clamps writes the Geode's statistics only, not the certificate in force. -/
theorem State.countClamps_leaves (cls n : Nat) : ∃ g, s.countClamps cls n = { s with geode := g } ∧ g.cert = s.geode.cert := by
  unfold State.countClamps
  split
  · exact ⟨s.geode, rfl, rfl⟩
  · exact ⟨_, rfl, rfl⟩

theorem State.clampTo_leaves (cls : Nat) (v : Int) (range : List Byte → Int × Int) :
    ∃ g, (s.clampTo cls v range).2 = { s with geode := g } ∧ g.cert = s.geode.cert := by
  unfold State.clampTo
  split
  next b limits =>
    show ∃ g, (if clampInt (range b).1 (range b).2 v = v then s else s.countClamps cls 1) = { s with geode := g } ∧ _
    split
    · exact ⟨s.geode, rfl, rfl⟩
    · exact s.countClamps_leaves cls 1
  next => exact ⟨s.geode, rfl, rfl⟩

theorem State.clampMax_leaves (cls v : Nat) (f : List Byte → Nat) :
    ∃ g, (s.clampMax cls v f).2 = { s with geode := g } ∧ g.cert = s.geode.cert :=
  s.clampTo_leaves ..

@[simp] theorem State.clampMax_conv (cls v : Nat) (f : List Byte → Nat) : (s.clampMax cls v f).2.conv = s.conv := by
  obtain ⟨g, e, -⟩ := s.clampMax_leaves cls v f
  rw [e]

@[simp] theorem State.clampMax_limits (cls v : Nat) (f : List Byte → Nat) : (s.clampMax cls v f).2.limits = s.limits := by
  obtain ⟨g, e, cert⟩ := s.clampMax_leaves cls v f
  simp only [e, State.limits, cert]
  rfl

/-- The value that the fence lets through: at most the limit, or the value itself where none is in force (R100). -/
theorem State.clampMax_fst (cls v : Nat) (f : List Byte → Nat) :
    (s.clampMax cls v f).1 = (s.limits.map fun b => Nat.min v (f b)).getD v := by
  cases e : s.limits with
  | none => simp only [State.clampMax, State.clampTo, e, Option.map_none, Option.getD_none, Int.toNat_natCast]
  | some b => simp only [State.clampMax, State.clampTo, e, Option.map_some, Option.getD_some, toNat_clampInt_zero]

/-- The limit of a lane's current: the input's in a boost lane, the output's in any other. -/
def Lane.certAmps (l : Lane) (k : Nat) (b : List Byte) : Nat := if l.fn = .boost then certIboost b k else certIcharge b k

theorem State.clampAmps_fst (k i : Nat) : (s.clampAmps k i).1 = (s.limits.map fun b => Nat.min i ((s.lane k).certAmps k b)).getD i := by
  by_cases boost : (s.lane k).fn = .boost <;>
    simp only [State.clampAmps, Lane.certAmps, boost, beq_self_eq_true, beq_iff_eq, if_true, if_false, State.clampMax_fst]

@[simp] theorem State.clampAmps_conv (k i : Nat) : (s.clampAmps k i).2.conv = s.conv := by
  unfold State.clampAmps
  split <;> exact s.clampMax_conv ..

/-- The lane aims at what the fence lets through. -/
theorem State.writeActuator_laneTarget (k mv ma : Nat) (h : k < s.conv.lanes.length) :
    (s.writeActuator k (.laneTarget mv ma)).lane k =
      (s.lane k).aim ((s.limits.map fun b => Nat.min mv (certVout b k)).getD mv)
        ((s.limits.map fun b => Nat.min ma ((s.lane k).certAmps k b)).getD ma) := by
  let u := (s.clampMax 1 mv fun b => certVout b k).2
  have lanes : (u.clampAmps k ma).2.conv = s.conv := (u.clampAmps_conv k ma).trans (s.clampMax_conv ..)
  have same : u.lane k = s.lane k := congrArg (·.lane k) (s.clampMax_conv ..)
  calc (s.writeActuator k (.laneTarget mv ma)).lane k
      = (((u.clampAmps k ma).2).lane k).aim (s.clampMax 1 mv fun b => certVout b k).1 (u.clampAmps k ma).1 := by
        exact (State.modLane_lane (u.clampAmps k ma).2 k k _).trans (if_pos ⟨rfl, by rw [lanes]; exact h⟩)
    _ = (s.lane k).aim (s.clampMax 1 mv fun b => certVout b k).1 (u.clampAmps k ma).1 := by
        rw [State.lane, lanes, ← State.lane]
    _ = _ := by rw [State.clampMax_fst, State.clampAmps_fst, same, State.clampMax_limits]

/-! ### The statement -/

/-- Settles O39, clause by clause: each is one of the lemmas above, after the case of its event is chosen. -/
theorem stoppedBlocksAndTheCore : Obligations.StoppedBlocksAndTheCore := by
  unfold Obligations.StoppedBlocksAndTheCore
  refine ⟨execHungAccessComplete_of_stopped, fun s clk held => ?complete, fun s x v => s.completeAccess_of_scrapped,
    fun s b => execBlockRestart_of_not s, fun s b other clk held => ?restart, fun s => ?unstall, fun s v => execDebugHalt_of_not s,
    fun s lc clk held => ?halt, execAppCoreActuatorWrite_of_not, fun s a v runs => ?register, fun s k mv ma runs => ?target⟩
  case complete =>
    intro back
    have event := execHungAccessComplete_of_running s clk held
    refine ⟨fun x e b => ?_, fun x away e b => ?_, fun away coreAway => ?_⟩
    · rw [s.completable_of_back e b] at event
      exact event
    · rw [s.completable_of_not_back away, s.completable_of_back e b] at event
      exact event
    · rw [s.completable_of_not_back away, s.completable_of_not_back coreAway] at event
      exact event
  case restart =>
    intro r u t
    have anew : u = (s.setReady b false).beginAnew b := by cases b <;> rfl
    simp only [t, anew]
    exact execBlockRestart_of_running s other clk held
  case unstall => rfl
  case halt =>
    exact ⟨execDebugHalt_of_permitted s (v := true) lc clk held, execDebugHalt_of_permitted s (v := false) lc clk held⟩
  case register =>
    intro w
    have event := execAppCoreActuatorWrite_register s a v runs
    refine ⟨fun e => ?_, fun e => ?_, fun b e other => ?_⟩
    · exact event.trans (congrArg _ (coreRegister_of_none e))
    · exact event.trans (congrArg _ (coreRegister_of_geode e))
    · rw [coreRegister_of_ne_geode e other] at event
      refine ⟨fun fused => ?_, fun fused stopped => ?_, fun fused running => ?_⟩
      · rw [fused] at event
        exact event
      · rw [fused, stopped] at event
        exact event
      · rw [fused, running] at event
        exact event
  case target =>
    refine ⟨_, execAppCoreActuatorWrite_actuator s k _ runs, fun b limits lane => ?_, fun limits lane => ?_⟩
    · rw [s.writeActuator_laneTarget k mv ma lane, limits]
      rfl
    · rw [s.writeActuator_laneTarget k mv ma lane, limits]
      rfl

end Sys2Proof.Machine
end

section
/-!
PROOF. O15: SET_WAKE, SOFT_RESET and the low-power entries (R80, R81, R85, R127).
-/
namespace Sys2Proof.Machine

/-! ### From what an opcode's `run` answers to the statement about its row -/

/-- A row performs `e` and answers `a` if its opcode, run unscheduled, does so in every state. -/
theorem Performs.of_run {c : Hdr → List Byte → Instr} {o : OpSpec} {e : State → Flight → State} {a : State → Flight → Answer}
    (request : ∀ h p, requestOf (c h p) = some (o, h, p))
    (run : ∀ s f, f.sched = false → o.run s f = (e s f, some (a s f))) : Performs c o e a := by
  intro h p s r
  have unscheduled : (flightOf s o h p).sched = false := r.now
  rw [r.exec (request h p), run _ _ unscheduled]

/-- A row applies `e` at its boundary and leaves the answer open if its opcode, run there, does so; ACCEPTED is the usual
acceptance. -/
theorem AppliesLater.of_run {c : Hdr → List Byte → Instr} {o : OpSpec} {e : State → Flight → State}
    (request : ∀ h p, requestOf (c h p) = some (o, h, p)) (spec : opSpec o.code = some o)
    (accept : o.accept = State.answerAccepted) (run : ∀ s f, o.run s f = (e s f, none)) : AppliesLater c o e := by
  refine ⟨fun h p s w => ?_, fun s f x => ?_⟩
  · rw [w.exec (request h p), accept]
  · rw [x.run spec, run]

/-! ### The low-power entries -/

/-- No reason against the entry: it stays pending until the boundary's actions are done (R81). -/
theorem runLowPower_of_quiescent {s : State} {f : Flight} (hib : Bool) (h : s.lowPowerReasons f = 0) :
    runLowPower hib s f = ((s.dropFlight f.key).modSys fun y => { y with entering := some hib }, none) := by
  simp only [runLowPower, lowPowerCheck, if_pos h, later]

/-- A reason against it: LOWPOWER_ABORTED with the reasons and the epoch. -/
theorem runLowPower_of_busy {s : State} {f : Flight} (hib : Bool) (h : s.lowPowerReasons f ≠ 0) :
    runLowPower hib s f =
      ((s.dropFlight f.key).event 0x7F01 ([BitVec.ofNat 8 (s.lowPowerReasons f)] ++ le 4 s.time.epoch), none) := by
  simp only [runLowPower, lowPowerCheck, if_neg h, later]
  rfl

/-- Both together, as the statement has them. -/
theorem runLowPower_eq (hib : Bool) (s : State) (f : Flight) :
    runLowPower hib s f =
      (if s.lowPowerReasons f = 0 then (s.dropFlight f.key).modSys fun y => { y with entering := some hib }
      else (s.dropFlight f.key).event 0x7F01 ([BitVec.ofNat 8 (s.lowPowerReasons f)] ++ le 4 s.time.epoch), none) := by
  split
  next h => exact runLowPower_of_quiescent hib h
  next h => exact runLowPower_of_busy hib h

/-! ### SOFT_RESET -/

/-- Executed at once, SOFT_RESET triggers its reset and is answered OK. -/
theorem opSoftReset_run_of_unscheduled {s : State} {f : Flight} (h : f.sched = false) :
    opSoftReset.run s f = (s.trigger causeSoft, some [stOk]) := by
  simp only [opSoftReset, h, okay, Bool.false_eq_true, if_false]

/-- At a boundary it triggers its reset and has no completion reply. -/
theorem opSoftReset_run_of_scheduled {s : State} {f : Flight} (h : f.sched = true) :
    opSoftReset.run s f = ((s.dropFlight f.key).trigger causeSoft, none) := by
  simp only [opSoftReset, h, later, if_true]

/-! ### The statement -/

/-- Settles O15, opcode by opcode: what its `run` answers decides both its execution at receipt and that at its boundary. -/
theorem systemOpcodes : Obligations.SystemOpcodes := by
  unfold Obligations.SystemOpcodes
  refine ⟨?setWake, ?softReset, fun s f x sched => ?scheduledReset, ?standby, ?hibernate⟩
  case setWake => exact Performs.of_run (fun _ _ => rfl) fun _ _ _ => rfl
  case softReset => exact Performs.of_run (fun _ _ => rfl) fun _ _ => opSoftReset_run_of_unscheduled
  case scheduledReset => rw [x.run rfl, opSoftReset_run_of_scheduled sched]
  case standby => exact AppliesLater.of_run (fun _ _ => rfl) rfl rfl (runLowPower_eq false)
  case hibernate => exact AppliesLater.of_run (fun _ _ => rfl) rfl rfl (runLowPower_eq true)

end Sys2Proof.Machine
end

section
/-!
PROOF. O6: OTP only gains (R86, R91, R108). Every command keeps a good state, and goodness carries what OTP held before (`Otp.Keeps`).
-/
namespace Sys2Proof.Machine

/-- Every command of a good state leads to a good state: each arm of `exec` has its lemma. -/
theorem goes_exec {o : Otp} {q : List Instr} {s : State} (h : Good o q s) (c : Instr) : Goes o q (exec c s) := by
  cases c with
  | vaonRise => exact goes_execVaonRise h
  | supplyMonitorTrip supply => exact goes_execSupplyMonitorTrip h supply
  | supplyMonitorRelease => exact goes_execSupplyMonitorRelease h
  | nrstLow ns => exact goes_execNrstLow h ns
  | nrstRise straps => exact goes_execNrstRise h straps
  | resetEntry => exact goes_execResetEntry h
  | resetEnd straps => exact goes_execResetEnd h straps
  | referenceCheck edges => exact goes_execReferenceCheck h edges
  | pllLock => exact goes_execPllLock h
  | pllLockTimeout => exact goes_execPllLockTimeout h
  | pllRetryRestart => exact goes_execPllRetryRestart h
  | clockStart => exact goes_execClockStart h
  | blockReady block => exact goes_execBlockReady h block
  | blockRestart block => exact goes_execBlockRestart h block
  | pllLoss => exact goes_execPllLoss h
  | refLoss edges => exact goes_execRefLoss h edges
  | lfrcMeasUpdate ticks => exact goes_execLfrcMeasUpdate h ticks
  | patchCheckDone intact => exact goes_execPatchCheckDone h intact
  | pendingWipeDone => exact goes_execPendingWipeDone h
  | slotSelectionDone => exact goes_execSlotSelectionDone h
  | bootCertLoaded => exact goes_execBootCertLoaded h
  | eupefenRunning => exact goes_execEupefenRunning h
  | execFault => exact goes_execExecFault h
  | appCoreActuatorWrite place write => exact goes_execAppCoreActuatorWrite h place write
  | writePacket transaction => exact goes_execWritePacket h transaction
  | readPacket count => exact goes_execReadPacket h count
  | windowRead address count => exact goes_execWindowRead h address count
  | windowWrite address data => exact goes_execWindowWrite h address data
  | status => exact goes_execStatus h
  | hungAccessComplete => exact goes_execHungAccessComplete h
  | hsCsnWake => exact goes_execHsCsnWake h
  | cmdErrorsRead => exact goes_execCmdErrorsRead h
  | pendantCountRead => exact goes_execPendantCountRead h
  | slolosErrorsRead => exact goes_execSlolosErrorsRead h
  | claspCountRead port => exact goes_execClaspCountRead h port
  | memiStatusRead => exact goes_execMemiStatusRead h
  | memiCorrRead mem => exact goes_execMemiCorrRead h mem
  | timerCapstatRead timer => exact goes_execTimerCapstatRead h timer
  | timerCaptureRead timer => exact goes_execTimerCaptureRead h timer
  | timeSysLoRead => exact goes_execTimeSysLoRead h
  | timerCountLatchRead timer => exact goes_execTimerCountLatchRead h timer
  | timeEpochNumRead => exact goes_execTimeEpochNumRead h
  | timerCompareWrite timer value => exact goes_execTimerCompareWrite h timer value
  | timerPeriodWrite timer value => exact goes_execTimerPeriodWrite h timer value
  | timerCountWrite timer value => exact goes_execTimerCountWrite h timer value
  | measViewHoldWrite hold => exact goes_execMeasViewHoldWrite h hold
  | wdgService key => exact goes_execWdgService h key
  | wdgWindowWrite value => exact goes_execWdgWindowWrite h value
  | malformedPacket origin node bytes => exact goes_execMalformedPacket h origin node bytes
  | undefinedOpcode x opcode p => exact goes_execUndefinedOpcode h x opcode p
  | canFrameReceived controller ident fd bytes => exact goes_execCanFrameReceived h controller ident fd bytes
  | canReassemblyTimeout controller node => exact goes_execCanReassemblyTimeout h controller node
  | canBusOff controller => exact goes_execCanBusOff h controller
  | canBusOffRecovery controller => exact goes_execCanBusOffRecovery h controller
  | echo x p => exact goes_execEcho h x p
  | dieInfo x p => exact goes_execDieInfo h x p
  | cancel x p => exact goes_execCancel h x p
  | eventRoute x p => exact goes_execEventRoute h x p
  | canConfig x p => exact goes_execCanConfig h x p
  | cmdStats x p => exact goes_execCmdStats h x p
  | enterStandby x p => exact goes_execEnterStandby h x p
  | enterHibernate x p => exact goes_execEnterHibernate h x p
  | setWake x p => exact goes_execSetWake h x p
  | softReset x p => exact goes_execSoftReset h x p
  | wakeInput input high => exact goes_execWakeInput h input high
  | wakeTimerExpired => exact goes_execWakeTimerExpired h
  | standbyWake => exact goes_execStandbyWake h
  | hibWake => exact goes_execHibWake h
  | serviceWake => exact goes_execServiceWake h
  | serviceWakeReturn => exact goes_execServiceWakeReturn h
  | epochStatus x p => exact goes_execEpochStatus h x p
  | epochSetLength x p => exact goes_execEpochSetLength h x p
  | epochBoundary => exact goes_execEpochBoundary h
  | policyLate => exact goes_execPolicyLate h
  | markerSend => exact goes_execMarkerSend h
  | marker fromB frame => exact goes_execMarker h fromB frame
  | markerMissed => exact goes_execMarkerMissed h
  | telemetrySlot => exact goes_execTelemetrySlot h
  | telemetryFrame address frame => exact goes_execTelemetryFrame h address frame
  | sumDeadline => exact goes_execSumDeadline h
  | allotmentComputed => exact goes_execAllotmentComputed h
  | allotmentFrame frame => exact goes_execAllotmentFrame h frame
  | allotmentMissed => exact goes_execAllotmentMissed h
  | frameStart lane => exact goes_execFrameStart h lane
  | legTurnOn leg => exact goes_execLegTurnOn h leg
  | decimatorOutput modulator sum => exact goes_execDecimatorOutput h modulator sum
  | brakeEnd lane => exact goes_execBrakeEnd h lane
  | comparatorCrossing cmp upper beyond brief => exact goes_execComparatorCrossing h cmp upper beyond brief
  | crowbarBlankEnd lane => exact goes_execCrowbarBlankEnd h lane
  | crowbarClose lane => exact goes_execCrowbarClose h lane
  | crowbarTimeout lane => exact goes_execCrowbarTimeout h lane
  | dfltInputChange leg high => exact goes_execDfltInputChange h leg high
  | driverFault leg => exact goes_execDriverFault h leg
  | faultFrame fromB frame => exact goes_execFaultFrame h fromB frame
  | laneConfig x p => exact goes_execLaneConfig h x p
  | laneStart x p => exact goes_execLaneStart h x p
  | laneStop x p => exact goes_execLaneStop h x p
  | setLaneTarget x p => exact goes_execSetLaneTarget h x p
  | setLaneCoeffs x p => exact goes_execSetLaneCoeffs h x p
  | setLaneProfile x p => exact goes_execSetLaneProfile h x p
  | setBurst x p => exact goes_execSetBurst h x p
  | tuningControl x p => exact goes_execTuningControl h x p
  | lanePhaseLock x p => exact goes_execLanePhaseLock h x p
  | laneLegs x p => exact goes_execLaneLegs h x p
  | laneStatus x p => exact goes_execLaneStatus h x p
  | protConfig x p => exact goes_execProtConfig h x p
  | protClear x p => exact goes_execProtClear h x p
  | protLogRead x p => exact goes_execProtLogRead h x p
  | echoRead x p => exact goes_execEchoRead h x p
  | echoClear x p => exact goes_execEchoClear h x p
  | strandConfig x p => exact goes_execStrandConfig h x p
  | chargeStart x p => exact goes_execChargeStart h x p
  | chargeStop x p => exact goes_execChargeStop h x p
  | chargeEqualise x p => exact goes_execChargeEqualise h x p
  | strandStatus x p => exact goes_execStrandStatus h x p
  | bmsLimits x p => exact goes_execBmsLimits h x p
  | strandPlan x p => exact goes_execStrandPlan h x p
  | bezelConfig x p => exact goes_execBezelConfig h x p
  | pathConfig x p => exact goes_execPathConfig h x p
  | sourceInhibit x p => exact goes_execSourceInhibit h x p
  | bezelClear x p => exact goes_execBezelClear h x p
  | pathStatus x p => exact goes_execPathStatus h x p
  | peerPower x p => exact goes_execPeerPower h x p
  | bezelComparatorCrossing comparator crossed => exact goes_execBezelComparatorCrossing h comparator crossed
  | bezelTrip comparator => exact goes_execBezelTrip h comparator
  | slowOcNoSample channel => exact goes_execSlowOcNoSample h channel
  | bzFbQualified channel => exact goes_execBzFbQualified h channel
  | bzCloseTimeout channel => exact goes_execBzCloseTimeout h channel
  | bzOpenTimeout channel => exact goes_execBzOpenTimeout h channel
  | bzRetryReset channel => exact goes_execBzRetryReset h channel
  | pendantSetpointFrame word => exact goes_execPendantSetpointFrame h word
  | pendantStatusFrame word => exact goes_execPendantStatusFrame h word
  | pendantGapDiscard => exact goes_execPendantGapDiscard h
  | pendantAnswerReady => exact goes_execPendantAnswerReady h
  | pendantAnswerRead => exact goes_execPendantAnswerRead h
  | pendantAnswerTimeout => exact goes_execPendantAnswerTimeout h
  | pendantSlewStep => exact goes_execPendantSlewStep h
  | pendantDone => exact goes_execPendantDone h
  | pendantNotSettled => exact goes_execPendantNotSettled h
  | pendantConfig x p => exact goes_execPendantConfig h x p
  | pendantStatus x p => exact goes_execPendantStatus h x p
  | linkUp port => exact goes_execLinkUp h port
  | linkDownDetected loss => exact goes_execLinkDownDetected h loss
  | delayMeasured port delay down up => exact goes_execDelayMeasured h port delay down up
  | echoFrame port answer harm received sent => exact goes_execEchoFrame h port answer harm received sent
  | enum fromB harm nextAddr prevAddr delay mode => exact goes_execEnum h fromB harm nextAddr prevAddr delay mode
  | enumAnswer harm dieId partRole address delay => exact goes_execEnumAnswer h harm dieId partRole address delay
  | enumEnd harm address roleConflict => exact goes_execEnumEnd h harm address roleConflict
  | enumNoWorkerTimeout => exact goes_execEnumNoWorkerTimeout h
  | appendRetry => exact goes_execAppendRetry h
  | join harm => exact goes_execJoin h harm
  | joinTimer => exact goes_execJoinTimer h
  | unassign harm => exact goes_execUnassign h harm
  | resetFrame harm mask => exact goes_execResetFrame h harm mask
  | linkDown harm address port => exact goes_execLinkDown h harm address port
  | packetFrame frame => exact goes_execPacketFrame h frame
  | slolosWakeDetected => exact goes_execSlolosWakeDetected h
  | chainStatus x p => exact goes_execChainStatus h x p
  | chainWorker x p => exact goes_execChainWorker h x p
  | chainEnumerate x p => exact goes_execChainEnumerate h x p
  | chainReset x p => exact goes_execChainReset h x p
  | chainConfig x p => exact goes_execChainConfig h x p
  | claspSenseChange port lineB band => exact goes_execClaspSenseChange h port lineB band
  | claspAttachTimer port => exact goes_execClaspAttachTimer h port
  | claspToggle port => exact goes_execClaspToggle h port
  | claspTryTimeout port => exact goes_execClaspTryTimeout h port
  | claspDetachDetected port => exact goes_execClaspDetachDetected h port
  | caps port fromB seqNo answers payload => exact goes_execCaps h port fromB seqNo answers payload
  | request port fromB seqNo answers payload => exact goes_execRequest h port fromB seqNo answers payload
  | accept port fromB seqNo answers payload => exact goes_execAccept h port fromB seqNo answers payload
  | reject port fromB seqNo answers payload => exact goes_execReject h port fromB seqNo answers payload
  | ready port fromB seqNo answers payload => exact goes_execReady h port fromB seqNo answers payload
  | swapJs port fromB seqNo answers payload => exact goes_execSwapJs h port fromB seqNo answers payload
  | hold port fromB seqNo answers payload => exact goes_execHold h port fromB seqNo answers payload
  | detach port fromB seqNo answers payload => exact goes_execDetach h port fromB seqNo answers payload
  | claspBadMessage port => exact goes_execClaspBadMessage h port
  | claspCollision port => exact goes_execClaspCollision h port
  | claspRetryIdle port => exact goes_execClaspRetryIdle h port
  | claspAnswerTimeout port => exact goes_execClaspAnswerTimeout h port
  | claspTransitionTimeout port => exact goes_execClaspTransitionTimeout h port
  | claspHoldTimeout port => exact goes_execClaspHoldTimeout h port
  | claspSwapDelay port => exact goes_execClaspSwapDelay h port
  | claspRecoveryEnd port => exact goes_execClaspRecoveryEnd h port
  | claspConfig x p => exact goes_execClaspConfig h x p
  | claspStatus x p => exact goes_execClaspStatus h x p
  | claspRequest x p => exact goes_execClaspRequest h x p
  | claspSwapJs x p => exact goes_execClaspSwapJs h x p
  | claspHold x p => exact goes_execClaspHold h x p
  | claspDetach x p => exact goes_execClaspDetach h x p
  | conversionDone converter code => exact goes_execConversionDone h converter code
  | measCalibrationDone => exact goes_execMeasCalibrationDone h
  | measTable x p => exact goes_execMeasTable h x p
  | measAccConfig x p => exact goes_execMeasAccConfig h x p
  | measClear x p => exact goes_execMeasClear h x p
  | measSnapshotRead x p => exact goes_execMeasSnapshotRead h x p
  | measTableStatus x p => exact goes_execMeasTableStatus h x p
  | thermalReadStart => exact goes_execThermalReadStart h
  | thermalReadDone readings => exact goes_execThermalReadDone h readings
  | thermalHeldRead readings => exact goes_execThermalHeldRead h readings
  | thermConfig x p => exact goes_execThermConfig h x p
  | thermStatus x p => exact goes_execThermStatus h x p
  | thermPeakClear x p => exact goes_execThermPeakClear h x p
  | timerOverflow timer => exact goes_execTimerOverflow h timer
  | timerMatch timer => exact goes_execTimerMatch h timer
  | captureEdge input edge => exact goes_execCaptureEdge h input edge
  | lfrcStepSwitch => exact goes_execLfrcStepSwitch h
  | debugHalt halt => exact goes_execDebugHalt h halt
  | wdgExpire => exact goes_execWdgExpire h
  | wdgClkmon => exact goes_execWdgClkmon h
  | lfrcResume => exact goes_execLfrcResume h
  | timerConfig x p => exact goes_execTimerConfig h x p
  | timerStatus x p => exact goes_execTimerStatus h x p
  | timerCaptures x p => exact goes_execTimerCaptures h x p
  | timeRead x p => exact goes_execTimeRead h x p
  | scrubVisit mem uses found tagged rewritten => exact goes_execScrubVisit h mem uses found tagged rewritten
  | dripLeak mem => exact goes_execDripLeak h mem
  | memiConfig x p => exact goes_execMemiConfig h x p
  | memiRead x p => exact goes_execMemiRead h x p
  | memiInject x p => exact goes_execMemiInject h x p
  | flashStatus x p => exact goes_execFlashStatus h x p
  | fwUpdateBegin x p => exact goes_execFwUpdateBegin h x p
  | updateEraseDone => exact goes_execUpdateEraseDone h
  | fwUpdateChunk x p => exact goes_execFwUpdateChunk h x p
  | chunkCommitted => exact goes_execChunkCommitted h
  | fwUpdateFinish x p => exact goes_execFwUpdateFinish h x p
  | fwActivate x p => exact goes_execFwActivate h x p
  | fwConfirm x p => exact goes_execFwConfirm h x p
  | fwUpdateAbort x p => exact goes_execFwUpdateAbort h x p
  | journalWrite x p => exact goes_execJournalWrite h x p
  | journalCommit x p => exact goes_execJournalCommit h x p
  | journalCommitDone => exact goes_execJournalCommitDone h
  | journalRead x p => exact goes_execJournalRead h x p
  | journalRemove x p => exact goes_execJournalRemove h x p
  | lcStatus x p => exact goes_execLcStatus h x p
  | lcAdvance x p => exact goes_execLcAdvance h x p
  | lcWipeDone => exact goes_execLcWipeDone h
  | keyProgram x p => exact goes_execKeyProgram h x p
  | keyRevoke x p => exact goes_execKeyRevoke h x p
  | keyStatusRead x p => exact goes_execKeyStatusRead h x p
  | certLoad x p => exact goes_execCertLoad h x p
  | certVerified => exact goes_execCertVerified h
  | certCommitted => exact goes_execCertCommitted h
  | certEraseDone => exact goes_execCertEraseDone h
  | certRead x p => exact goes_execCertRead h x p
  | fenceStatus x p => exact goes_execFenceStatus h x p
  | otpOption x p => exact goes_execOtpOption h x p
  | jtagInstruction cells => exact goes_execJtagInstruction h cells
  | bzFbChange channel closed => exact goes_execBzFbChange h channel closed
  | slolosPortStart port => exact goes_execSlolosPortStart h port
  | claspLineIdle port => exact goes_execClaspLineIdle h port
  | claspMessageSent port => exact goes_execClaspMessageSent h port
  | canFrameTransmitted controller => exact goes_execCanFrameTransmitted h controller
  | otpProgramDone => exact goes_execOtpProgramDone h
  | tombstoneCommitted => exact goes_execTombstoneCommitted h
  | bodyHashDone => exact goes_execBodyHashDone h

/-- What a step that answers a next state does: time passes where no command waits, or the command at the front runs. -/
theorem step_cases {s t : State} (h : step s = .next t) :
    (s.pending = [] ∧ t = s.idle) ∨ ∃ c rest, s.pending = c :: rest ∧ exec c { s with pending := rest } = .next t := by
  unfold step at h
  split at h
  next e => exact .inl ⟨e, (Host.Outcome.next.inj h).symm⟩
  next c rest e => exact .inr ⟨c, rest, e, h⟩

/-- A sound state is good for its own OTP and its own queue, and stays so with another queue. -/
theorem State.Inv.good {s : State} (h : s.Inv) (q : List Instr) : Good s.otp q { s with pending := q } :=
  ⟨{ h with }, Otp.Keeps.refl s.otp, rfl⟩

/-- Settles O6: either way that a step goes, the next state is good for the OTP of the state before. -/
theorem otpOnlyGains : Obligations.OtpOnlyGains := by
  intro s t sound h
  obtain ⟨-, rfl⟩ | ⟨c, rest, -, ran⟩ := step_cases h
  · exact (good_State_idle (sound.good s.pending)).otp
  · obtain ⟨t', next, good⟩ := goes_exec (sound.good rest) c
    obtain rfl : t = t' := Host.Outcome.next.inj (ran.symm.trans next)
    exact good.otp

end Sys2Proof.Machine
end

section
/-!
SUPPORT. A request whose opcode's `run` is known in the state at hand: it is answered, or its answer comes with a later event.
-/
namespace Sys2Proof.Machine

section
variable {o : OpSpec} {h : Hdr} {p : List Byte} {s t : State} {a : Answer} {c : Instr} {f : Flight}

/-- The opcode answers at once. -/
theorem Runs.finishes (r : Runs o h p s) (request : requestOf c = some (o, h, p))
    (run : o.run (s.entered o h p) (flightOf s o h p) = (t, some a)) : Machine.exec c s = .next (t.finish (flightOf s o h p) a) := by
  rw [r.exec request, run]

/-- The opcode leaves its answer to a later event. -/
theorem Runs.starts (r : Runs o h p s) (request : requestOf c = some (o, h, p))
    (run : o.run (s.entered o h p) (flightOf s o h p) = (t, none)) : Machine.exec c s = .next (t.unanswered (flightOf s o h p)) := by
  rw [r.exec request, run]

/-- A request that executes at once is not scheduled. -/
theorem Runs.unscheduled (r : Runs o h p s) : (flightOf s o h p).sched = false := r.now

/-- A request that executes at once is no broadcast. -/
theorem Runs.single (r : Runs o h p s) : (flightOf s o h p).bcast = false := r.admitted.single

/-- At its boundary the opcode answers at once. -/
theorem Executes.finishes (x : Executes o f s) (spec : opSpec o.code = some o) (run : o.run s f = (t, some a)) :
    s.executeFlight f = t.finish f a := by
  rw [x.run spec, run]

/-- At its boundary the opcode leaves its answer to a later event. -/
theorem Executes.starts (x : Executes o f s) (spec : opSpec o.code = some o) (run : o.run s f = (t, none)) :
    s.executeFlight f = t.unanswered f := by
  rw [x.run spec, run]

end

/-- A row starts `e` if its opcode, run unscheduled, does so in every state, its answer left to a later event. -/
theorem Starts.of_run {c : Hdr → List Byte → Instr} {o : OpSpec} {e : State → Flight → State}
    (request : ∀ h p, requestOf (c h p) = some (o, h, p))
    (run : ∀ s f, f.sched = false → o.run s f = (e s f, none)) : Starts c o e :=
  fun h p _ r => r.starts (request h p) (run _ _ r.unscheduled)

end Sys2Proof.Machine
end

section
/-!
PROOF. O18: the sessions of an update and FLASH_STATUS (R104 to R106, R436).
-/
namespace Sys2Proof.Machine

/-! ### The number of a new session (log 46) -/

/-- A free value, or its successor where it is the last session's number. -/
theorem State.newSession_fst (s : State) :
    s.newSession.1 = if s.takeNat.1 % 65536 = s.flash.lastSession then (s.takeNat.1 % 65536 + 1) % 65536
      else s.takeNat.1 % 65536 := rfl

theorem State.newSession_lt (s : State) : s.newSession.1 < 65536 := by
  rw [s.newSession_fst]
  split <;> exact Nat.mod_lt _ (by decide)

/-- A number and its successor differ, also where the successor wraps. -/
theorem State.newSession_ne (s : State) : s.newSession.1 ≠ s.flash.lastSession := by
  rw [s.newSession_fst]
  split
  next same => omega
  next other => exact other

/-! ### FW_UPDATE_BEGIN -/

/-- A header with the signature of the session that stands takes it up again. -/
theorem opFwUpdateBegin_run_of_resumes {s : State} {f : Flight} {x : Session} (h : s.flash.resumes f.payload = some x) :
    opFwUpdateBegin.run s f = okayWith s (le 2 x.number ++ le 2 x.next) := by
  simp only [opFwUpdateBegin, h]

/-- Any other header opens a session of its own, and the erase of its target begins. -/
theorem opFwUpdateBegin_run_of_new {s : State} {f : Flight} (h : s.flash.resumes f.payload = none) :
    let n := s.newSession.1
    opFwUpdateBegin.run s f = okayWith
      { s.takeNat.2 with flash := { s.flash.setSlot s.target Slot.blank with
          session := some { number := n, header := f.payload, target := s.target, next := 0, erased := false }
          lastSession := n
          op := .updateErase n } } (le 2 n ++ le 2 0) := by
  simp only [opFwUpdateBegin, h]
  rfl

/-! ### The statement -/

/-- Settles O18: FW_UPDATE_BEGIN by whether a session is taken up again, the others by what they run. -/
theorem updateSessions : Obligations.UpdateSessions := by
  unfold Obligations.UpdateSessions
  refine ⟨fun h p s x r same => ?resumed, fun h p s r other => ?opened, ?abort, ?status⟩
  case resumed => exact r.finishes rfl (opFwUpdateBegin_run_of_resumes same)
  case opened =>
    let t := s.entered opFwUpdateBegin h p
    exact ⟨t.newSession.1, t.newSession_lt, t.newSession_ne, r.finishes rfl (opFwUpdateBegin_run_of_new other)⟩
  case abort => exact Performs.of_run (fun _ _ => rfl) fun _ _ _ => rfl
  case status => exact Performs.of_run (fun _ _ => rfl) fun _ _ _ => rfl

end Sys2Proof.Machine
end

section
/-!
PROOF. O19: the progress of an update: the erase of its target, its chunks and the hash of its body (R89, R90, R105 to R107).
-/
namespace Sys2Proof.Machine

variable {s : State} {x : Session}

/-! ### The requests -/

/-- The programming of a chunk begins in the slot of the session. -/
theorem opFwUpdateChunk_run_of_session {f : Flight} (h : s.flash.session = some x) :
    opFwUpdateChunk.run s f = later (s.modFlash fun y =>
      { y.setSlot x.target (y.slot x.target).program with
        op := .chunk f.key x.next (f.payload.drop 4) (((y.slot x.target).part.getD (f.payload.drop 4)) == f.payload.drop 4) }) := by
  simp only [opFwUpdateChunk, h]

/-! ### The erase of the target slot -/

/-- The session whose erase is done gets its header and its first record. -/
theorem execUpdateEraseDone_of_session {n : Nat} (op : s.flash.op = .updateErase n) (session : s.flash.session = some x)
    (number : x.number = n) (fresh : x.erased = false) (warm : s.flashTemp = true) :
    execUpdateEraseDone s = .next (((s.modFlash fun y =>
      { y.setSlot x.target { Slot.blank with header := x.header } with session := some { x with erased := true } }).appendOwn
        0xF001).flashIdle) := by
  simp only [execUpdateEraseDone, op, session, number, fresh, warm, decide_true, Bool.not_false, Bool.and_self, if_true]

/-! ### The chunks -/

section
variable {k : FlightKey} {i : Nat} {d : List Byte} {same : Bool} (op : s.flash.op = .chunk k i d same)
  (session : s.flash.session = some x) (erased : x.erased = true) (next : x.next = i)
include op session erased next

/-- Outside the temperature window the chunk stays in its slot without a record. -/
theorem execChunkCommitted_of_cold (cold : s.flashTemp = false) :
    execChunkCommitted s = .next (((s.modFlash fun y => y.keepPart d).finishKey k [stTempForbidden]).flashIdle) := by
  simp only [execChunkCommitted, op, session, erased, next, cold, ne_eq, not_true_eq_false, decide_false, Bool.not_true,
    Bool.or_self, Bool.false_eq_true, if_false, Bool.not_false, if_true]

/-- Within it the chunk is recorded where its units read back, and ends the session otherwise. -/
theorem execChunkCommitted_of_warm (warm : s.flashTemp = true) :
    execChunkCommitted s = .next (if same = true ∧ s.takeBit.1 = true
      then ((s.takeBit.2.commitChunk x d).finishKey k [stOk]).flashIdle
      else ((s.takeBit.2.modFlash fun y => { y with session := none }).finishKey k [stFlashFail]).flashIdle) := by
  simp only [execChunkCommitted, op, session, erased, next, warm, ne_eq, not_true_eq_false, decide_false, Bool.not_true,
    Bool.or_self, Bool.false_eq_true, if_false, Bool.and_eq_true]

end

/-! ### The hash of the body -/

section
variable {k : FlightKey} {n : Nat} (hashing : s.geode.hashing = some (k, n))
include hashing

/-- While another flash operation runs, the slot record waits (R89). -/
theorem execBodyHashDone_of_busy (op : s.flash.op ≠ .none) : execBodyHashDone s = .next s := by
  simp only [execBodyHashDone, hashing, bne_iff_ne, if_pos op]

/-- Outside the temperature window the session stays. -/
theorem execBodyHashDone_of_cold (op : s.flash.op = .none) (cold : s.flashTemp = false) :
    execBodyHashDone s = .next ((s.modGeode fun g => { g with hashing := none }).finishKey k [stTempForbidden]) := by
  simp only [execBodyHashDone, hashing, op, bne_self_eq_false, cold, Bool.not_false, Bool.false_eq_true, if_false, if_true]

/-- Within it the hash decides, and the session ends either way. -/
theorem execBodyHashDone_of_warm (session : s.flash.session = some x) (number : x.number = n) (erased : x.erased = true)
    (op : s.flash.op = .none) (warm : s.flashTemp = true) :
    let t := s.modGeode fun g => { g with hashing := none }
    execBodyHashDone s = .next (if (s.flash.slot x.target).hashOk
      then (t.modFlash fun y => { y.setSlot x.target { s.flash.slot x.target with complete := true } with
        session := none }).finishKey k [stOk]
      else (t.modFlash fun y => { y with session := none }).finishKey k [stHashMismatch]) := by
  simp only [execBodyHashDone, hashing, op, session, number, erased, warm, bne_self_eq_false, ne_eq, not_true_eq_false,
    decide_false, Bool.not_true, Bool.or_self, Bool.false_eq_true, if_false]

end

/-! ### The statement -/

/-- Settles O19: the two requests by what they run, then each event by the case that its hypotheses choose. -/
theorem updateProgress : Obligations.UpdateProgress := by
  unfold Obligations.UpdateProgress
  refine ⟨fun h p s x r session => ?chunk, ?finish, fun s x n => execUpdateEraseDone_of_session,
    fun s x k i d same op session erased next => ?committed, fun s x k n hashing session number erased => ?hash⟩
  case chunk => exact r.starts rfl (opFwUpdateChunk_run_of_session session)
  case finish => exact Starts.of_run (fun _ _ => rfl) fun _ _ _ => rfl
  case committed =>
    refine ⟨execChunkCommitted_of_cold op session erased next, fun warm => ?_⟩
    subst next
    exact execChunkCommitted_of_warm op session erased rfl warm
  case hash =>
    refine ⟨execBodyHashDone_of_busy hashing, execBodyHashDone_of_cold hashing, fun op warm good => ?_, fun op warm bad => ?_⟩
    · exact (execBodyHashDone_of_warm hashing session number erased op warm).trans (by rw [if_pos good])
    · exact (execBodyHashDone_of_warm hashing session number erased op warm).trans
        (by rw [if_neg (Bool.eq_false_iff.mp bad)])

end Sys2Proof.Machine
end

section
/-!
PROOF. O20: FW_ACTIVATE and FW_CONFIRM (R95, R107, R108).
-/
namespace Sys2Proof.Machine

variable {s : State} {f : Flight}

/-! ### FW_ACTIVATE -/

/-- In RECOVERY the new slot becomes active at once, otherwise it goes on trial; a SOFT reset follows (R107). -/
theorem State.activate_eq (s : State) :
    s.activate =
      if s.geode.stage = .recovery then
        (((s.modOtp fun o => { o with rollback := Nat.max o.rollback (s.flash.slot s.target).version }).modFlash fun y =>
          { y with active := s.target, trial := none }).modSys fun y => { y with hint := 0 }).trigger causeSoft
      else ((s.modFlash fun y => { y with trial := some s.target }).modSys fun y => { y with hint := 1 }).trigger causeSoft := by
  simp only [State.activate, beq_iff_eq]

theorem opFwActivate_run_of_unscheduled (h : f.sched = false) : opFwActivate.run s f = okay s.activate := by
  simp only [opFwActivate, h, Bool.false_eq_true, if_false]

/-- At its boundary the quiescence, the slot and the temperature are checked again. -/
theorem opFwActivate_run_of_refused {a : Answer} (h : f.sched = true) (check : activateCheck s = some a) :
    opFwActivate.run s f = (s, some a) := by
  simp only [opFwActivate, h, check, if_true]

/-- Activated at a boundary, the command has no completion reply: the reset ends it. -/
theorem opFwActivate_run_of_passed (h : f.sched = true) (check : activateCheck s = none) :
    opFwActivate.run s f = later (s.dropFlight f.key).activate := by
  simp only [opFwActivate, h, check, if_true]

/-! ### FW_CONFIRM -/

/-- The slot on trial becomes active. -/
theorem State.confirm_of_trial {i : SlotId} (h : s.flash.trial = some i) :
    s.confirm = (s.modFlash fun y => { y with active := i, trial := none }).modSys fun y => { y with hint := 0 } := by
  simp only [State.confirm, h]

theorem opFwConfirm_run_of_le (h : s.runningVersion ≤ s.otp.rollback) : opFwConfirm.run s f = okay s.confirm := by
  simp only [opFwConfirm, if_pos h]

/-- A rollback version that rises is an OTP program. -/
theorem opFwConfirm_run_of_lt (h : s.otp.rollback < s.runningVersion) :
    opFwConfirm.run s f = later (s.modFlash fun y => { y with op := .otp f.key }) := by
  simp only [opFwConfirm, if_neg (Nat.not_le.mpr h)]

/-! ### The end of an OTP program -/

/-- Outside the temperature window nothing is programmed (R90). -/
theorem execOtpProgramDone_of_cold {k : FlightKey} (op : s.flash.op = .otp k) (find : s.findFlight k = some f)
    (cold : s.flashTemp = false) : execOtpProgramDone s = .next (s.finish f [stTempForbidden]).flashIdle := by
  simp only [execOtpProgramDone, op, find, cold, Bool.false_eq_true, if_false]

/-- Within it the program of the command is written, and FW_CONFIRM goes on to confirm its slot. -/
theorem execOtpProgramDone_of_warm {k : FlightKey} (op : s.flash.op = .otp k) (find : s.findFlight k = some f)
    (warm : s.flashTemp = true) :
    let t := s.modOtp fun o => o.program f.opcode f.payload s.runningVersion
    execOtpProgramDone s = .next (((if f.opcode = 0x0C05 then t.confirm else t).finish f [stOk]).flashIdle) := by
  simp only [execOtpProgramDone, op, find, warm, if_true, State.programOtp]

/-! ### The statement -/

/-- Settles O20: each request by the branch of its `run`, and the end of FW_CONFIRM's program by its opcode. -/
theorem firmwareActivation : Obligations.FirmwareActivation := by
  unfold Obligations.FirmwareActivation
  intro act
  have activates : act = State.activate := funext fun t => t.activate_eq.symm
  rw [activates]
  refine ⟨Performs.of_run (fun _ _ => rfl) fun s f => opFwActivate_run_of_unscheduled, fun s f x later => ?boundary,
    fun h p s i r trial version => ?atOnce, fun h p s r version => ?program, fun s k f op find opcode warm => ?programmed⟩
  case boundary =>
    split
    next a check => exact x.finishes rfl (opFwActivate_run_of_refused later check)
    next check => exact x.starts rfl (opFwActivate_run_of_passed later check)
  case atOnce =>
    have confirmed := (s.entered opFwConfirm h p).confirm_of_trial trial
    rw [← confirmed]
    exact r.finishes rfl (opFwConfirm_run_of_le version)
  case program => exact r.starts rfl (opFwConfirm_run_of_lt version)
  case programmed =>
    have done := execOtpProgramDone_of_warm op find warm
    simp only [opcode, if_true] at done
    exact done

end Sys2Proof.Machine
end

section
/-!
PROOF. O21: JOURNAL_WRITE (R112, log 6). An answer leaves the flash as it is, so what the staging buffer reads afterwards is what the
store of the payload's bytes gives.
-/
namespace Sys2Proof.Machine

/-! ### An answer leaves the flash as it is -/

@[simp] theorem State.sendUp_flash (s : State) (x : ChainFrame) : (s.sendUp x).flash = s.flash := by
  unfold State.sendUp
  split <;> rfl

@[simp] theorem State.sendBack_flash (s : State) (f : Flight) (k : Packet) (frees : Option FlightKey) :
    (s.sendBack f k frees).flash = s.flash := by
  unfold State.sendBack
  split
  · exact s.sendUp_flash _
  · split <;> rfl

@[simp] theorem State.replyFinal_flash (s : State) (f : Flight) (a : Answer) : (s.replyFinal f a).flash = s.flash := by
  unfold State.replyFinal
  split <;> exact s.sendBack_flash ..

/-- The final answer to a command that is no broadcast. -/
theorem State.finish_flash_of_single {s : State} {f : Flight} (single : f.bcast = false) (a : Answer) :
    (s.finish f a).flash = s.flash := by
  rw [State.finish, single]
  exact s.replyFinal_flash f a

/-! ### The statement -/

/-- A byte of the payload behind its offset. -/
theorem getD_drop_eq_getAt {α : Type} (p : List α) (n i : Nat) (d : α) : (p.drop n).getD i d = getAt p (n + i) d := by
  simp only [getAt, List.getD_eq_getElem?_getD, List.getElem?_drop]

/-- What JOURNAL_WRITE does and answers. -/
theorem journalWrite_performs :
    Performs .journalWrite opJournalWrite
      (fun t f => { t with flash := { t.flash with
        staging := Memory.store t.flash.staging (fieldAt f.payload 0 4) (f.payload.drop 4) } })
      (fun _ _ => [stOk]) :=
  Performs.of_run (fun _ _ => rfl) fun _ _ _ => rfl

/-- Settles O21: the buffer after the command is the store of the payload's bytes, and a read of it is `Memory.read_store`. -/
theorem journalWriteStoresItsBytes : Obligations.JournalWriteStoresItsBytes := by
  refine ⟨journalWrite_performs, fun h p s t sound r ran a => ?_⟩
  obtain rfl := Host.Outcome.next.inj ((journalWrite_performs h p s r).symm.trans ran)
  have stored : Memory.wf s.flash.staging = true := sound.flash.staging
  rw [State.finish_flash_of_single r.single]
  refine (Memory.read_store stored (fieldAt p 0 4) (p.drop 4) a).trans ?_
  rw [List.length_drop, getD_drop_eq_getAt]

end Sys2Proof.Machine
end

section
/-!
PROOF. O22: JOURNAL_COMMIT, JOURNAL_REMOVE and JOURNAL_READ, and the ends of their appends (R90, R109 to R112).
-/
namespace Sys2Proof.Machine

variable {s : State}

/-! ### The ends of the appends -/

/-- Within the temperature window the records of the blob stand, outside it the append is cut short. -/
theorem execJournalCommitDone_of_commit {k : FlightKey} {l : List JRec} {c : Bool} (op : s.flash.op = .commit k l c) :
    execJournalCommitDone s = .next (if s.flashTemp = true
      then ((s.modFlash fun y => y.commitRecs l c).finishKey k [stOk]).flashIdle
      else ((s.cutAppend (recsSize l - recSize 0) c).finishKey k [stTempForbidden]).flashIdle) := by
  simp only [execJournalCommitDone, op]

/-- The same for the tombstone of a pair. -/
theorem execTombstoneCommitted_of_tombstone {k : FlightKey} {i j : Nat} {c : Bool} (op : s.flash.op = .tombstone k i j c) :
    execTombstoneCommitted s = .next (if s.flashTemp = true
      then ((s.modFlash fun y => y.commitRecs [s.tombstone i j] c).finishKey k [stOk]).flashIdle
      else ((s.cutAppend 48 c).finishKey k [stTempForbidden]).flashIdle) := by
  simp only [execTombstoneCommitted, op]

/-! ### JOURNAL_READ -/

section
variable {f : Flight}

theorem opJournalRead_run_of_inside {b : List Byte} (found : s.flash.configRec f.payload = some b)
    (inside : fieldAt f.payload 4 4 < b.length) :
    opJournalRead.run s f = okayWith s (le 4 b.length ++ slice b (fieldAt f.payload 4 4) 1019) := by
  simp only [opJournalRead, found, if_pos inside]

/-- No record, or an offset behind its body. -/
theorem opJournalRead_run_of_outside (h : ∀ b, s.flash.configRec f.payload = some b → b.length ≤ fieldAt f.payload 4 4) :
    opJournalRead.run s f = answer s stBadParam := by
  cases found : s.flash.configRec f.payload with
  | none => simp only [opJournalRead, found]
  | some b => simp only [opJournalRead, found, if_neg (Nat.not_lt.mpr (h b found))]

end

/-! ### The statement -/

/-- Settles O22: the requests by what they run, and each end of an append by the equation of its event. -/
theorem journalOpcodes : Obligations.JournalOpcodes := by
  unfold Obligations.JournalOpcodes
  refine ⟨?commit, fun s k l c => execJournalCommitDone_of_commit, fun h p s b r found inside => ?inside,
    fun h p s r outside => ?outside, ?remove, fun s k i j c => execTombstoneCommitted_of_tombstone⟩
  case commit => exact Starts.of_run (fun _ _ => rfl) fun _ _ _ => rfl
  case inside => exact r.finishes rfl (opJournalRead_run_of_inside found inside)
  case outside => exact r.finishes rfl (opJournalRead_run_of_outside outside)
  case remove => exact Starts.of_run (fun _ _ => rfl) fun _ _ _ => rfl

end Sys2Proof.Machine
end

section
/-!
PROOF. O23: life cycle, keys and OTP options (R113, R115, Table 05-12). The end of an OTP program is that of O20; here what the program
of each opcode writes.
-/
namespace Sys2Proof.Machine

/-! ### What the OTP program of an opcode writes -/

theorem Otp.program_keyProgram (o : Otp) (p : List Byte) (v : Nat) :
    o.program 0x0D02 p v =
      { o with ikeys := setAt o.ikeys (byteAt p 0) (slice p 4 32), iProgrammed := o.iProgrammed.putBit (byteAt p 0) true } := rfl

theorem Otp.program_keyRevoke (o : Otp) (p : List Byte) (v : Nat) :
    o.program 0x0D03 p v = { o with iRevoked := o.iRevoked.putBit (byteAt p 0) true } := rfl

theorem Otp.program_otpOption (o : Otp) (p : List Byte) (v : Nat) :
    o.program 0x0D08 p v =
      { o with
        roleCfg := o.roleCfg ||| BitVec.ofNat 8 (byteAt p 0)
        wdgCfg := o.wdgCfg ||| BitVec.ofNat 8 (byteAt p 1)
        wdgDevClose := o.wdgDevClose ||| BitVec.ofNat 8 (byteAt p 2) } := rfl

/-- Within the temperature window the program of any opcode but FW_CONFIRM's is written, and the command answered OK. -/
theorem execOtpProgramDone_of_opcode {s : State} {k : FlightKey} {f : Flight} {n : Nat} {g : Otp → Otp}
    (op : s.flash.op = .otp k) (find : s.findFlight k = some f) (warm : s.flashTemp = true) (opcode : f.opcode = n)
    (other : n ≠ 0x0C05) (writes : ∀ o : Otp, o.program n f.payload s.runningVersion = g o) :
    execOtpProgramDone s = .next (((s.modOtp g).finish f [stOk]).flashIdle) := by
  subst opcode
  rw [execOtpProgramDone_of_warm op find warm, if_neg other, funext writes]

/-! ### The statement -/

/-- Settles O23: the requests by what they run, and the end of a program by what it writes for its opcode. -/
theorem lifeCycleOpcodes : Obligations.LifeCycleOpcodes := by
  unfold Obligations.LifeCycleOpcodes
  refine ⟨?status, ?advance, ?keyStatus, ?keyProgram, ?keyRevoke, ?otpOption, fun s k f op find => ?programmed⟩
  case status => exact Performs.of_run (fun _ _ => rfl) fun _ _ _ => rfl
  case advance => exact Performs.of_run (fun _ _ => rfl) fun _ _ _ => rfl
  case keyStatus => exact Performs.of_run (fun _ _ => rfl) fun _ _ _ => rfl
  case keyProgram => exact Starts.of_run (fun _ _ => rfl) fun _ _ _ => rfl
  case keyRevoke => exact Starts.of_run (fun _ _ => rfl) fun _ _ _ => rfl
  case otpOption => exact Starts.of_run (fun _ _ => rfl) fun _ _ _ => rfl
  case programmed =>
    exact ⟨execOtpProgramDone_of_cold op find,
      fun warm keyProgram => execOtpProgramDone_of_opcode op find warm keyProgram (by decide) fun o => o.program_keyProgram ..,
      fun warm keyRevoke => execOtpProgramDone_of_opcode op find warm keyRevoke (by decide) fun o => o.program_keyRevoke ..,
      fun warm otpOption => execOtpProgramDone_of_opcode op find warm otpOption (by decide) fun o => o.program_otpOption ..⟩

end Sys2Proof.Machine
end

section
/-!
PROOF. O24: the end of a life-cycle state's entry wipe (R86, R90, R113, R395, log 87).
-/
namespace Sys2Proof.Machine

/-- A trigger writes the bits of the triggers only; while no reset is held, the pending ones (R76, R77). -/
theorem State.trigger_leaves (s : State) (n : Nat) :
    ∃ m p, s.trigger n = s.modSys (fun y => { y with trig := m, trigPending := p }) ∧
      (s.sys.held = false → p = s.sys.trigPending.putBit n true) := by
  cases held : s.sys.held with
  | true => exact ⟨_, s.sys.trigPending, s.trigger_of_held n held, fun h => absurd h (by decide)⟩
  | false =>
    refine ⟨s.sys.trig, _, ?_, fun _ => rfl⟩
    rw [State.trigger, held]
    rfl

/-! ### The revocations of a state (R113) -/

theorem Otp.revokeFor_iRevoked (o : Otp) (n : LcState) :
    (o.revokeFor n).iRevoked = if n = .ret ∨ n = .scrapped then 0xF else o.iRevoked := by
  cases n <;> rfl

theorem Otp.revokeFor_vRevoked (o : Otp) (n : LcState) :
    (o.revokeFor n).vRevoked = if n = .scrapped then 0xF else o.vRevoked := by
  cases n <;> rfl

theorem Otp.revokeFor_lcState (o : Otp) (n : LcState) : (o.revokeFor n).lcState = o.lcState := by
  cases n <;> rfl

/-! ### The end of the wipe -/

/-- The configuration is erased, and the always-on retention stays wiped through the reset that follows (R86). -/
def State.entryWiped (s : State) : State :=
  (s.eraseConfig.modFlash fun f => { f with op := .none }).modSys fun y => { y.forget with forgetting := true }

/-- The wipe's mark is programmed within the temperature window only (R90, R395). -/
def State.entryMarked (s : State) (n : LcState) : State :=
  if s.flashTemp then (s.entryWiped.markWiped n).modGeode fun g => { g with wipePending := false, lcTarget := none }
  else s.entryWiped

theorem execLcWipeDone_of_wipe {s : State} {n : LcState} (op : s.flash.op = .lcWipe n) :
    execLcWipeDone s = .next ((s.entryMarked n).trigger causeSoft) := by
  simp only [execLcWipeDone, op]
  rfl

section
variable {s : State} {n : LcState}

theorem State.entryMarked_of_cold (cold : s.flashTemp = false) : s.entryMarked n = s.entryWiped := by
  rw [State.entryMarked, cold]
  rfl

theorem State.entryMarked_of_warm (warm : s.flashTemp = true) :
    s.entryMarked n = (s.entryWiped.markWiped n).modGeode fun g => { g with wipePending := false, lcTarget := none } := by
  rw [State.entryMarked, warm]
  rfl

end

/-- The mark writes OTP and the Geode only. -/
theorem State.entryMarked_leaves (s : State) (n : LcState) :
    ∃ o g, s.entryMarked n = { s.entryWiped with otp := o, geode := g } := by
  unfold State.entryMarked
  split
  · exact ⟨_, _, rfl⟩
  · exact ⟨_, _, rfl⟩

/-- What the mark writes. -/
theorem State.entryMarked_otp_of_warm {s : State} {n : LcState} (warm : s.flashTemp = true) :
    (s.entryMarked n).otp = { s.otp.revokeFor n with lcWiped := s.otp.lcWiped.program n.mask } := by
  rw [State.entryMarked_of_warm warm]
  rfl

/-! ### The statement -/

/-- Settles O24: the fields that the erased configuration and the trigger write, then what the mark writes by the temperature. -/
theorem lifeCycleWipe : Obligations.LifeCycleWipe := by
  intro s n op
  obtain ⟨m, p, triggered, pending⟩ := (s.entryMarked n).trigger_leaves causeSoft
  obtain ⟨o, g, marked⟩ := s.entryMarked_leaves n
  refine ⟨_, execLcWipeDone_of_wipe op, ?_⟩
  rw [triggered]
  have erased : (s.entryMarked n).flash = s.entryWiped.flash := by rw [marked]
  have forgot : (s.entryMarked n).sys = s.entryWiped.sys := by rw [marked]
  have conv : (s.entryMarked n).conv = s.conv := by rw [marked]; rfl
  have path : (s.entryMarked n).path = s.path := by rw [marked]; rfl
  have cmd : (s.entryMarked n).cmd = s.cmd := by rw [marked]; rfl
  have time : (s.entryMarked n).time = s.time := by rw [marked]; rfl
  rw [forgot] at pending
  simp only [State.modSys_flash, State.modSys_sys, State.modSys_otp, State.modSys_geode, erased, forgot]
  refine ⟨rfl, rfl, rfl, rfl, rfl, rfl, pending, rfl, rfl, rfl, rfl, fun cold => ?cold, fun warm => ?warm, conv, path, cmd, time⟩
  case cold =>
    rw [State.entryMarked_of_cold cold]
    exact ⟨rfl, rfl⟩
  case warm =>
    rw [State.entryMarked_otp_of_warm warm]
    refine ⟨rfl, s.otp.revokeFor_lcState n, s.otp.revokeFor_iRevoked n, s.otp.revokeFor_vRevoked n, ?_⟩
    rw [State.entryMarked_of_warm warm]
    rfl

end Sys2Proof.Machine
end

section
/-!
PROOF. O25: CERT_LOAD from its verification to its commit, CERT_READ and FENCE_STATUS (R97, R99, R101, R102, log 32, 50, 88).
-/
namespace Sys2Proof.Machine

variable {s : State}

/-! ### The end of the verification -/

section
variable {x : HeldCert} {f : Flight} (checking : s.geode.checking = some x) (find : s.findFlight x.by_ = some f)
include checking find

/-- Later than 10 us before its boundary, a certificate is refused unchecked. -/
theorem execCertVerified_of_late (late : s.pastCutoff x.epoch = true) :
    execCertVerified s = .next ((s.modGeode fun g => { g with checking := none }).finish f [stTooLate]) := by
  simp only [execCertVerified, checking, find, late, if_true]

/-- In time, the first check that fails is the answer. -/
theorem execCertVerified_of_refused {a : Answer} (inTime : s.pastCutoff x.epoch = false)
    (check : certCheck s x.bytes false = some a) :
    execCertVerified s = .next ((s.modGeode fun g => { g with checking := none }).finish f a) := by
  simp only [execCertVerified, checking, find, inTime, check, Bool.false_eq_true, if_false]

/-- A certificate that passes is held for its boundary. -/
theorem execCertVerified_of_passed (inTime : s.pastCutoff x.epoch = false) (check : certCheck s x.bytes false = none) :
    execCertVerified s = .next ((s.modGeode fun g => { g with checking := none }).holdCert x f) := by
  simp only [execCertVerified, checking, find, inTime, check, Bool.false_eq_true, if_false]

end

/-! ### Its boundary, its commit, and the erase of the other copy -/

/-- Within the temperature window the certificate held takes effect, every value is clamped, and its writing begins. -/
theorem runCertLoad_of_held {x : HeldCert} {f : Flight} (held : s.geode.heldCert = some x) (own : x.by_ = f.key)
    (warm : s.flashTemp = true) :
    runCertLoad s f = later (((s.modGeode fun g =>
      { g with heldCert := none, cert := some x.bytes, certBuiltin := false }).clampAll).modFlash fun y =>
        { y with op := .certWrite f.key x.bytes }) := by
  simp only [runCertLoad, held, own, warm, beq_self_eq_true, Bool.not_true, Bool.false_eq_true, if_false]
  rfl

theorem execCertCommitted_of_write {k : FlightKey} {b : List Byte} (op : s.flash.op = .certWrite k b) :
    execCertCommitted s = .next (if s.flashTemp = true
      then (((s.modFlash fun y =>
        { y.setCopy s.flash.writesA (.committed b) with certHighest := Nat.max y.certHighest (certVersion b) }).finishKey k
          [stOk]).modFlash fun y => y.eraseCopy (!s.flash.writesA))
      else ((s.modFlash fun y => { y.setCopy s.flash.writesA .uncommitted with op := .none }).finishKey k [stTempForbidden])) := by
  simp only [execCertCommitted, op]

theorem execCertEraseDone_of_erase (op : s.flash.op = .certErase) :
    execCertEraseDone s = .next (s.modFlash fun y =>
      { y with certA := y.certA.erased, certB := y.certB.erased, jOtherBlank := true }).flashIdle := by
  simp only [execCertEraseDone, op]

/-! ### CERT_READ -/

/-- The certificate in force, or NOT_READY where there is none. -/
theorem opCertRead_run (s : State) (f : Flight) :
    opCertRead.run s f = (s, some (match s.geode.cert with
      | some b => stOk :: b
      | none => [stNotReady])) := by
  cases e : s.geode.cert <;> simp only [opCertRead, e] <;> rfl

/-! ### The statement -/

/-- Settles O25: the requests by what they run, and each event by the case that its hypotheses choose. -/
theorem certificateOpcodes : Obligations.CertificateOpcodes := by
  unfold Obligations.CertificateOpcodes
  refine ⟨fun h p s w => w.exec rfl, fun s x f checking find => ?verified, fun s f x r held own warm => ?boundary,
    fun s k b => execCertCommitted_of_write, fun s => execCertEraseDone_of_erase, ?read, ?fence⟩
  case verified =>
    exact ⟨execCertVerified_of_late checking find, fun a => execCertVerified_of_refused checking find,
      execCertVerified_of_passed checking find⟩
  case boundary => exact r.starts rfl (runCertLoad_of_held held own warm)
  case read => exact Performs.of_run (fun _ _ => rfl) fun s f _ => opCertRead_run s f
  case fence => exact Performs.of_run (fun _ _ => rfl) fun _ _ _ => rfl

end Sys2Proof.Machine
end

section
/-!
PROOF. O38: the boot stages (R93 to R96, R117, log 84 to 86, 101), one equation per stage.
-/
namespace Sys2Proof.Machine

variable {s : State}

/-! ### The patch check (Table 05-3, steps 2 and 3) -/

theorem execPatchCheckDone_of_not {w : Bool} (h : ¬(s.geode.stage = .patch ∧ s.sys.clk = .running ∧ s.sys.held = false)) :
    execPatchCheckDone w s = .next s :=
  if_neg (by simpa only [Bool.and_eq_true, beq_iff_eq, Bool.not_eq_true', and_assoc] using h)

/-- An area that does not read as programmed, or whose signature fails, is GEODE_SAFE. -/
theorem execPatchCheckDone_of_patch {w : Bool} (stage : s.geode.stage = .patch) (clk : s.sys.clk = .running)
    (held : s.sys.held = false) :
    let t := (s.setReady .geode true).modSys fun y => { y with safeLow := false }
    execPatchCheckDone w s = .next (if w = false ∨ s.patchOk = false then s.geodeSafe 0x80
      else if t.wipeLags then
        ((t.setStage .wipe).modGeode fun g => { g with wipePending := true }).modFlash fun f => { f with op := .bootWipe }
      else t.afterWipe) := by
  have started : (s.geode.stage == .patch && s.sys.clk == .running && !s.sys.held) = true := by
    simp only [stage, clk, held, beq_self_eq_true, Bool.not_false, Bool.and_self]
  intro t
  rw [execPatchCheckDone, if_pos started]
  by_cases bad : w = false ∨ s.patchOk = false
  · rw [if_pos bad, if_pos (by simpa only [Bool.not_eq_true', Bool.and_eq_false_iff] using bad)]
  · rw [if_neg bad, if_neg (by simpa only [Bool.not_eq_true', Bool.and_eq_false_iff] using bad)]

/-- The wipe of the state in force is not marked. -/
theorem State.wipeLags_iff (s : State) : s.wipeLags = true ↔ s.lc.mask &&& s.otp.lcWiped.value ≠ s.lc.mask := by
  simp only [State.wipeLags, ne_eq, decide_not, Bool.not_eq_true', decide_eq_false_iff_not]

/-! ### The pending wipe (step 4) -/

theorem State.afterWipe_eq (s : State) :
    s.afterWipe = if s.lc = .scrapped then (s.setStage .scrapped).bootReport else s.setStage .image := by
  simp only [State.afterWipe, beq_iff_eq]

theorem execPendingWipeDone_of_wipe (op : s.flash.op = .bootWipe) :
    execPendingWipeDone s = .next (if s.flashTemp then
      ((((s.eraseConfig.modFlash fun f => { f with op := .none }).modSys Sys.forget).markWiped s.lc).modGeode fun g =>
        { g with wipePending := false }).afterWipe else s) := by
  simp only [execPendingWipeDone, op]

theorem execPendingWipeDone_of_ne (op : s.flash.op ≠ .bootWipe) : execPendingWipeDone s = .next s := by
  unfold execPendingWipeDone
  split
  next wipe => exact absurd wipe op
  next => rfl

/-! ### The slot selection (step 5, R95, R96) -/

theorem execSlotSelectionDone_of_ne (stage : s.geode.stage ≠ .image) : execSlotSelectionDone s = .next s :=
  if_neg (by simpa only [beq_iff_eq] using stage)

section
variable (stage : s.geode.stage = .image)
include stage

/-- Without a trial the active slot is tried first. -/
theorem execSlotSelectionDone_of_active (trial : s.flash.trial = none) :
    execSlotSelectionDone s = .next (s.trySlots s.flash.active) := by
  simp only [execSlotSelectionDone, stage, trial, beq_self_eq_true, if_true]

/-- A slot on trial has one attempt (R95). -/
theorem execSlotSelectionDone_of_trial {i : SlotId} (trial : s.flash.trial = some i) (hint : s.sys.hint = 1) :
    execSlotSelectionDone s = .next ((s.setHint 2).trySlots i) := by
  simp only [execSlotSelectionDone, stage, trial, hint, beq_self_eq_true, if_true]

/-- After it the trial is dropped and recorded. -/
theorem execSlotSelectionDone_of_failed {i : SlotId} (trial : s.flash.trial = some i) (hint : s.sys.hint ≠ 1) :
    execSlotSelectionDone s =
      .next ((((s.writeRecord fun f => { f with trial := none }).recordFault 0x83 0x0F []).setHint
        (if s.sys.hint = 3 then 3 else 0)).trySlots s.flash.active) := by
  simp only [execSlotSelectionDone, stage, trial, beq_self_eq_true, if_true, if_neg hint]

end

/-! ### The certificate (step 6) -/

theorem execBootCertLoaded_of_ne (stage : s.geode.stage ≠ .cert) : execBootCertLoaded s = .next s :=
  if_neg (by simpa only [beq_iff_eq] using stage)

/-- The copy loaded is in force; a fault is recorded where copies exist and none can be loaded (log 86). -/
theorem execBootCertLoaded_of_cert (stage : s.geode.stage = .cert) :
    let t := if s.bootCert = none ∧ ¬(s.flash.certA = .blank ∧ s.flash.certB = .blank) then s.recordFault 0x84 0x0F [] else s
    execBootCertLoaded s = .next (t.modGeode fun g =>
      { g with
        cert := s.bootCert
        certBuiltin := s.bootCert.isNone && (s.lc == .develop || s.lc == .ret)
        stage := .journal }) := by
  simp only [execBootCertLoaded, stage, beq_self_eq_true, if_true, Bool.and_eq_true, Option.isNone_iff_eq_none, Bool.not_eq_true',
    ← Bool.not_eq_true, beq_iff_eq]
  rfl

/-! ### The journal and the run of Eupefen (steps 7 and 8) -/

theorem execEupefenRunning_of_ne (stage : s.geode.stage ≠ .journal) : execEupefenRunning s = .next s :=
  if_neg (by simpa only [beq_iff_eq] using stage)

/-- The records are in force, within the limits; leftovers are erased once Eupefen runs. -/
theorem execEupefenRunning_of_journal (stage : s.geode.stage = .journal) :
    let u := s.loadCommon.loadHome.loadMq.clampAll.dropCopies
    let t := (u.setStage .running).bootReport
    execEupefenRunning s = .next (if u.flash.op = .none then t.flashIdle else t) := by
  simp only [execEupefenRunning, stage, beq_self_eq_true, if_true, beq_iff_eq]
  rfl

/-- Only a running Eupefen with its clock can fetch from outside its slot. -/
theorem execExecFault_eq (s : State) :
    execExecFault s = .next (if s.geode.stage = .running ∧ s.sys.clk = .running then s.geodeSafe 0x86 else s) := by
  simp only [execExecFault, State.eupefen, Bool.and_eq_true, beq_iff_eq]

/-! ### The statement -/

/-- Settles O38, stage by stage: each clause is the equation of its event. -/
theorem bootStages : Obligations.BootStages := by
  unfold Obligations.BootStages
  refine ⟨fun s w => execPatchCheckDone_of_not, fun s w stage clk held => ?patch, State.afterWipe_eq,
    fun s => execPendingWipeDone_of_wipe, fun s => execPendingWipeDone_of_ne, fun s => execSlotSelectionDone_of_ne,
    fun s i stage => ?slots, fun s => execBootCertLoaded_of_ne, fun s => execBootCertLoaded_of_cert,
    fun s => execEupefenRunning_of_ne, fun s => execEupefenRunning_of_journal, execExecFault_eq⟩
  case patch =>
    intro t h signed
    have event := execPatchCheckDone_of_patch (w := w) stage clk held
    simp only [State.wipeLags_iff] at event
    exact event
  case slots =>
    intro boot clear record select
    have tries : select = State.trySlots := rfl
    rw [tries]
    exact ⟨execSlotSelectionDone_of_active stage, execSlotSelectionDone_of_trial stage, execSlotSelectionDone_of_failed stage⟩

end Sys2Proof.Machine
end

section
/-!
PROOF. O5: soundness, from what every command keeps.
-/
namespace Sys2Proof.Machine

/-- Settles O5: either way that a step goes, the next state is good, and so sound. -/
theorem stepKeepsSound : Obligations.StepKeepsSound := by
  intro s t sound h
  obtain ⟨-, rfl⟩ | ⟨c, rest, -, ran⟩ := step_cases h
  · exact (good_State_idle (sound.good s.pending)).inv
  · obtain ⟨t', next, good⟩ := goes_exec (sound.good rest) c
    obtain rfl : t = t' := Host.Outcome.next.inj (ran.symm.trans next)
    exact good.inv

end Sys2Proof.Machine
end

section
/-!
SUPPORT. The receipt of a request that is not admitted as a command of this die: one equation per outcome of Table 06-2.
-/
namespace Sys2Proof.Machine

variable {o : OpSpec} {h : Hdr} {p : List Byte} {s : State}

/-- A packet that cannot reach the engine is dropped. -/
theorem receive_of_not_receives (e : receives h s = false) : receive o h p s = s.heard o h p := by
  have dropped : receives h (s.heard o h p) = false := e
  exact if_pos (by rw [← Bool.not_false, ← dropped]; rfl)

/-- A packet that reaches the engine meets steps 4 to 12; one that passes them is a broadcast, a command of this die, or one of a
worker. -/
theorem receive_of_receives (e : receives h s = true) :
    receive o h p s =
      ((receiptRefusal o h (flightOf s o h p) (s.heard o h p)).map ((s.heard o h p).refuse (flightOf s o h p))).getD
        (if (flightOf s o h p).bcast then broadcast o (flightOf s o h p) (s.heard o h p)
          else if ownTarget h s then receiveOwn o (flightOf s o h p) (s.heard o h p)
          else forward (flightOf s o h p) h.target.toNat (s.heard o h p)) := by
  have reached : ¬(!receives h (s.heard o h p)) = true := by
    rw [show receives h (s.heard o h p) = true from e]
    exact Bool.false_ne_true
  refine (if_neg reached).trans ?_
  change (match receiptRefusal o h (flightOf s o h p) (s.heard o h p) with
    | some a => (s.heard o h p).refuse (flightOf s o h p) a
    | none => _) = _
  cases receiptRefusal o h (flightOf s o h p) (s.heard o h p) <;> rfl

section
variable (e : receives h s = true)
include e

/-- The first of steps 4 to 12 that fails gives the reply. -/
theorem receive_of_refused {a : Answer} (r : receiptRefusal o h (flightOf s o h p) (s.heard o h p) = some a) :
    receive o h p s = (s.heard o h p).refuse (flightOf s o h p) a := by
  rw [receive_of_receives e, r]
  rfl

variable (r : receiptRefusal o h (flightOf s o h p) (s.heard o h p) = none)
include r

theorem receive_of_broadcast (b : (flightOf s o h p).bcast = true) :
    receive o h p s = broadcast o (flightOf s o h p) (s.heard o h p) := by
  rw [receive_of_receives e, r, Option.map_none, Option.getD_none, if_pos b]

variable (b : (flightOf s o h p).bcast = false)
include b

theorem receive_of_own (own : ownTarget h s = true) :
    receive o h p s = receiveOwn o (flightOf s o h p) (s.heard o h p) := by
  rw [receive_of_receives e, r, Option.map_none, Option.getD_none, if_neg (Bool.eq_false_iff.mp b), if_pos own]

theorem receive_of_far (far : ownTarget h s = false) :
    receive o h p s = forward (flightOf s o h p) h.target.toNat (s.heard o h p) := by
  rw [receive_of_receives e, r, Option.map_none, Option.getD_none, if_neg (Bool.eq_false_iff.mp b), if_neg (Bool.eq_false_iff.mp far)]

end

/-- Step 13 refuses a command of this die. -/
theorem receiveOwn_of_refused {f : Flight} {a : Answer} (k : ownCheck o s f = some a) : receiveOwn o f s = s.refuse f a := by
  simp only [receiveOwn, k]

end Sys2Proof.Machine
end

section
/-!
PROOF. O8: the order of the checks of Table 06-2. Steps 4 to 12 are a table of conditions and statuses, of which the first line that
holds gives the reply.
-/
namespace Sys2Proof.Machine

/-! ### Checks one after another -/

/-- The checks of a list within a list take its place. -/
theorem firstOf_append_firstOf_cons (xs ys zs : List (Option Answer)) :
    firstOf (xs ++ firstOf ys :: zs) = firstOf (xs ++ ys ++ zs) := by
  induction xs with
  | cons x xs ih =>
    cases x with
    | none => exact ih
    | some a => rfl
  | nil =>
    induction ys with
    | nil => rfl
    | cons y ys ih =>
      cases y with
      | none => exact ih
      | some a => rfl

/-- The status of the first line of a table whose condition holds. -/
def firstLine (l : List (Bool × Byte)) : Option Answer := (l.find? (·.1)).map fun x => [x.2]

theorem firstLine_nil : firstLine [] = none := rfl

theorem firstLine_cons (failed : Bool) (status : Byte) (l : List (Bool × Byte)) :
    firstLine ((failed, status) :: l) = if failed then some [status] else firstLine l := by
  cases failed <;> rfl

/-- A list of conditions that are needed is the table of their failures. -/
theorem firstOf_map_need (l : List (Bool × Byte)) : firstOf (l.map fun x => need (!x.1) x.2) = firstLine l := by
  induction l with
  | nil => rfl
  | cons x l ih =>
    obtain ⟨failed, status⟩ := x
    cases failed with
    | false => exact ih
    | true => rfl

/-! ### Steps 4 to 12 -/

section
variable (o : OpSpec) (h : Hdr) (f : Flight) (s : State)

/-- The epochs from the one in progress to that of the header (R126). -/
def epochsAhead : Nat := (h.epoch + 2 ^ 32 - s.time.epoch) % 2 ^ 32

/-- Step 11 as a table (R126, R157). -/
def windowTable : List (Bool × Byte) :=
  [(h.flags.getLsbD 6 && s.isWorker && !s.time.hasEpoch, stNotReady),
    (h.flags.getLsbD 6 && (epochsAhead h s == 0 || decide (2 ^ 31 ≤ epochsAhead h s)), stTooLate),
    (h.flags.getLsbD 6 && epochsAhead h s == 1 && decide (s.ticksLeft < 10 * Config.ticksPerUs), stTooLate),
    (h.flags.getLsbD 6 && decide (2 ^ 20 < epochsAhead h s), stTooEarly)]

/-- Steps 4 to 12 as a table (Table 06-2). -/
def receiptTable : List (Bool × Byte) :=
  [(decide ((h.flags &&& 0x9F) ≠ 0) || decide (64 ≤ h.target.toNat) || decide (128 ≤ h.tag.toNat) || h.tag == 0, stBadParam),
    (h.flags.getLsbD 5 && !h.chain && !(s.isManager && h.target == 0 && o.bcast), stBadParam),
    (!ownTarget h s && !(s.isManager && s.enumerated h.target.toNat), stTargetAbsent),
    (o.mqOnly && s.otp.partWq, stBadOpcode),
    (s.cmd.flights.any fun g => g.key.origin == h.origin && g.key.tag == h.tag.toNat, stTagInUse),
    (noTag h s, stNoTag),
    ((o.sched == .unscheduled && h.flags.getLsbD 6) || (o.sched == .scheduled && !h.flags.getLsbD 6)
      || (!h.flags.getLsbD 6 && h.epoch != 0), stBadParam)]
    ++ windowTable h s ++ [(queueFull f s, stQueueFull)]

/-- Step 10, by the Scheduling column and the flag. -/
theorem badScheduling_eq :
    badScheduling o h = ((o.sched == .unscheduled && h.flags.getLsbD 6) || (o.sched == .scheduled && !h.flags.getLsbD 6)
      || (!h.flags.getLsbD 6 && h.epoch != 0)) := by
  have named : decide (h.epoch ≠ 0) = (h.epoch != 0) := Bool.eq_iff_iff.mpr (decide_eq_true_iff.trans bne_iff_ne.symm)
  unfold badScheduling
  cases h.flags.getLsbD 6 with
  | true => cases o.sched <;> rfl
  | false =>
    cases o.sched with
    | scheduled => rfl
    | unscheduled | either => exact named

/-- Step 11 is its table. -/
theorem windowRefusal_eq : windowRefusal h s = firstLine (windowTable h s) := by
  unfold windowRefusal windowTable epochsAhead
  dsimp only
  generalize (h.epoch + 2 ^ 32 - s.time.epoch) % 2 ^ 32 = ahead
  cases h.flags.getLsbD 6 with
  | false => rfl
  | true =>
    simp only [firstLine_cons, firstLine_nil, Bool.true_and, Bool.not_true, Bool.false_eq_true, if_false, beq_eq_decide,
      decide_eq_true_eq, gt_iff_lt, ge_iff_le]

/-- Steps 4 to 12 are their table. -/
theorem receiptRefusal_eq : receiptRefusal o h f s = firstLine (receiptTable o h f s) := by
  rw [← firstOf_map_need, receiptTable, List.map_append, List.map_append, ← firstOf_append_firstOf_cons, firstOf_map_need,
    ← windowRefusal_eq, ← badScheduling_eq]
  rfl

end

/-- Taking the packet out of its buffer changes nothing that the table reads. -/
theorem receiptTable_heard (o : OpSpec) (h : Hdr) (p : List Byte) (s : State) (f : Flight) :
    receiptTable o h f (s.heard o h p) = receiptTable o h f s := rfl

/-! ### Undefined opcodes (R148) -/

/-- An undefined opcode fails at steps 4 to 6, or at step 7. -/
theorem undefinedAnswer_eq (h : Hdr) (s : State) :
    undefinedAnswer h s =
      if (h.flags &&& 0x9F) ≠ 0 ∨ 64 ≤ h.target.toNat ∨ 128 ≤ h.tag.toNat ∨ h.tag = 0 then [stBadParam]
      else if h.flags.getLsbD 5 = true ∧ h.chain = false ∧ ¬(s.isManager = true ∧ h.target = 0) then [stBadParam]
      else if absentTarget h s = true then [stTargetAbsent]
      else [stBadOpcode] := by
  have table : undefinedAnswer h s = (firstLine [(badHeader h, stBadParam),
      (h.flags.getLsbD 5 && !h.chain && !(s.isManager && h.target == 0), stBadParam), (absentTarget h s, stTargetAbsent)]).getD
        [stBadOpcode] :=
    congrArg (Option.getD · [stBadOpcode]) (firstOf_map_need [(_, _), (_, _), (_, _)])
  have header : badHeader h = true ↔ (h.flags &&& 0x9F) ≠ 0 ∨ 64 ≤ h.target.toNat ∨ 128 ≤ h.tag.toNat ∨ h.tag = 0 := by
    simp only [badHeader, Bool.or_eq_true, decide_eq_true_eq, beq_iff_eq, or_assoc, ge_iff_le]
  have spread : (h.flags.getLsbD 5 && !h.chain && !(s.isManager && h.target == 0)) = true ↔
      h.flags.getLsbD 5 = true ∧ h.chain = false ∧ ¬(s.isManager = true ∧ h.target = 0) := by
    simp only [Bool.and_eq_true, Bool.not_eq_true', ← Bool.not_eq_true, beq_iff_eq, and_assoc]
  simp only [table, firstLine_cons, firstLine_nil, header, spread, apply_ite (Option.getD · [stBadOpcode]), Option.getD_some,
    Option.getD_none]

/-- A request with an undefined opcode that reaches the engine. -/
theorem execUndefinedOpcode_of_receives {h : Hdr} {code : Nat} {p : List Byte} {s : State} (undefined : s.defines code = false)
    (e : receives h s = true) :
    let t := s.modCmd fun c => c.takeInbound h code p
    execUndefinedOpcode h code p s = .next (t.refuse (mkFlight s h code p) (undefinedAnswer h t)) := by
  have reached : receives h (s.modCmd fun c => c.takeInbound h code p) = true := e
  exact congrArg _ ((if_neg (Bool.eq_false_iff.mp undefined)).trans (if_pos reached))

/-! ### Damaged packets (R121, R122) -/

/-- A packet that reaches the engine loses its place in the buffer and meets checks 1 to 3. -/
theorem execMalformedPacket_of_hears {g : Origin} (n : Nat) (b : List Byte) {s : State} (heard : s.hears g = true) :
    let t := s.modCmd fun c => { c with inbox := c.inbox.erase { origin := g, node := n, bytes := b } }
    execMalformedPacket g n b s =
      if b.length < 16 ∨ getAt b 0 0 ≠ 0xA7 then .next (t.modCmd Cmd.countFraming)
      else if fieldAt b 6 2 + 16 ≠ b.length then .next (t.replyDamaged g n b stBadLength)
      else if crc32Good b = false then
        .next ((t.replyDamaged g n b stBadCrc).modCmd fun c => { c with crcErr := satAdd 255 c.crcErr 1 })
      else .next s := by
  simp only [execMalformedPacket, heard, Bool.not_true, Bool.false_eq_true, if_false, Bool.or_eq_true, decide_eq_true_eq,
    Bool.not_eq_true']

/-! ### The statement -/

/-- Settles O8: damaged packets check by check, undefined opcodes by their table, and requests by that of steps 4 to 12 and by step 13. -/
theorem receiptOrder : Obligations.ReceiptOrder := by
  refine ⟨fun g n b s heard => ?damaged, fun h code p s undefined e => ?undefined, fun c o h p s a e hears => ?refused,
    fun c o h p s a e hears passes single own check => ?own⟩
  case damaged =>
    have checks := execMalformedPacket_of_hears n b heard
    refine ⟨fun bad => ?framing, fun long magic length => ?length, fun long magic length crc => ?crc⟩
    case framing => exact checks.trans (if_pos bad)
    all_goals have whole : ¬(b.length < 16 ∨ getAt b 0 0 ≠ 0xA7) := not_or.mpr ⟨Nat.not_lt.mpr long, not_not.mpr magic⟩
    case length => exact checks.trans ((if_neg whole).trans (if_pos length))
    case crc => exact checks.trans ((if_neg whole).trans ((if_neg (not_not.mpr length)).trans (if_pos crc)))
  case undefined =>
    refine (execUndefinedOpcode_of_receives undefined e).trans ?_
    rw [undefinedAnswer_eq]
    rfl
  case refused =>
    intro f d later first
    have refusal : receiptRefusal o h f (s.heard o h p) = some [a] := by
      rw [receiptRefusal_eq, receiptTable_heard]
      obtain ⟨x, found, rfl⟩ := Option.map_eq_some_iff.mp first
      exact congrArg (Option.map fun x : Bool × Byte => [x.2]) found
    rw [exec_request e, receive_of_refused hears refusal]
  case own => rw [exec_request e, receive_of_own hears passes single own, receiveOwn_of_refused check]

end Sys2Proof.Machine
end

section
/-!
PROOF. O9 to O12: acceptance, what reaches the workers, requests that do not execute, and final answers.
-/
namespace Sys2Proof.Machine

variable {o : OpSpec} {h : Hdr} {p : List Byte} {s : State} {c : Instr} {f : Flight}

/-! ### Acceptance (R126, R127) -/

/-- Every opcode but CERT_LOAD is accepted in the usual way. -/
theorem accept_of_code_ne (e : requestOf c = some (o, h, p)) (k : o.code ≠ 0x0D05) : o.accept = State.answerAccepted := by
  cases c with
  | certLoad h p =>
    cases e
    exact absurd rfl k
  | _ => cases e <;> rfl

/-- A command that is no broadcast is answered ACCEPTED by one packet. -/
theorem State.answerAccepted_of_single (b : f.bcast = false) : s.answerAccepted f = s.replyFirst f (acceptedPayload f) :=
  if_neg (Bool.eq_false_iff.mp b)

/-- The ACCEPTED payload of a request that waits (Table 06-3). -/
theorem acceptedPayload_waitingOf (later : h.flags.getLsbD 6 = true) :
    acceptedPayload (waitingOf s o h p) =
      [stAccepted, BitVec.ofNat 8 (bit (decide (epochsAhead h s < 2))
        + 2 * bit (epochsAhead h s == 1 && decide (s.ticksLeft < 100 * Config.ticksPerUs)))] ++ le 4 s.time.epoch := by
  unfold epochsAhead
  simp only [acceptedPayload, waitingOf, flightOf, mkFlight, later, Bool.true_and]

/-- Settles O9: an admitted scheduled request is accepted by its opcode, and the payload is that of Table 06-3. -/
theorem scheduledRequestsAreAccepted : Obligations.ScheduledRequestsAreAccepted := by
  intro c o h p s e w code
  rw [w.exec e, accept_of_code_ne e code, State.answerAccepted_of_single w.admitted.single, acceptedPayload_waitingOf w.scheduled]
  rfl

/-! ### Workers (R125, R133, R328) -/

/-- Settles O10: a request for a worker is forwarded, and a broadcast is spread. -/
theorem requestsReachTheWorkers : Obligations.RequestsReachTheWorkers := by
  refine ⟨fun c o h p s e hears passes single far => ?forwarded, fun c o h p s e hears passes all => ?spread⟩
  case forwarded =>
    rw [exec_request e, receive_of_far hears passes single far]
    rfl
  case spread =>
    rw [exec_request e, receive_of_broadcast hears passes all]
    rfl

/-! ### Requests that do not execute (R123, R435) -/

/-- An opcode whose block or core is not ready. -/
theorem OpSpec.execute_of_notReady (k : o.notReady s = true) : o.execute s f = s.finish f [stNotReady] := if_pos k

/-- A stalled application core holds what needs Eupefen. -/
theorem OpSpec.execute_of_stalled (k : o.notReady s = false) (core : o.eupefen = true) (stalled : s.geode.stalled = true) :
    o.execute s f = s.modFlight f.key fun g => { g with phase := .held } := by
  simp only [OpSpec.execute, k, core, stalled, Bool.false_eq_true, if_false, Bool.and_self, if_true]

/-- An admitted unscheduled request is executed in the state that it has entered. -/
theorem Admitted.executes (a : Admitted o h p s) (now : h.flags.getLsbD 6 = false) :
    Machine.receive o h p s = o.execute (s.entered o h p) (flightOf s o h p) := by
  have unscheduled : (flightOf s o h p).sched = false := now
  rw [a.receive]
  simp only [receiveOwn, a.check, unscheduled, Bool.false_eq_true, if_false]
  rfl

/-- A command at its boundary is executed as its opcode says. -/
theorem State.executeFlight_of_spec (k : opSpec f.opcode = some o) : s.executeFlight f = o.execute s f := by
  simp only [State.executeFlight, k]

/-- Settles O11: a packet that is not heard is dropped, and at receipt as at the boundary readiness is tested before the stall. -/
theorem requestsThatDoNotExecute : Obligations.RequestsThatDoNotExecute := by
  refine ⟨fun c o h p s e deaf => ?dropped, fun c o h p s e a now => ?receipt, fun o s f spec => ?boundary⟩
  case dropped => rw [exec_request e, receive_of_not_receives deaf]
  case receipt =>
    rw [exec_request e, a.executes now]
    exact ⟨fun k => congrArg _ (OpSpec.execute_of_notReady (s := s.entered o h p) k),
      fun k core stalled => congrArg _ (OpSpec.execute_of_stalled (s := s.entered o h p) k core stalled)⟩
  case boundary =>
    rw [State.executeFlight_of_spec spec]
    exact ⟨OpSpec.execute_of_notReady, OpSpec.execute_of_stalled⟩

/-! ### Final answers (R124, R132) -/

/-- A final answer to a command that is no broadcast is its reply. -/
theorem State.finish_of_single (b : f.bcast = false) (a : Answer) : s.finish f a = s.replyFinal f a := if_neg (Bool.eq_false_iff.mp b)

/-- A reply to a command of a host interface joins its outbound queue. -/
theorem State.sendBack_of_iface {i : Nat} (k : Packet) (frees : Option FlightKey) (chain : f.key.chain = false)
    (iface : f.key.origin.iface = some i) :
    s.sendBack f k frees = s.modCmd fun c =>
      c.setOut i (c.out i ++ [{ pkt := k, node := f.node, isEvent := false, frees := frees }]) := by
  simp only [State.sendBack, chain, Bool.false_eq_true, if_false, iface]

/-- The final reply to a command of the chain leaves as a frame that keeps the tag. -/
theorem State.sendBack_of_chain (k : Packet) (key : FlightKey) (chain : f.key.chain = true) :
    s.sendBack f k (some key) = s.sendUp (.reply (packetFrame s.slolos.address f.key.origin k.bytes) key) :=
  if_pos chain

/-- A reply to the die's own Eupefen stays inside. -/
theorem State.sendBack_of_internal (k : Packet) (frees : Option FlightKey) (chain : f.key.chain = false)
    (origin : f.key.origin = .internal) : s.sendBack f k frees = s := by
  simp only [State.sendBack, chain, origin, Bool.false_eq_true, if_false, Origin.iface]

/-- The tag is freed at once only where the reply stays inside. -/
theorem State.replyFinal_of_internal (a : Answer) (chain : f.key.chain = false) (origin : f.key.origin = .internal) :
    s.replyFinal f a = s.dropFlight f.key := by
  simp only [State.replyFinal, State.sendBack_of_internal _ _ chain origin, chain, origin, Bool.not_false, beq_self_eq_true, Bool.and_self,
    if_true]

/-- Any other reply keeps it. -/
theorem State.replyFinal_of_outside (a : Answer) (outside : f.key.chain = true ∨ f.key.origin ≠ .internal) :
    s.replyFinal f a = (s.sendBack f (s.replyPacket f a) (some f.key)).modFlight f.key fun g => { g with phase := .replied } := by
  have keeps : ¬(!f.key.chain && f.key.origin == .internal) = true := by
    simpa only [Bool.and_eq_true, Bool.not_eq_true', beq_iff_eq, not_and, Bool.not_eq_false, Decidable.imp_iff_not_or,
      ne_eq] using outside
  exact if_neg keeps

/-- The packet that frees a tag has left. -/
theorem State.leftDie_of_frees {x : OutItem} {k : FlightKey} (e : x.frees = some k) : s.leftDie x = s.dropFlight k := by
  simp only [State.leftDie, e]

/-- Settles O12, by where the command came from. -/
theorem finalAnswers : Obligations.FinalAnswers := by
  intro s f a single k
  rw [State.finish_of_single single]
  refine ⟨fun i chain iface => ?host, fun chain => ?chain, fun chain origin => ?internal, fun x e => ?left⟩
  case host =>
    have outside : f.key.origin ≠ .internal := by
      rintro e
      rw [e] at iface
      cases iface
    rw [State.replyFinal_of_outside a (.inr outside), State.sendBack_of_iface _ _ chain iface]
    rfl
  case chain =>
    rw [State.replyFinal_of_outside a (.inl chain), State.sendBack_of_chain _ _ chain]
    rfl
  case internal => exact State.replyFinal_of_internal a chain origin
  case left => exact State.leftDie_of_frees e

end Sys2Proof.Machine
end

section
/-!
PROOF. O13 and O14: the opcodes of Table 06-12, and CANCEL by the command that it names.
-/
namespace Sys2Proof.Machine

/-- Settles O13, opcode by opcode, by what each runs. -/
theorem commandEngineOpcodes : Obligations.CommandEngineOpcodes := by
  refine ⟨?echo, ?dieInfo, ?eventRoute, ?canConfig, ?cmdStats⟩
  case echo => exact Performs.of_run (fun _ _ => rfl) fun _ _ _ => rfl
  case dieInfo => exact Performs.of_run (fun _ _ => rfl) fun _ _ _ => rfl
  case eventRoute => exact Performs.of_run (fun _ _ => rfl) fun _ _ _ => rfl
  case canConfig => exact Performs.of_run (fun _ _ => rfl) fun _ _ _ => rfl
  case cmdStats => exact Performs.of_run (fun _ _ => rfl) fun _ _ _ => rfl

/-! ### CANCEL (R129) -/

/-- The CANCEL that goes down for a broadcast names its tag on the die that receives it. -/
def State.cancelDown (s : State) (f g : Flight) : State :=
  g.queues.foldl (fun u k => u.sendDown (.packet (packetFrame k f.key.origin
    ({ f with payload := [0, BitVec.ofNat 8 g.key.tag] }.bytes 0)))) s

section
variable {s : State} {f g : Flight}

theorem runCancel_of_none (named : s.cancelNamed f = none) : runCancel s f = (s, some [stBadParam]) := by
  simp only [runCancel, named, answer]

variable (named : s.cancelNamed f = some g)
include named

/-- A command of this die, or a broadcast, cannot be cancelled shortly before its boundary. -/
theorem runCancel_of_late (here : g.bcast = true ∨ g.phase ≠ .forwarded) (late : s.cancelLate g = true) :
    runCancel s f = (s, some [stTooLate]) := by
  cases all : g.bcast with
  | true => simp only [runCancel, named, all, late, if_true, answer]
  | false =>
    have own : (g.phase == .forwarded) = false := beq_false_of_ne (here.resolve_left (Bool.eq_false_iff.mp all))
    simp only [runCancel, named, all, own, late, Bool.false_eq_true, if_false, if_true, answer]

theorem runCancel_of_own (single : g.bcast = false) (own : g.phase ≠ .forwarded) (inTime : s.cancelLate g = false) :
    runCancel s f = (s.supersede g, some [stOk]) := by
  simp only [runCancel, named, single, beq_false_of_ne own, inTime, Bool.false_eq_true, if_false, okay]

/-- A command that was sent on to a worker is cancelled there. -/
theorem runCancel_of_forwarded (single : g.bcast = false) (sent : g.phase = .forwarded) :
    runCancel s f = ((s.modFlight f.key fun x => { x with phase := .forwarded }).sendDown
      (.packet (packetFrame g.target f.key.origin (f.bytes g.target))), none) := by
  simp only [runCancel, named, single, sent, Bool.false_eq_true, if_false, beq_self_eq_true, if_true, later]

/-- A broadcast is cancelled on every die that holds it. -/
theorem runCancel_of_broadcast (all : g.bcast = true) (inTime : s.cancelLate g = false) :
    runCancel s f = (if g.phase = .waiting then (s.cancelDown f g).supersede g else s.cancelDown f g, some [stOk]) := by
  simp only [runCancel, named, all, inTime, Bool.false_eq_true, if_false, if_true, okay, beq_iff_eq]
  rfl

end

/-- Settles O14: CANCEL by the command that it names, which is this die's, a worker's, or a broadcast. -/
theorem cancelRemovesAPendingCommand : Obligations.CancelRemovesAPendingCommand := by
  intro h p s r t f
  refine ⟨fun named => r.finishes rfl (runCancel_of_none named), fun g named => ⟨?late, ?own, ?forwarded, ?lateAll, ?all⟩⟩
  case late => exact fun _ own late => r.finishes rfl (runCancel_of_late named (.inr own) late)
  case own => exact fun single own inTime => r.finishes rfl (runCancel_of_own named single own inTime)
  case forwarded => exact fun single sent => r.starts rfl (runCancel_of_forwarded named single sent)
  case lateAll => exact fun all late => r.finishes rfl (runCancel_of_late named (.inl all) late)
  case all => exact fun all inTime => r.finishes rfl (runCancel_of_broadcast named all inTime)

end Sys2Proof.Machine
end

section
/-!
PROOF. O41: packet transactions of the SPI target (R137 to R139).
-/
namespace Sys2Proof.Machine

variable (s : State)

/-! ### The start of a transaction -/

section
variable {s}

/-- A pending access makes the die ignore a transaction (R72). -/
theorem State.statusByte_of_clear (clear : s.sys.hung = none) :
    s.statusByte = if s.isReady .cmd then
      BitVec.ofNat 8 (0x80 + 0x40 * bit (!s.cmd.outSpi.isEmpty) + 0x20 * bit (decide (s.cmd.spiHeld < Config.spiBuffers))
        + 0x10 * bit s.cmd.discarded) else 0 := by
  cases ready : s.isReady .cmd <;> simp only [State.statusByte, clear, ready] <;> rfl

/-- Reading the status byte clears DISCARDED. -/
theorem State.spiBegin_of_clear (clear : s.sys.hung = none) :
    s.spiBegin = if s.isReady .cmd then { s with cmd := { s.cmd with discarded := false } } else s := by
  simp only [State.spiBegin, clear, Option.isNone_none, Bool.true_and]
  rfl

theorem not_hung_of_clear (clear : s.sys.hung = none) : ¬s.sys.hung.isSome = true := by
  rw [clear, Option.isSome_none]
  exact Bool.false_ne_true

/-! ### WRITE_PACKET -/

theorem State.writePacket_of_hung (b : List Byte) (hung : s.sys.hung.isSome = true) :
    s.writePacket b = s.sendMiso (List.replicate (1 + b.length) 0xFF) := if_pos hung

/-- The packet is too long, CMD is not ready, a buffer is free, or none is. -/
theorem State.writePacket_of_clear (b : List Byte) (clear : s.sys.hung = none) :
    let t := s.spiBegin.sendMiso (s.statusByte :: zeros b.length)
    s.writePacket b =
      if 1040 < b.length then t.modCmd Cmd.countFraming
      else if s.isReady .cmd = false then t
      else if s.cmd.spiHeld < Config.spiBuffers then
        t.modCmd fun c => { c with inbox := c.inbox ++ [{ origin := .spi, node := 0, bytes := b }] }
      else t.modCmd fun c => { c with discarded := true } := by
  refine (if_neg (not_hung_of_clear clear)).trans (ite_congr rfl (fun _ => rfl) fun _ => ?_)
  cases ready : s.isReady .cmd with
  | false => simp only [Bool.not_false, if_true]
  | true =>
    by_cases space : s.cmd.spiHeld < Config.spiBuffers <;>
      simp only [Cmd.inSpace, space, decide_true, decide_false, Bool.not_true, Bool.not_false, Bool.false_eq_true, Bool.true_eq_false,
        if_true, if_false]

/-! ### READ_PACKET -/

theorem State.readPacket_of_hung (n : Nat) (hung : s.sys.hung.isSome = true) :
    s.readPacket n = s.sendMiso (List.replicate (1 + n) 0xFF) := if_pos hung

/-- With nothing to read, zeros follow the status byte. -/
theorem State.readPacket_of_empty (n : Nat) (clear : s.sys.hung = none) (empty : s.isReady .cmd = false ∨ s.cmd.outSpi = []) :
    s.readPacket n = s.spiBegin.sendMiso (s.statusByte :: zeros n) := by
  rw [State.readPacket, if_neg (not_hung_of_clear clear)]
  obtain e | e := empty
  · simp only [e]
  · cases ready : s.isReady .cmd <;> simp only [e]

/-- The oldest packet is sent, and leaves once its last byte has been clocked out. -/
theorem State.readPacket_of_waiting (n : Nat) {x : OutItem} {r : List OutItem} (clear : s.sys.hung = none)
    (ready : s.isReady .cmd = true) (waiting : s.cmd.outSpi = x :: r) :
    let t := s.spiBegin.sendMiso (s.statusByte :: ((0 : Byte) :: x.pkt.bytes ++ zeros n).take n)
    s.readPacket n = if n ≤ x.pkt.bytes.length then t
      else ((t.modCmd fun c => { c with outSpi := r }).leftDie x).eventsLost 0 := by
  simp only [State.readPacket, if_neg (not_hung_of_clear clear), ready, waiting]
  by_cases short : n ≤ x.pkt.bytes.length
  · rw [if_pos short, if_neg (Nat.not_lt.mpr short)]
  · rw [if_neg short, if_pos (Nat.not_le.mp short)]

end

/-! ### The command byte (R137) -/

/-- A command byte that Table 06-5 does not give. -/
theorem execWritePacket_of_unknown {c : Nat} (b : List Byte) (unknown : c = 0 ∨ 5 < c) :
    execWritePacket ⟨c, b⟩ s = .next (s.unknownCommand b.length) := by
  have packet : ¬c = packetCommand := by
    simp only [packetCommand]
    omega
  have other : ¬spiCommand c = true := by
    simp only [spiCommand, Bool.and_eq_true, decide_eq_true_eq]
    omega
  exact (if_neg packet).trans (if_neg other)

/-- A command byte of another row. -/
theorem execWritePacket_of_other {c : Nat} (b : List Byte) (low : 2 ≤ c) (high : c ≤ 5) :
    execWritePacket ⟨c, b⟩ s = .next s := by
  have packet : ¬c = packetCommand := by
    simp only [packetCommand]
    omega
  have other : spiCommand c = true := by
    simp only [spiCommand, Bool.and_eq_true, decide_eq_true_eq]
    omega
  exact (if_neg packet).trans (if_pos other)

/-! ### The statement -/

/-- Settles O41, transaction by transaction, by whether an access waits. -/
theorem packetTransactions : Obligations.PacketTransactions := by
  refine ⟨fun b s hung => ?writeHung, fun n s hung => ?readHung, fun s hung => ?statusHung, fun s clear => ?status,
    fun c b s unknown => ?unknown, fun c b s low high => ?other, fun s clear => ?start, fun b s clear => ?write,
    fun n s clear empty => ?readEmpty, fun n s x r clear ready waiting => ?read⟩
  case writeHung => exact congrArg _ (State.writePacket_of_hung b hung)
  case readHung => exact congrArg _ (State.readPacket_of_hung n hung)
  case statusHung => exact congrArg _ (if_pos hung)
  case status => exact congrArg _ (if_neg (not_hung_of_clear clear))
  case unknown => exact execWritePacket_of_unknown s b unknown
  case other => exact execWritePacket_of_other s b low high
  case start => exact ⟨State.spiBegin_of_clear clear, State.statusByte_of_clear clear⟩
  case write => exact congrArg _ (State.writePacket_of_clear b clear)
  case readEmpty => exact congrArg _ (State.readPacket_of_empty n clear empty)
  case read => exact congrArg _ (State.readPacket_of_waiting n clear ready waiting)

end Sys2Proof.Machine
end

section
/-!
PROOF. O42: the register window (R140, R146).
-/
namespace Sys2Proof.Machine

variable {s : State}

/-! ### Reads -/

theorem State.windowRead_of_hung (a n : Nat) (hung : s.sys.hung.isSome = true) :
    s.windowRead a n = s.sendMiso (List.replicate (6 + 5 * n) 0xFF) := if_pos hung

/-- A count of words that no burst has. -/
theorem State.windowRead_of_badCount (a : Nat) {n : Nat} (clear : s.sys.hung = none) (bad : n = 0 ∨ 16 < n) :
    s.windowRead a n = (s.spiBegin.modCmd Cmd.countFraming).sendMiso [s.statusByte] := by
  have refused : (decide (n = 0) || decide (16 < n)) = true := by simpa only [Bool.or_eq_true, decide_eq_true_eq] using bad
  exact (if_neg (not_hung_of_clear clear)).trans (if_pos refused)

/-- A burst returns its words, each behind its result byte. -/
theorem State.windowRead_of_burst (a : Nat) {n : Nat} (clear : s.sys.hung = none) (low : 1 ≤ n) (high : n ≤ 16) :
    let w := windowAddress a
    let x := s.spiBegin.burst w n w
    s.windowRead a n = x.1.sendMiso (s.statusByte ::
      (zeros 5 ++ [0xFF] ++ (x.2.1.map fun v => (0x5A : Byte) :: le 4 v).flatten ++ (if x.2.2 then [] else [0xFF]))) := by
  have good : ¬(decide (n = 0) || decide (16 < n)) = true := by
    simp only [Bool.or_eq_true, decide_eq_true_eq]
    omega
  exact (if_neg (not_hung_of_clear clear)).trans (if_neg good)

/-- Beyond its block a burst reads zero. -/
theorem State.burst_of_beyond {base n a : Nat} (beyond : a / 2 ^ 16 ≠ base / 2 ^ 16) :
    s.burst base (n + 1) a =
      ((s.burst base n (a + 4)).1, 0 :: (s.burst base n (a + 4)).2.1, (s.burst base n (a + 4)).2.2) := by
  rw [State.burst, if_neg beyond]

theorem State.burst_of_word {base n a v : Nat} {t : State} (within : a / 2 ^ 16 = base / 2 ^ 16) (word : s.readWord a = some (v, t)) :
    s.burst base (n + 1) a =
      ((t.burst base n (a + 4)).1, v :: (t.burst base n (a + 4)).2.1, (t.burst base n (a + 4)).2.2) := by
  rw [State.burst, if_pos within, word]

/-- An access that waits ends the burst. -/
theorem State.burst_of_stopped {base n a : Nat} (within : a / 2 ^ 16 = base / 2 ^ 16) (stopped : s.readWord a = none) :
    s.burst base (n + 1) a = ({ s with sys := { s.sys with
      hung := (blockOf (a / 2 ^ 16)).map fun b => { block := b, address := a, write := none } } }, [], false) := by
  rw [State.burst, if_pos within, stopped]

/-! ### One word -/

theorem State.readWord_of_unmapped {a : Nat} (unmapped : blockOf (a / 2 ^ 16) = none) : s.readWord a = some (0, s) := by
  rw [State.readWord, unmapped]

theorem State.readWord_of_block {a : Nat} {b : Block} (block : blockOf (a / 2 ^ 16) = some b) :
    s.readWord a =
      if s.fused b = true ∨ regDefined b (a % 2 ^ 16) = false then some (0, s)
      else if s.lc = .scrapped ∧ b ≠ .sys ∧ a ≠ 0xF0000 then some (0, s)
      else if s.windowOpen b = false then none
      else some (s.readReg b (a % 2 ^ 16)) := by
  rw [State.readWord, block]
  simp only [Bool.or_eq_true, Bool.and_eq_true, Bool.not_eq_true', beq_iff_eq, bne_iff_ne, decide_eq_true_eq, and_assoc]

/-- An access does not wait on SYS, nor with CMD ready on a block that runs. -/
theorem State.windowOpen_iff (b : Block) : s.windowOpen b = true ↔ b = .sys ∨ (s.isReady .cmd = true ∧ s.blockRuns b = true) := by
  simp only [State.windowOpen, Bool.or_eq_true, Bool.and_eq_true, beq_iff_eq]

/-! ### Writes -/

/-- What a write does to a word: carried out or ignored, refused, or none where it waits. -/
theorem State.writeWord_of_unmapped {w v : Nat} (unmapped : blockOf (w / 2 ^ 16) = none) :
    s.writeWord w v = some (false, s.refuseWrite) := by
  rw [State.writeWord, unmapped]

section
variable {w v : Nat} {b : Block} (block : blockOf (w / 2 ^ 16) = some b)
include block

theorem State.writeWord_of_fused (fused : s.fused b = true) : s.writeWord w v = some (true, s) := by
  simp only [State.writeWord, block, fused, if_true]

variable (whole : s.fused b = false)
include whole

theorem State.writeWord_of_scrapped (lc : s.lc = .scrapped) : s.writeWord w v = some (false, s.refuseWrite) := by
  simp only [State.writeWord, block, whole, lc, beq_self_eq_true, if_true, Bool.false_eq_true, if_false]

variable (lc : s.lc ≠ .scrapped)
include lc

theorem State.writeWord_of_stopped (stopped : s.windowOpen b = false) : s.writeWord w v = none := by
  simp only [State.writeWord, block, whole, beq_false_of_ne lc, stopped, Bool.false_eq_true, if_false, Bool.not_false, if_true]

/-- A write that meets a running block is that of the block, or refused. -/
theorem State.writeWord_of_open (running : s.windowOpen b = true) :
    s.writeWord w v = some (((s.writeReg b (w % 2 ^ 16) v).map fun t => (true, t)).getD (false, s.refuseWrite)) := by
  simp only [State.writeWord, block, whole, beq_false_of_ne lc, running, Bool.false_eq_true, if_false, Bool.not_true]
  cases s.writeReg b (w % 2 ^ 16) v <;> rfl

end

theorem State.windowWrite_of_hung (a v : Nat) (hung : s.sys.hung.isSome = true) :
    s.windowWrite a v = s.sendMiso (List.replicate 10 0xFF) := if_pos hung

/-- The transaction of a write that does not wait, with its result byte. -/
theorem State.windowWrite_of_done {a v : Nat} {ok : Bool} {t : State} (clear : s.sys.hung = none)
    (done : s.spiBegin.writeWord (windowAddress a) (v % 2 ^ 32) = some (ok, t)) :
    s.windowWrite a v = t.sendMiso (s.statusByte :: (zeros 8 ++ [0xFF, if ok then 0x5A else 0xE1])) := by
  simp only [State.windowWrite, if_neg (not_hung_of_clear clear), done]
  rfl

/-- That of one that waits. -/
theorem State.windowWrite_of_stopped {a v : Nat} {b : Block} (clear : s.sys.hung = none)
    (block : blockOf (windowAddress a / 2 ^ 16) = some b)
    (stopped : s.spiBegin.writeWord (windowAddress a) (v % 2 ^ 32) = none) :
    let t := s.spiBegin
    s.windowWrite a v = ({ t with sys := { t.sys with
      hung := some { block := b, address := windowAddress a, write := some (v % 2 ^ 32) } } }).sendMiso
        (s.statusByte :: (zeros 8 ++ [0xFF])) := by
  simp only [State.windowWrite, if_neg (not_hung_of_clear clear), stopped, block, Option.map_some]
  rfl

/-! ### The statement -/

/-- Settles O42: a transaction by what its words do, and a word by its block. -/
theorem windowAccesses : Obligations.WindowAccesses := by
  refine ⟨fun a n s hung => ?readHung, fun a v s hung => ?writeHung, fun a n s clear bad => ?badCount,
    fun a n s clear low high => ?burst, fun s base a => ?burstEnd, fun s base n a => ⟨?beyond, ?word, ?stopped⟩,
    fun s a => State.readWord_of_unmapped, fun s a b => State.readWord_of_block, fun s => State.windowOpen_iff,
    fun a v s clear => ⟨?unmapped, ?block⟩⟩
  case readHung => exact congrArg _ (State.windowRead_of_hung a n hung)
  case writeHung => exact congrArg _ (State.windowWrite_of_hung a v hung)
  case badCount => exact congrArg _ (State.windowRead_of_badCount a clear bad)
  case burst => exact congrArg _ (State.windowRead_of_burst a clear low high)
  case burstEnd => rfl
  case beyond => exact State.burst_of_beyond
  case word => exact fun within v t => State.burst_of_word within
  case stopped => exact State.burst_of_stopped
  case unmapped => exact fun unmapped => congrArg _ (State.windowWrite_of_done clear (State.writeWord_of_unmapped unmapped))
  case block =>
    refine fun b block => ⟨fun fused => ?fused, fun whole lc => ?scrapped, fun whole lc stopped => ?waits, fun whole lc running => ?done⟩
    case fused => exact congrArg _ (State.windowWrite_of_done clear (State.writeWord_of_fused block fused))
    case scrapped => exact congrArg _ (State.windowWrite_of_done clear (State.writeWord_of_scrapped block whole lc))
    case waits => exact congrArg _ (State.windowWrite_of_stopped clear block (State.writeWord_of_stopped block whole lc stopped))
    case done =>
      refine (congrArg _ (State.windowWrite_of_done clear (State.writeWord_of_open block whole lc running))).trans ?_
      change _ = (match s.spiBegin.writeReg b (windowAddress a % 2 ^ 16) (v % 2 ^ 32) with
        | some u => _
        | none => _)
      cases s.spiBegin.writeReg b (windowAddress a % 2 ^ 16) (v % 2 ^ 32) <;> rfl

end Sys2Proof.Machine
end

section
/-!
PROOF. O44: the CAN FD binding (R142 to R144, R149).
-/
namespace Sys2Proof.Machine

variable {s : State} {i : Nat}

/-! ### The two controllers -/

/-- What a change of a controller reads back. -/
theorem Cmd.can_setCan {c : Cmd} (x : CanCtl) (h : i < 2) : (c.setCan i x).can i = x := by
  obtain rfl | rfl : i = 0 ∨ i = 1 := by omega
  · rfl
  · rfl

/-! ### Frames received -/

/-- A frame that the controller does not take: it is off, the frame is no CAN FD frame, or it is not of the binding to this node. -/
theorem execCanFrameReceived_of_ignored {ident : Nat} {fd : Bool} (hd : Byte) (d : List Byte)
    (ignored : ¬(i < 2 ∧ s.isReady .cmd = true ∧ s.canOn i = true ∧ fd = true ∧ ident / 2 ^ 16 % 2 ^ 13 = (s.cmd.can i).base ∧
      ident % 256 = (s.cmd.can i).ownNode)) : execCanFrameReceived i ident fd (hd :: d) s = .next s := by
  refine congrArg _ (if_neg ?_)
  simpa only [CanCtl.accepts, Bool.and_eq_true, decide_eq_true_eq, beq_iff_eq, and_assoc] using ignored

/-- One that it takes is a segment of its source. -/
theorem execCanFrameReceived_of_taken {ident : Nat} (hd : Byte) (d : List Byte) (low : i < 2) (ready : s.isReady .cmd = true)
    (on : s.canOn i = true) (base : ident / 2 ^ 16 % 2 ^ 13 = (s.cmd.can i).base) (node : ident % 256 = (s.cmd.can i).ownNode) :
    execCanFrameReceived i ident true (hd :: d) s = .next (s.canSegment i (ident / 256 % 256) hd d) := by
  refine congrArg _ (if_pos ?_)
  simp only [CanCtl.accepts, Bool.and_eq_true, decide_eq_true_eq, beq_iff_eq, and_assoc]
  exact ⟨low, ready, on, trivial, base, node⟩

section
variable (s i) (n : Nat) (hd : Byte) (d : List Byte)

/-- The reassembly of a source. -/
def State.canOpen : Option Reass := (s.cmd.can i).reass.find? fun r => r.node == n

/-- A first segment ends a reassembly of its source, and begins another where it has number 0 and there is room (log 24). -/
theorem State.canSegment_of_first (first : hd.getLsbD 7 = true) :
    let t := if (s.canOpen i n).isSome then s.canDiscard i n else s
    s.canSegment i n hd d =
      if hd.toNat % 64 ≠ 0 ∨ 4 ≤ (t.cmd.can i).reass.length then t.modCmd Cmd.countFraming
      else t.canStore i { node := n, next := 1, bytes := d } (hd.getLsbD 6) (d.length + 1) := by
  simp only [State.canSegment, first, Bool.or_eq_true, decide_eq_true_eq]
  rfl

variable (further : hd.getLsbD 7 = false)
include further

/-- A further segment without a reassembly is ignored (log 24). -/
theorem State.canSegment_of_none (closed : s.canOpen i n = none) : s.canSegment i n hd d = s := by
  have e : (s.cmd.can i).reass.find? (fun r => r.node == n) = none := closed
  simp only [State.canSegment, further, e]

/-- The next segment extends its reassembly, and any other discards it. -/
theorem State.canSegment_of_some {r : Reass} (opened : s.canOpen i n = some r) :
    s.canSegment i n hd d =
      if hd.toNat % 64 = r.next then
        s.canStore i { r with next := (hd.toNat % 64 + 1) % 64, bytes := r.bytes ++ d } (hd.getLsbD 6) (d.length + 1)
      else s.canDiscard i n := by
  have e : (s.cmd.can i).reass.find? (fun r => r.node == n) = some r := opened
  simp only [State.canSegment, further, e]

omit further in
/-- The reassembly found is that of its source. -/
theorem State.node_of_canOpen {r : Reass} (opened : s.canOpen i n = some r) : r.node = n :=
  beq_iff_eq.mp (List.find?_some (p := fun r : Reass => r.node == n) opened)

end

/-- A reassembly that has grown takes the place of its source's; the last segment hands the packet to the engine. -/
theorem State.canStore_of_node {q : Reass} {n len : Nat} {isLast : Bool} (t : State) (e : q.node = n) :
    t.canStore i q isLast len =
      let rest := (t.cmd.can i).reass.filter fun y => y.node != n
      if isLast then t.modCmd fun c =>
        { c.setCan i { c.can i with reass := rest } with
          inbox := c.inbox ++ [{ origin := if i = 0 then .can0 else .can1, node := n, bytes := canTrim q.bytes len }] }
      else t.modCmd fun c => c.setCan i { c.can i with reass := rest ++ [q] } := by
  subst e
  rfl

/-! ### Timeouts and bus-off -/

theorem execCanReassemblyTimeout_eq (n : Nat) :
    execCanReassemblyTimeout i n s =
      .next (if i < 2 ∧ ((s.cmd.can i).reass.any fun r => r.node == n) = true then s.canDiscard i n else s) := by
  simp only [execCanReassemblyTimeout, Bool.and_eq_true, decide_eq_true_eq]

theorem execCanBusOff_eq :
    execCanBusOff i s = .next (if i < 2 ∧ s.canOn i = true then
      s.modCmd fun c => c.setCan i { c.can i with busOff := true } else s) := by
  simp only [execCanBusOff, Bool.and_eq_true, decide_eq_true_eq]

theorem execCanBusOffRecovery_eq :
    execCanBusOffRecovery i s = .next (if i < 2 ∧ (s.cmd.can i).busOff = true then
      (s.modCmd fun c => c.setCan i { c.can i with busOff := false }).modCmd Cmd.countFraming else s) := by
  simp only [execCanBusOffRecovery, Bool.and_eq_true, decide_eq_true_eq]

/-! ### Frames sent -/

/-- The data length of a frame with its segment header. -/
theorem canLength_succ (n : Nat) :
    canLength (n + 1) = if n < 8 then n + 1
      else (([12, 16, 20, 24, 32, 48, 64] : List Nat).find? (n + 1 ≤ ·)).getD 64 := rfl

/-- The frame sent: the identifier of R143, the segment header, up to 63 bytes, and the padding. -/
theorem CanCtl.send_eq (c : CanCtl) (x : OutItem) :
    let n := (x.pkt.bytes.length + 62) / 63
    let d := slice x.pkt.bytes (63 * c.sent) 63
    let length := if d.length < 8 then d.length + 1
      else (([12, 16, 20, 24, 32, 48, 64] : List Nat).find? (d.length + 1 ≤ ·)).getD 64
    c.send x = { c with
      sent := c.sent + 1
      frame := some
        { ident := c.base * 2 ^ 16 + c.ownNode * 2 ^ 8 + x.node
          bytes := BitVec.ofNat 8 (128 * bit (c.sent == 0) + 64 * bit (c.sent + 1 == n) + c.sent % 64) :: d
            ++ zeros (length - (d.length + 1)) } } := by
  simp only [CanCtl.send, canData, canLength_succ]
  rfl

/-- A controller that is off, or has nothing to send, sends nothing. -/
theorem execCanFrameTransmitted_of_idle (idle : ¬(i < 2 ∧ s.canOn i = true) ∨ s.cmd.out (i + 1) = []) :
    execCanFrameTransmitted i s = .next s := by
  obtain off | empty := idle
  · exact if_neg (by simpa only [Bool.and_eq_true, decide_eq_true_eq] using off)
  · simp only [execCanFrameTransmitted, empty, ite_self]

/-- The next frame of the oldest packet goes out, and with its last the packet has left. -/
theorem execCanFrameTransmitted_of_waiting {x : OutItem} {r : List OutItem} (low : i < 2) (on : s.canOn i = true)
    (waiting : s.cmd.out (i + 1) = x :: r) :
    let t := s.modCmd fun c => c.setCan i ((s.cmd.can i).send x)
    execCanFrameTransmitted i s =
      .next (if canCount x.pkt.bytes.length ≤ (s.cmd.can i).sent + 1 then t.canSent i x r else t) := by
  have sent : ((s.modCmd fun c => c.setCan i ((c.can i).send x)).cmd.can i).sent = (s.cmd.can i).sent + 1 :=
    congrArg CanCtl.sent (Cmd.can_setCan _ low)
  simp only [execCanFrameTransmitted, low, on, decide_true, Bool.and_self, if_true, waiting, sent]
  rfl

/-! ### The statement -/

/-- Settles O44: a frame received by its segment header, and each other event by its equation. -/
theorem canBinding : Obligations.CanBinding := by
  refine ⟨fun _ _ _ _ => rfl, fun i ident fd hd d s ignored => execCanFrameReceived_of_ignored hd d ignored,
    fun i ident hd d s low ready on base node => ?taken, fun i n s => execCanReassemblyTimeout_eq n, fun i s => execCanBusOff_eq,
    fun i s => execCanBusOffRecovery_eq, fun i s idle => execCanFrameTransmitted_of_idle idle,
    fun i s x r low on waiting => ?sent⟩
  case taken =>
    intro n opened others drop store
    refine (execCanFrameReceived_of_taken hd d low ready on base node).trans (congrArg _ ?_)
    have stored : ∀ (t : State) (q : Reass), q.node = n → t.canStore i q (hd.getLsbD 6) (d.length + 1) = store t q :=
      fun t q e => State.canStore_of_node t e
    cases first : hd.getLsbD 7 with
    | true =>
      rw [if_pos rfl]
      exact (State.canSegment_of_first s i n hd d first).trans (ite_congr rfl (fun _ => rfl) fun _ => stored _ _ rfl)
    | false =>
      rw [if_neg Bool.false_ne_true]
      cases found : s.canOpen i n with
      | none =>
        rw [show opened = none from found]
        exact State.canSegment_of_none s i n hd d first found
      | some q =>
        have source : q.node = n := State.node_of_canOpen s i n found
        rw [show opened = some q from found]
        exact (State.canSegment_of_some s i n hd d first found).trans
          (ite_congr rfl (fun _ => stored _ _ source) fun _ => rfl)
  case sent =>
    intro c n d length t
    refine (execCanFrameTransmitted_of_waiting low on waiting).trans ?_
    rw [CanCtl.send_eq]
    rfl

end Sys2Proof.Machine
end

section
/-!
PROOF. O16: the opcodes of the epochs (R128, R164), of the timers, and TIME_READ (R414).
-/
namespace Sys2Proof.Machine

/-- A row applies `e` at its boundary and is answered `a` there if its opcode's `run` does so in every state; ACCEPTED is the usual
acceptance. -/
theorem Applies.of_run {c : Hdr → List Byte → Instr} {o : OpSpec} {e : State → Flight → State} {a : State → Flight → Answer}
    (request : ∀ h p, requestOf (c h p) = some (o, h, p)) (spec : opSpec o.code = some o)
    (accept : o.accept = State.answerAccepted) (run : ∀ s f, o.run s f = (e s f, some (a s f))) : Applies c o e a := by
  refine ⟨fun h p s w => ?_, fun s f x => x.finishes spec (run s f)⟩
  rw [w.exec (request h p), accept]

/-! ### EPOCH_SET_LENGTH -/

/-- Another for the same epoch stands: this one changes nothing (R128, log 59). -/
theorem opEpochSetLength_run_of_later {s : State} {f : Flight} (h : s.laterLength f = true) :
    opEpochSetLength.run s f = (s, some [stSuperseded]) := by
  simp only [opEpochSetLength, if_pos h, answer]

/-- The last one applied sets the length of the epoch that opens (R152). -/
theorem opEpochSetLength_run_of_last {s : State} {f : Flight} (h : ¬s.laterLength f = true) :
    opEpochSetLength.run s f = ({ s with time := { s.time with length := fieldAt f.payload 0 2 } }, some [stOk]) := by
  simp only [opEpochSetLength, if_neg h, okay, State.modTime]

/-- Both together, as the statement has them. -/
theorem opEpochSetLength_run_eq (s : State) (f : Flight) :
    opEpochSetLength.run s f =
      (if s.laterLength f then s else { s with time := { s.time with length := fieldAt f.payload 0 2 } },
        some (if s.laterLength f then [stSuperseded] else [stOk])) := by
  split
  next h => exact opEpochSetLength_run_of_later h
  next h => exact opEpochSetLength_run_of_last h

/-! ### TIMER_CONFIG -/

/-- The timer's control fields and its four values, all from the payload (Table 17-19); captures and counts stay. -/
theorem Timer.config_eq (t : Timer) (p : List Byte) :
    t.config p = { t with
      filter := BitVec.ofNat 8 (fieldAt p 4 4 / 2 ^ 12)
      edge := BitVec.ofNat 2 (fieldAt p 4 4 / 2 ^ 10)
      capSel := BitVec.ofNat 3 (fieldAt p 4 4 / 2 ^ 7)
      eventEn := (fieldAt p 4 4).testBit 6
      wakeEn := (fieldAt p 4 4).testBit 5
      armed := (fieldAt p 4 4).testBit 4
      source := BitVec.ofNat 2 (fieldAt p 4 4 / 4)
      count := fieldAt p 8 4
      period := fieldAt p 12 4
      compare := fieldAt p 16 4 % (fieldAt p 12 4 + 1)
      interval := fieldAt p 20 4 } := rfl

/-- TIMER_CONFIG sets the timer that its payload names, and is answered OK. -/
theorem opTimerConfig_run_eq (s : State) (f : Flight) :
    opTimerConfig.run s f = (s.modTime fun y =>
      y.setTimer (byteAt f.payload 0) ((y.timer (byteAt f.payload 0)).config f.payload), some [stOk]) := rfl

/-! ### The statement -/

/-- Settles O16, opcode by opcode: what its `run` answers decides both its execution at receipt and that at its boundary. -/
theorem timeOpcodes : Obligations.TimeOpcodes := by
  refine ⟨⟨?epochStatus, ?epochSetLength⟩, ?timerConfig, ?timerConfigLater, ?timerStatus, ?timerCaptures, ?timeRead⟩
  case epochStatus => exact Performs.of_run (fun _ _ => rfl) fun _ _ _ => rfl
  case epochSetLength => exact Applies.of_run (fun _ _ => rfl) rfl rfl opEpochSetLength_run_eq
  case timerConfig =>
    refine Performs.of_run (fun _ _ => rfl) fun s f _ => ?_
    simp only [opTimerConfig_run_eq, Timer.config_eq]
  case timerConfigLater =>
    refine Applies.of_run (fun _ _ => rfl) rfl rfl fun s f => ?_
    simp only [opTimerConfig_run_eq, Timer.config_eq]
  case timerStatus => exact Performs.of_run (fun _ _ => rfl) fun _ _ _ => rfl
  case timerCaptures => exact Performs.of_run (fun _ _ => rfl) fun _ _ _ => rfl
  case timeRead => exact Performs.of_run (fun _ _ => rfl) fun _ _ _ => rfl

end Sys2Proof.Machine
end

section
/-!
PROOF. O26: the opcodes of the conversion lanes (Table 08-16): the checks at the boundary, the settings, the leg set (R179) and
LANE_STOP (R209).
-/
namespace Sys2Proof.Machine

/-! ### Lanes -/

/-- What an update leaves on the lane that it writes, it leaves on every lane. -/
theorem State.modLane_leaves {α : Type} (s : State) (k j : Nat) {f : Lane → Lane} (x : Lane → α) (h : ∀ l, x (f l) = x l) :
    x ((s.modLane k f).lane j) = x (s.lane j) := by
  rw [State.modLane_lane]
  split
  · exact h _
  · rfl

/-! ### An opcode that is checked again where it executes -/

/-- A row applies, at its boundary, what its check lets through: `run` answers with the check's refusal and changes nothing, or
does `g` and answers OK. -/
theorem Applies.of_check {c : Hdr → List Byte → Instr} {o : OpSpec} {check : State → List Byte → Option Answer}
    {g : State → Flight → State} (request : ∀ h p, requestOf (c h p) = some (o, h, p)) (spec : opSpec o.code = some o)
    (accept : o.accept = State.answerAccepted)
    (run : ∀ s f, o.run s f = match check s f.payload with
      | some a => (s, some a)
      | none => okay (g s f)) :
    Applies c o (fun s f => if (check s f.payload).isSome then s else g s f) fun s f => (check s f.payload).getD [stOk] := by
  refine Applies.of_run request spec accept fun s f => (run s f).trans ?_
  cases check s f.payload with
  | some a => rfl
  | none => rfl

/-! ### LANE_START (R16, R208) -/

/-- The function of a code of LANE_START (Table 08-16). -/
theorem LaneFn.ofCode_eq (n : Nat) : LaneFn.ofCode n = if n = 1 then .boost else if n = 2 then .bus else .charge := by
  match n with
  | 0 | 1 | 2 => rfl
  | n + 3 => rfl

/-- The gates of a die may be driven (R16). -/
theorem State.mayDrive_iff (s : State) :
    s.mayDrive = true ↔ s.isWorker = false ∨ (s.slolos.address ≠ 0 ∧ s.slolos.firstAllot = true) := by
  simp [State.mayDrive]

/-! ### LANE_STOP (R208, R209) -/

/-- The lane serves a strand, whose machine alone may stop it (R208). -/
def Lane.servesStrand (l : Lane) : Bool := l.body.isSome && l.strand != 0xFF

theorem laneStopCheck_eq (s : State) (p : List Byte) :
    laneStopCheck s p = if (s.lane (byteAt p 0)).servesStrand then some [0x8C] else none := by
  unfold laneStopCheck Lane.servesStrand need
  cases (s.lane (byteAt p 0)).body <;> cases e : (s.lane (byteAt p 0)).strand == 0xFF <;> simp [bne, e]

/-- A lane at rest stays as it is. -/
theorem State.stopLane_of_off {s : State} {k : Nat} (rests : laneIsOff (s.lane k) = true) : s.stopLane k = s := by
  have modes : ((s.lane k).mode == .unconfigured || (s.lane k).mode == .off) = true := by rwa [Bool.or_comm]
  exact if_pos modes

/-- A lane that does not rest stops at its release from a protection mode, and otherwise at once. -/
theorem State.stopLane_of_not_off {s : State} {k : Nat} (active : laneIsOff (s.lane k) = false) :
    s.stopLane k = if (s.lane k).mode.protection then s.modLane k fun l => { l with stopAtRelease := true }
      else (s.endPulses (s.lane k).legs).setMode k .off := by
  have modes : ¬((s.lane k).mode == .unconfigured || (s.lane k).mode == .off) = true := by
    rw [Bool.or_comm]
    exact Bool.eq_false_iff.mp active
  exact if_neg modes

/-- What LANE_STOP does to a lane that does not rest. -/
def State.stopActive (s : State) (f : Flight) (k : Nat) : State :=
  let t := if f.sched then s else s.modLane k fun l => { l with stopped := some (s.time.epoch, s.time.tick) }
  if (s.lane k).mode.protection then t.modLane k fun l => { l with stopAtRelease := true }
  else (t.endPulses (s.lane k).legs).setMode k .off

theorem State.stopNow_of_off {s : State} {k : Nat} (rests : laneIsOff (s.lane k) = true) : s.stopNow k = s := by
  rw [State.stopNow, if_pos rests, State.stopLane_of_off rests]

/-- A stop at receipt is the stop of a boundary after its record. -/
theorem State.stopNow_of_not_off {s : State} {k : Nat} (active : laneIsOff (s.lane k) = false) :
    s.stopNow k = (s.modLane k fun l => { l with stopped := some (s.time.epoch, s.time.tick) }).stopLane k := by
  rw [State.stopNow, if_neg (by simp [active])]

/-- At receipt as at a boundary. -/
theorem stop_eq_stopActive {s : State} {f : Flight} {k : Nat} (active : laneIsOff (s.lane k) = false) :
    (if f.sched then s.stopLane k else s.stopNow k) = s.stopActive f k := by
  cases e : f.sched with
  | true =>
    rw [if_pos rfl, State.stopLane_of_not_off active]
    simp only [State.stopActive, e, if_true]
  | false =>
    let t := s.modLane k fun l => { l with stopped := some (s.time.epoch, s.time.tick) }
    have mode : (t.lane k).mode = (s.lane k).mode := s.modLane_leaves k k Lane.mode fun _ => rfl
    have legs : (t.lane k).legs = (s.lane k).legs := s.modLane_leaves k k Lane.legs fun _ => rfl
    rw [if_neg Bool.false_ne_true, State.stopNow_of_not_off active,
      State.stopLane_of_not_off (by rw [laneIsOff, mode]; exact active), mode, legs]
    simp only [State.stopActive, e, Bool.false_eq_true, if_false]

/-- What LANE_STOP does and answers, whether a boundary carries it or not. -/
theorem opLaneStop_run_eq (s : State) (f : Flight) :
    let k := byteAt f.payload 0
    opLaneStop.run s f =
      (if (s.lane k).servesStrand then s else if laneIsOff (s.lane k) then s else s.stopActive f k,
        some (if (s.lane k).servesStrand then [0x8C] else [stOk])) := by
  intro k
  have check := laneStopCheck_eq s f.payload
  cases serves : (s.lane k).servesStrand with
  | true =>
    rw [serves, if_pos rfl] at check
    simp only [opLaneStop, check, if_true]
  | false =>
    rw [serves, if_neg Bool.false_ne_true] at check
    simp only [opLaneStop, check, Bool.false_eq_true, if_false, okay]
    cases rests : laneIsOff (s.lane k) with
    | true =>
      rw [State.stopLane_of_off rests, State.stopNow_of_off rests]
      simp
    | false =>
      rw [stop_eq_stopActive rests]
      simp

/-! ### The statement -/

/-- Settles O26, opcode by opcode: each setting is what its check lets through, and LANE_STOP goes by the mode of its lane. -/
theorem laneOpcodes : Obligations.LaneOpcodes := by
  unfold Obligations.LaneOpcodes
  refine ⟨⟨?config, ?start, ?target, ?coeffs, ?profile, ?burst, ?tuning, ?lock, ?legs, ?status⟩, ?stop⟩
  case config => exact Applies.of_check (fun _ _ => rfl) rfl rfl fun _ _ => rfl
  case start =>
    refine Applies.of_check (fun _ _ => rfl) rfl rfl fun s f => ?_
    simp only [← LaneFn.ofCode_eq, ← State.mayDrive_iff]
    rfl
  case target => exact Applies.of_check (fun _ _ => rfl) rfl rfl fun _ _ => rfl
  case coeffs => exact Applies.of_check (fun _ _ => rfl) rfl rfl fun _ _ => rfl
  case profile => exact Applies.of_check (fun _ _ => rfl) rfl rfl fun _ _ => rfl
  case burst =>
    refine Applies.of_check (check := fun s p => need (s.laneConfigured (byteAt p 0)) stBadParam) (fun _ _ => rfl) rfl rfl
      fun s f => ?_
    by_cases configured : s.laneConfigured (byteAt f.payload 0)
    · simp only [opSetBurst, need, if_pos configured]
    · simp only [opSetBurst, need, if_neg configured]
      rfl
  case tuning => exact Applies.of_check (fun _ _ => rfl) rfl rfl fun _ _ => rfl
  case lock => exact Applies.of_check (fun _ _ => rfl) rfl rfl fun _ _ => rfl
  case legs => exact Applies.of_check (fun _ _ => rfl) rfl rfl fun _ _ => rfl
  case status => exact Performs.of_run (fun _ _ => rfl) fun _ _ _ => rfl
  case stop =>
    intro refused effect outcome
    have run : ∀ s f, opLaneStop.run s f = (effect s f, some (outcome s f)) := by
      intro s f
      rw [opLaneStop_run_eq]
      refine congrArg₂ Prod.mk (ite_congr rfl (fun _ => rfl) fun _ => ?_) rfl
      cases mode : (s.lane (byteAt f.payload 0)).mode <;> simp [laneIsOff, mode, State.stopActive]
    exact ⟨Performs.of_run (fun _ _ => rfl) fun s f _ => run s f, Applies.of_run (fun _ _ => rfl) rfl rfl run⟩

end Sys2Proof.Machine
end

section
/-!
PROOF. O55: the frames of a lane (R175 to R179, R188, R190, R193, R195), its turn-ons (R172 to R174, R213), the decimator outputs
(R169) and the end of the brake (R197).
-/
namespace Sys2Proof.Machine

variable (s : State)

/-! ### The strand of a lane (R199, log 34) -/

theorem State.strandInCc_of_alone {k : Nat} (alone : (s.lane k).strand = 0xFF) : s.strandInCc k = false := by
  simp [State.strandInCc, alone]

/-- A die that holds the machine of the strand asks it. -/
theorem State.strandInCc_iff_of_strand {k : Nat} (strand : (s.lane k).strand ≠ 0xFF) (home : s.isWorker = false) :
    s.strandInCc k = true ↔ (s.strand (s.lane k).strand).mach.phase = .cc := by
  simp [State.strandInCc, strand, home]

/-- On a worker only a lane whose field is CHARGE_MAIN may be in CC. -/
theorem State.strandInCc_of_field {k : Nat} (worker : s.isWorker = true) (field : (s.lane k).fieldCode ≠ 2) :
    s.strandInCc k = false := by
  simp [State.strandInCc, worker, field]

/-! ### The opening of a frame (R176 to R179, R181) -/

theorem getAt_map_zipIdx {α : Type} {l : List α} {n : Nat} (d : α) (f : α × Nat → α) (h : n < l.length) :
    getAt (l.zipIdx.map f) n d = f (getAt l n d, n) := by
  simp [getAt, List.getD, h]

/-- A phase lock writes the lane's extra steps and that it is set. -/
theorem State.lockFrame_leaves {α : Type} (k j : Nat) (x : Lane → α)
    (h : ∀ l e, x { l with extra := e, lockSet := true } = x l) : x ((s.lockFrame k).lane j) = x (s.lane j) := by
  rw [State.lockFrame]
  cases (s.lane k).phaseLock with
  | none => rfl
  | some p =>
    dsimp only
    split
    · exact s.modLane_leaves k j x fun l => h l _
    · rfl

@[simp] theorem State.lockFrame_legs (k : Nat) : (s.lockFrame k).conv.legs = s.conv.legs := by
  rw [State.lockFrame]
  cases (s.lane k).phaseLock with
  | none => rfl
  | some p =>
    dsimp only
    split <;> rfl

/-- A leg of a lane whose frame opens. -/
def Leg.opened (g : Leg) (l : Lane) (n : Nat) : Leg :=
  if l.legs.getLsbD n then { g with
    due := l.fires n
    lowOffAt := if g.drive = .pulses then g.left + l.turnOnIn n - l.prof 0x08 2 else g.lowOffAt
    left := g.left + l.period + l.extra } else g

/-- The changes that wait for a frame's start have applied, and its turn-ons are not yet due. -/
def State.frameChanged (s : State) (k : Nat) : State :=
  ((s.endPulses ((s.lane k).legs &&& ~~~((s.lane k).newLegs.getD (s.lane k).legs))).modLane k Lane.frameChanges).lockFrame k

/-- A frame opens in two steps. -/
theorem State.openFrame_eq (k : Nat) :
    s.openFrame k = ((s.frameChanged k).modConv fun c =>
      { c with legs := c.legs.zipIdx.map fun y => y.1.opened ((s.frameChanged k).lane k) y.2 }).modLane k
        fun l => { l with nextAt := l.nextAt + l.frameLength } := by
  simp only [State.openFrame, State.frameChanged, Leg.opened, Lane.lowOffAt, Lane.frameLength, beq_iff_eq, Nat.add_assoc]

/-- What neither the waiting changes nor a phase lock nor the next start writes stands when a frame opens. -/
theorem State.openFrame_leaves {α : Type} (k : Nat) (x : Lane → α) (changes : ∀ l : Lane, x l.frameChanges = x l)
    (lock : ∀ l e, x { l with extra := e, lockSet := true } = x l) (start : ∀ l n, x { l with nextAt := n } = x l) :
    x ((s.openFrame k).lane k) = x (s.lane k) :=
  calc x ((s.openFrame k).lane k)
      = x ((s.frameChanged k).lane k) := by rw [State.openFrame_eq]; exact State.modLane_leaves _ k k x fun l => start l _
    _ = x ((State.modLane _ k Lane.frameChanges).lane k) := State.lockFrame_leaves _ k k x lock
    _ = x (s.lane k) := State.modLane_leaves _ k k x changes

/-- The waiting changes are those of the leg set, the period and the rotation (R176 to R179). -/
theorem Lane.frameChanges_awaitDecim (l : Lane) : l.frameChanges.awaitDecim = l.awaitDecim := by
  simp only [Lane.frameChanges, apply_ite Lane.awaitDecim, ite_self]

theorem Lane.frameChanges_reversal (l : Lane) : l.frameChanges.reversal = l.reversal := by
  simp only [Lane.frameChanges, apply_ite Lane.reversal, ite_self]

@[simp] theorem State.openFrame_awaitDecim (k : Nat) : ((s.openFrame k).lane k).awaitDecim = (s.lane k).awaitDecim :=
  s.openFrame_leaves k _ Lane.frameChanges_awaitDecim (fun _ _ => rfl) fun _ _ => rfl

@[simp] theorem State.openFrame_reversal (k : Nat) : ((s.openFrame k).lane k).reversal = (s.lane k).reversal :=
  s.openFrame_leaves k _ Lane.frameChanges_reversal (fun _ _ => rfl) fun _ _ => rfl

/-- The legs that leave complete their pulses, and the turn-ons of the others are due. -/
theorem State.openFrame_leg {k n : Nat} :
    let t := s.endPulses ((s.lane k).legs &&& ~~~((s.lane k).newLegs.getD (s.lane k).legs))
    n < t.conv.legs.length → (s.openFrame k).conv.leg n = (t.conv.leg n).opened ((s.openFrame k).lane k) n := by
  intro t h
  have legs : (s.frameChanged k).conv.legs = t.conv.legs := State.lockFrame_legs _ k
  have lane (g : Leg) : g.opened ((s.openFrame k).lane k) n = g.opened ((s.frameChanged k).lane k) n := by
    rw [State.openFrame_eq]
    exact State.modLane_leaves _ k k (fun l => g.opened l n) fun _ => rfl
  rw [lane, State.openFrame_eq]
  refine (getAt_map_zipIdx Leg.reset _ (legs ▸ h)).trans ?_
  rw [legs]
  rfl

/-! ### The frame (R179, R188, R190, R193) -/

/-- A frame start acts in a running mode only. -/
theorem State.frame_of_idle {k : Nat} (cc : Bool) (idle : s.isReady .conv = false ∨ (s.lane k).mode.running = false) :
    s.frame k cc = s :=
  if_pos (by rcases idle with h | h <;> simp [h])

/-- A lane that awaits its first outputs, in a frame that has opened: it starts from them, or waits on (R193). -/
def State.awaitFrame (s : State) (k : Nat) (cc : Bool) : State :=
  match s.inputsReady k, s.startVolts k with
  | true, some v => (s.modLane k fun l => l.ramp v).runFrame k cc
  | _, _ => s.clearMeans (s.lane k).legs

/-- A lane that reverses, in a frame that has opened: it rests, or resumes in its new function (R190). -/
def State.reversalFrame (s : State) (k : Nat) (cc : Bool) (r : Reversal) : State :=
  if r.resting then (if ((s.resume k r.fn).lane k).mode.running then (s.resume k r.fn).runFrame k cc else s.resume k r.fn)
  else (s.rest k r).clearMeans (s.lane k).legs

section
variable {k : Nat} (cc : Bool) (runs : ¬(s.isReady .conv = false ∨ (s.lane k).mode.running = false))
include runs

/-- The last leg leaves: OFF (R179). -/
theorem State.frame_of_last (last : (s.lane k).newLegs = some 0) :
    s.frame k cc = ((s.endPulses (s.lane k).legs).modLane k fun l => { l with legs := 0, newLegs := none }).setMode k .off := by
  have acts : ¬(!s.isReady .conv || !(s.lane k).mode.running) = true := by simpa using runs
  exact (if_neg acts).trans (if_pos (by rw [last]; rfl))

/-- Any other frame opens, and goes by what the lane is doing. -/
theorem State.frame_of_stays (stays : (s.lane k).newLegs ≠ some 0) :
    s.frame k cc = if (s.lane k).awaitDecim then (s.openFrame k).awaitFrame k cc
      else (s.lane k).reversal.elim ((s.openFrame k).activeFrame k cc) ((s.openFrame k).reversalFrame k cc) := by
  have acts : ¬(!s.isReady .conv || !(s.lane k).mode.running) = true := by simpa using runs
  refine (if_neg acts).trans ((if_neg (by simpa using stays)).trans ?_)
  cases (s.lane k).awaitDecim with
  | true => rfl
  | false => cases (s.lane k).reversal <;> rfl

end

theorem execFrameStart_of_ge {k : Nat} (h : 4 ≤ k) : execFrameStart k s = .next s := if_neg (by omega)

/-- A lane whose function changed meets the crossings that stand (R213, R219). -/
theorem execFrameStart_of_lt {k : Nat} (h : k < 4) :
    let u := s.frame k (s.strandInCc k)
    execFrameStart k s = .next (if (u.lane k).fn = (s.lane k).fn then u else u.recheck k) := if_pos h

/-- The 65th limited frame in a row below half the target is a short (R216). -/
theorem State.runFrame_of_short {k : Nat} (cc : Bool) (short : 65 ≤ (s.lane k).shortFrames (s.sample k).target) :
    s.runFrame k cc = ((s.clearMeans (s.lane k).legs).recordProt 3 (some k) none 0).hiccup k true := if_pos short

theorem Lane.shortFrames_eq (l : Lane) (target : Int) :
    l.shortFrames target = if l.limitAct = true ∧ 2 * l.rt < target then l.shortCount + 1 else 0 := by
  simp [Lane.shortFrames]

theorem Lane.fires_iff (l : Lane) (n : Nat) :
    l.fires n = true ↔ l.legs.getLsbD n = true ∧ ¬(l.stepping = true ∧ l.slot n = 0) := by
  cases e : l.stepping <;> simp [Lane.fires, e]

/-! ### The turn-on of a leg (R172 to R175, R213) -/

theorem execLegTurnOn_of_none {n : Nat} (free : s.conv.laneOfLeg n = none) : execLegTurnOn n s = .next s := by
  simp only [execLegTurnOn, free]

/-- The leg fires at the instant of its slot. -/
def State.legFires (s : State) (k n : Nat) : Prop :=
  s.isReady .conv = true ∧ (s.lane k).mode.running = true ∧ (s.lane k).sleeping = false ∧ (s.lane k).awaitDecim = false ∧
    ((s.lane k).reversal.any fun r => r.resting) = false ∧ (s.conv.leg n).due = true ∧ (s.lane k).newLegs = none

section
variable {n k : Nat} (lane : s.conv.laneOfLeg n = some k)
include lane

theorem execLegTurnOn_of_not_fires (rests : ¬s.legFires k n) : execLegTurnOn n s = .next s := by
  simp only [execLegTurnOn, lane]
  refine if_neg fun h => rests ?_
  simpa [State.legFires, and_assoc] using h

/-- In BRAKE, and on a leg that is held, the instant passes. -/
theorem execLegTurnOn_of_passes (fires : s.legFires k n) (passes : (s.lane k).mode = .brake ∨ s.prot.held.getLsbD n = true) :
    execLegTurnOn n s = .next (s.passSlots k n) := by
  obtain ⟨ready, runs, wake, valid, still, due, legs⟩ := fires
  have off : ((s.lane k).mode == .brake || s.prot.held.getLsbD n) = true := by simpa using passes
  simp only [execLegTurnOn, lane, ready, runs, wake, valid, still, due, legs, off]
  rfl

/-- Anywhere else the leg latches its duty and starts its pulse. -/
theorem execLegTurnOn_of_fires (fires : s.legFires k n) (free : ¬((s.lane k).mode = .brake ∨ s.prot.held.getLsbD n = true)) :
    let l := s.lane k
    let up := s.prot.cmpUp.getLsbD n && s.prot.cmpRole n == 1 && s.prot.cmpUpAct n == 1
    let lo := s.prot.cmpLo.getLsbD n && s.prot.cmpRole n == 1 && s.prot.cmpLoAct n == 1
    let code := (s.conv.leg n).code (l.slotOffset (l.slot n))
    let left := l.frameLength - l.slotOffset (l.slot n)
    let skip := decide (code * l.period / 65536 < l.prof 0x10 2)
    execLegTurnOn n s = .next (((s.passSlots k n).modLegs (legBit n) fun g =>
      g.turnOn l code left (left + l.frameChanges.turnOnIn n) up lo).modLane k fun l => { l with
        limitAct := l.limitAct || up || lo
        sticky := if skip then l.sticky ||| 4 else l.sticky
        ep := if skip then { l.ep with skipped := satAdd 255 l.ep.skipped 1 } else l.ep }) := by
  obtain ⟨ready, runs, wake, valid, still, due, legs⟩ := fires
  have on : ((s.lane k).mode == .brake || s.prot.held.getLsbD n) = false := by simpa using free
  simp only [execLegTurnOn, lane, ready, runs, wake, valid, still, due, legs, on, decide_eq_true_eq]
  rfl

end

theorem State.passSlots_eq (k n : Nat) :
    s.passSlots k n = { s with conv := { s.conv with legs := s.conv.legs.zipIdx.map fun y =>
      (if (s.lane k).legs.getLsbD y.2 = true ∧ (s.lane k).slot y.2 ≤ (s.lane k).slot n then { y.1 with due := false } else y.1) } } := by
  simp only [State.passSlots, State.modConv, Bool.and_eq_true, decide_eq_true_eq]

/-- The pulse of a turn-on, its steps written out. -/
theorem Leg.turnOn_eq (g : Leg) (l : Lane) (code left next : Nat) (up lo : Bool) :
    let skip := decide (code * l.period / 65536 < l.prof 0x10 2)
    let on := if skip then 0 else code * l.period / 65536
    g.turnOn l code left next up lo = { g with
      drive := .pulses
      due := false
      left := left
      latched := code
      tOn := on
      highOmitted := skip || up
      lowOnAt := on + l.prof 0x0A 2
      lowOffAt := next - l.prof 0x08 2
      lowOmitted := lo || decide (next - l.prof 0x08 2 < on + l.prof 0x0A 2 + l.prof 0x10 2) } := by
  simp only [decide_eq_true_eq]
  rfl

/-! ### Decimator outputs and the brake (R169, R197) -/

theorem execDecimatorOutput_of_not {m x : Nat} (unused : ¬(s.isReady .conv = true ∧ s.conv.used m = true ∧ m < 20)) :
    execDecimatorOutput m x s = .next s :=
  if_neg (by simpa [and_assoc] using unused)

/-- The output is kept, and a valid voltage output is checked on every lane. -/
theorem execDecimatorOutput_of_used {m x : Nat} (used : s.isReady .conv = true ∧ s.conv.used m = true ∧ m < 20) :
    let v := decimCode (s.conv.osr m) x
    let t := s.modConv fun c => { c with decims := modAt c.decims m fun d => d.put v }
    execDecimatorOutput m x s = .next (if 16 ≤ m ∧ 3 ≤ (s.conv.decim m).seen then
      (((t.voltageChecks m v 0).voltageChecks m v 1).voltageChecks m v 2).voltageChecks m v 3 else t) := by
  obtain ⟨ready, use, input⟩ := used
  intro v t
  refine (if_pos (by simp [ready, use, input])).trans ?_
  by_cases volts : 16 ≤ m ∧ 3 ≤ (s.conv.decim m).seen
  · rw [if_pos volts]
    exact if_pos (by simpa using volts)
  · rw [if_neg volts]
    exact if_neg (by simpa using volts)

theorem execBrakeEnd_eq (k : Nat) :
    execBrakeEnd k s = .next (if (s.lane k).mode = .brake then
      (s.setMode k .regulate).modLane k fun l => { l with brakeHold := l.prof 0x3E 2 } else s) :=
  next_ite beq_iff_eq ..

/-! ### The statement -/

/-- Settles O55, event by event: a frame start by what its lane is doing, a turn-on by what its leg may do, and the other events by their
equations. -/
theorem frameEvents : Obligations.FrameEvents := by
  unfold Obligations.FrameEvents
  refine ⟨fun k s => execFrameStart_of_ge s, fun k s lane => ⟨s.strandInCc k, ?frame⟩, fun s k => ?recheck, fun s k cc => ?short,
    fun l n => ⟨rfl, rfl, l.fires_iff n, rfl⟩, fun s k n => ?opened, fun n s => execLegTurnOn_of_none s, fun n k s => ?turnOn,
    fun m x s => ?output, fun k s => execBrakeEnd_eq s k⟩
  case frame =>
    intro l t m
    refine ⟨s.strandInCc_of_alone, s.strandInCc_iff_of_strand, s.strandInCc_of_field, ?_⟩
    intro u
    have frame : s.frame k (s.strandInCc k) = u := by
      by_cases idle : s.isReady .conv = false ∨ l.mode.running = false
      · exact (s.frame_of_idle _ idle).trans (if_pos idle).symm
      by_cases last : l.newLegs = some 0
      · exact (s.frame_of_last _ idle last).trans ((if_neg idle).trans (if_pos last)).symm
      refine (s.frame_of_stays _ idle last).trans (Eq.symm ((if_neg idle).trans ((if_neg last).trans ?_)))
      rw [← s.openFrame_awaitDecim k, ← s.openFrame_reversal k]
      refine ite_congr rfl (fun _ => ?_) fun _ => ?_
      · rfl
      · cases reversal : (t.lane k).reversal with
        | some r => rfl
        | none =>
          simp only [Option.elim_none, State.activeFrame, beq_iff_eq]
          rfl
    rw [← frame]
    exact execFrameStart_of_lt s lane
  case recheck => rfl -- `acts` is `State.standing` with its side chosen
  case short =>
    intro x l short
    exact s.runFrame_of_short cc (by rw [Lane.shortFrames_eq]; exact short)
  case opened =>
    intro old l t leg _
    exact s.openFrame_leg leg
  case turnOn =>
    intro lane l
    by_cases fires : s.legFires k n
    · refine Eq.trans ?_ (congrArg _ (if_pos fires).symm)
      by_cases passes : l.mode = .brake ∨ s.prot.held.getLsbD n = true
      · exact (execLegTurnOn_of_passes s lane fires passes).trans (congrArg _ ((s.passSlots_eq k n).trans (if_pos passes).symm))
      · refine (execLegTurnOn_of_fires s lane fires passes).trans (congrArg _ (Eq.trans ?_ (if_neg passes).symm))
        simp only [Leg.turnOn_eq, State.passSlots_eq]
        rfl
    · exact (execLegTurnOn_of_not_fires s lane fires).trans (congrArg _ (if_neg fires).symm)
  case output =>
    by_cases used : s.isReady .conv = true ∧ s.conv.used m = true ∧ m < 20
    · rw [if_pos used]
      exact execDecimatorOutput_of_used s used
    · rw [if_neg used]
      exact execDecimatorOutput_of_not s used

end Sys2Proof.Machine
end

section
/-!
PROOF. O27: the opcodes of fast protection (Table 09-13): the record (R211, R233), PROT_CLEAR (R222, R224) and the reads (R234).
-/
namespace Sys2Proof.Machine

/-! ### PROT_CONFIG (R211, R233) -/

theorem slice_drop (p : List Byte) (n off len : Nat) : slice (p.drop n) off len = slice p (n + off) len := by
  simp only [slice, List.drop_drop]

/-- A byte of the record that a payload carries behind its first `n` bytes. -/
theorem byteAt_drop (p : List Byte) (n off : Nat) : byteAt (p.drop n) off = byteAt p (n + off) := by
  simp only [byteAt, fieldAt, slice_drop]

/-- The roles of a record stand four bytes further in its payload. -/
theorem Prot.load_drop (q : Prot) (p : List Byte) :
    let on : BitVec 16 := bitsOf 16 ((List.range 16).filter fun n => byteAt p (8 + 12 * n) ≠ 0)
    q.load (p.drop 4) = { q with body := some (p.drop 4), cmpUp := q.cmpUp &&& on, cmpLo := q.cmpLo &&& on } := by
  simp only [Prot.load, byteAt_drop, ← Nat.add_assoc, Nat.reduceAdd]

/-- What PROT_CONFIG does and answers at its boundary, by whether a lane that it changes runs. -/
theorem opProtConfig_run_eq (s : State) (f : Flight) :
    opProtConfig.run s f =
      (if protLanesOff s (f.payload.drop 4) then s.modProt fun q => q.load (f.payload.drop 4) else s,
        some (if protLanesOff s (f.payload.drop 4) then [stOk] else [0x88])) := by
  by_cases off : protLanesOff s (f.payload.drop 4)
  · simp only [opProtConfig, if_pos off, okay]
  · simp only [opProtConfig, if_neg off, answer]

/-! ### PROT_CLEAR (R222, R224, R234) -/

/-- A lane is released from a protection mode, and from CROWBAR only once its source has gone. -/
theorem protClearCheck_of_lane {s : State} {p : List Byte} (lane : byteAt p 1 = 0) :
    protClearCheck s p =
      if !(s.lane (byteAt p 0)).mode.protection then some [stBadParam]
      else if (s.lane (byteAt p 0)).mode == .crowbar && s.ovPresent (byteAt p 0) then some [0x91] else none := by
  simp only [protClearCheck, lane, beq_self_eq_true, if_true, need]
  cases (s.lane (byteAt p 0)).mode.protection with
  | false => rfl
  | true => cases (s.lane (byteAt p 0)).mode == .crowbar && s.ovPresent (byteAt p 0) <;> rfl

/-- Driver faults are released once none of their inputs is low. -/
theorem protClearCheck_of_legs {s : State} {p : List Byte} (legs : byteAt p 1 ≠ 0) :
    protClearCheck s p = if (BitVec.ofNat 16 (fieldAt p 2 2) &&& s.prot.dfltRaw) = 0 then none else some [0x91] := by
  simp only [protClearCheck, beq_false_of_ne legs, Bool.false_eq_true, if_false, need, decide_eq_true_eq]

/-- The answer of PROT_CLEAR, by what it names. -/
theorem protClearCheck_getD (s : State) (p : List Byte) :
    (protClearCheck s p).getD [stOk] =
      if byteAt p 1 = 0 then
        (if !(s.lane (byteAt p 0)).mode.protection then [stBadParam]
          else if (s.lane (byteAt p 0)).mode == .crowbar && s.ovPresent (byteAt p 0) then [0x91] else [stOk])
      else if (BitVec.ofNat 16 (fieldAt p 2 2) &&& s.prot.dfltRaw) = 0 then [stOk] else [0x91] := by
  by_cases lane : byteAt p 1 = 0
  · rw [protClearCheck_of_lane lane, if_pos lane]
    simp only [apply_ite (Option.getD · [stOk]), Option.getD_some, Option.getD_none]
  · rw [protClearCheck_of_legs lane, if_neg lane]
    simp only [apply_ite (Option.getD · [stOk]), Option.getD_some, Option.getD_none]

/-- A lane goes to OFF and its crowbar ends, or the named legs are held no longer. -/
theorem protClear_eq (s : State) (p : List Byte) :
    protClear s p =
      if byteAt p 1 = 0 then
        ((s.gatesLow (byteAt p 0)).setMode (byteAt p 0) .off).modProt fun q => { q with crowbars := setAt q.crowbars (byteAt p 0) none }
      else { s with prot := { s.prot with held := s.prot.held &&& ~~~BitVec.ofNat 16 (fieldAt p 2 2) } } := by
  simp only [protClear, beq_iff_eq, State.modProt, BitVec.clearBits]

/-! ### The statement -/

/-- Settles O27, opcode by opcode: PROT_CONFIG by the lanes that it changes, PROT_CLEAR by its check, and the others by what they run. -/
theorem protectionOpcodes : Obligations.ProtectionOpcodes := by
  unfold Obligations.ProtectionOpcodes
  refine ⟨?config, ?clear, ?log, ?echo, ?echoClear⟩
  case config =>
    refine Applies.of_run (fun _ _ => rfl) rfl rfl fun s f => ?_
    rw [opProtConfig_run_eq]
    simp only [State.modProt, Prot.load_drop]
  case clear =>
    simp only [← protClearCheck_getD, ← protClear_eq]
    exact Applies.of_check (fun _ _ => rfl) rfl rfl fun _ _ => rfl
  case log => exact Performs.of_run (fun _ _ => rfl) fun _ _ _ => rfl
  case echo => exact Performs.of_run (fun _ _ => rfl) fun _ _ _ => rfl
  case echoClear => exact Applies.of_run (fun _ _ => rfl) rfl rfl fun _ _ => rfl

end Sys2Proof.Machine
end

section
/-!
PROOF. O56: comparators (R211 to R215), the crowbar (R219 to R221), driver faults (R224) and fault frames (R228, R230, R327, R333).
-/
namespace Sys2Proof.Machine

variable (s : State)

/-! ### Comparators (R211 to R215) -/

/-- A comparator's output, as a crossing leaves it. -/
def State.putCmp (n : Nat) (upper b : Bool) : State :=
  s.modProt fun p => if upper then { p with cmpUp := p.cmpUp.putBit n b } else { p with cmpLo := p.cmpLo.putBit n b }

section
variable {n : Nat} {upper beyond brief : Bool}

theorem execComparatorCrossing_of_off (off : ¬(s.prot.cmpRole n ≠ 0 ∧ n < 16)) :
    execComparatorCrossing n upper beyond brief s = .next s :=
  if_pos (by simpa [or_iff_not_imp_left] using off)

variable (on : s.prot.cmpRole n ≠ 0 ∧ n < 16)
include on

/-- A crossing back, or one while PROT and CONV are not both ready, only changes the output (R67). -/
theorem execComparatorCrossing_of_idle (idle : beyond = false ∨ ¬(s.isReady .prot = true ∧ s.isReady .conv = true)) :
    execComparatorCrossing n upper beyond brief s = .next (s.putCmp n upper (beyond && !brief)) :=
  (if_neg (by simpa using on)).trans (if_pos (by simpa [or_iff_not_imp_left] using idle))

variable (acts : ¬(beyond = false ∨ ¬(s.isReady .prot = true ∧ s.isReady .conv = true)))
include acts

/-- One that reverses within 5 ns acts whole or not at all (R213, log 5). -/
theorem execComparatorCrossing_of_brief (short : brief = true) :
    let t := s.putCmp n upper (beyond && !brief)
    execComparatorCrossing n upper beyond brief s =
      .next (if Config.freeBit s.freeCtr then ({ t with freeCtr := t.freeCtr + 1 } : State).cross n upper
        else { t with freeCtr := t.freeCtr + 1 }) :=
  (if_neg (by simpa using on)).trans ((if_neg (by simpa using acts)).trans (if_pos short))

theorem execComparatorCrossing_of_lasting (lasts : ¬brief = true) :
    execComparatorCrossing n upper beyond brief s = .next ((s.putCmp n upper (beyond && !brief)).cross n upper) :=
  (if_neg (by simpa using on)).trans ((if_neg (by simpa using acts)).trans (if_neg lasts))

end

/-- The action of a threshold (Table 09-1). -/
def State.thresholdAct (n : Nat) (upper : Bool) : Nat → State
  | 1 => s.limitCross n upper
  | 2 => s.tripCross n
  | 3 => match s.cmpTarget n with
    | some k => s.overVoltage k (.comparator n) (s.prot.cmpRole n == 3) (some n)
    | none => s
  | _ => s

/-- The upper threshold acts by its action, also in CROWBAR. -/
theorem State.cross_upper (n : Nat) : s.cross n true = s.thresholdAct n true (s.prot.cmpUpAct n) := by
  unfold State.cross
  cases s.crowbarOf n with
  | none => rfl
  | some x => rfl

section
variable {n k : Nat}

/-- LIMIT turns off the high side of a leg that runs, and its frame counts as limited (R212). -/
theorem State.cross_of_limit (act : s.prot.cmpUpAct n = 1) (lane : s.conv.laneOfLeg n = some k) :
    s.cross n true = if (s.lane k).mode.running then
      (s.modLegs (legBit n) fun g => { g with highOmitted := true }).modLane k fun l => { l with limitAct := true } else s := by
  rw [State.cross_upper, act]
  simp only [State.thresholdAct, State.limitCross, lane, if_true]

/-- TRIP on a leg's comparator (R215). -/
theorem State.cross_of_trip (role : s.prot.cmpRole n = 1) (act : s.prot.cmpUpAct n = 2) (lane : s.conv.laneOfLeg n = some k) :
    s.cross n true = (s.recordProt 2 (some k) (some n) (legBit n)).hiccup k true := by
  rw [State.cross_upper, act]
  simp only [State.thresholdAct, State.tripCross, State.cmpTarget, role, lane, beq_self_eq_true, if_true]

/-- An over-voltage crossing acts on the lane that its record names (R219). -/
theorem State.cross_of_overVoltage (role : 2 ≤ s.prot.cmpRole n) (act : s.prot.cmpUpAct n = 3) (lane : s.prot.cmpLane n < 4) :
    s.cross n true = s.overVoltage (s.prot.cmpLane n) (.comparator n) (s.prot.cmpRole n == 3) (some n) := by
  have other : (s.prot.cmpRole n == 1) = false := beq_false_of_ne (by omega)
  have target : s.cmpTarget n = some (s.prot.cmpLane n) := by simp [State.cmpTarget, other, lane]
  rw [State.cross_upper, act]
  simp only [State.thresholdAct, target]

/-- In CROWBAR the lower threshold of a leg withdraws it, once unblanked and unless it is held (R221). -/
theorem State.cross_of_crowbar {c : Crowbar} (role : s.prot.cmpRole n = 1) (lane : s.conv.laneOfLeg n = some k)
    (mode : (s.lane k).mode = .crowbar) (found : getAt s.prot.crowbars k none = some c) :
    s.cross n false = if c.blanked = true ∨ s.prot.held.getLsbD n = true then s else s.divert k n := by
  have code : s.crowbarOf n = some (k, c) := by simp [State.crowbarOf, role, lane, mode, found]
  simp only [State.cross, code, Bool.or_eq_true]

end

/-! ### The crowbar (R220, R221) -/

section
variable {k : Nat}

/-- A lane without a crowbar in force takes no event of one. -/
theorem execCrowbar_of_rests (rests : getAt s.prot.crowbars k none = none ∨ (s.lane k).mode ≠ .crowbar) :
    execCrowbarBlankEnd k s = .next s ∧ execCrowbarClose k s = .next s ∧ execCrowbarTimeout k s = .next s := by
  cases found : getAt s.prot.crowbars k none with
  | none => simp only [execCrowbarBlankEnd, execCrowbarClose, execCrowbarTimeout, found, and_self]
  | some c =>
    have mode : (s.lane k).mode ≠ .crowbar := rests.resolve_left (by simp [found])
    simp [execCrowbarBlankEnd, execCrowbarClose, execCrowbarTimeout, found, mode]

section
variable {c : Crowbar} (found : getAt s.prot.crowbars k none = some c) (mode : (s.lane k).mode = .crowbar)
include found mode

/-- The legs that lie beyond the lower threshold when the blanking ends are withdrawn. -/
theorem execCrowbarBlankEnd_of_crowbar :
    execCrowbarBlankEnd k s = .next (
      (((s.lane k).legs &&& s.prot.cmpLo &&& ~~~s.prot.held).members.filter fun n => s.prot.cmpRole n == 1).foldl
        (fun t n => t.divert k n)
        (s.modProt fun p => { p with crowbars := setAt p.crowbars k (some { c with blanked := false }) })) := by
  simp only [execCrowbarBlankEnd, found, mode, beq_self_eq_true, if_true]

theorem execCrowbarClose_of_crowbar :
    execCrowbarClose k s = .next (if c.waiting then
      (s.modChan 4 fun b => { b with fb := false, openSeen := true }).closeCrowbar k c else s) := by
  simp only [execCrowbarClose, found, mode, beq_self_eq_true, Bool.and_true]
  exact next_ite Iff.rfl ..

/-- Without open feedback the crowbar closes all the same, as class 8. -/
theorem execCrowbarTimeout_of_crowbar :
    execCrowbarTimeout k s = .next (if c.waiting then (s.closeCrowbar k c).recordProt 8 (some k) none 0 else s) := by
  simp only [execCrowbarTimeout, found, mode, beq_self_eq_true, Bool.and_true]
  exact next_ite Iff.rfl ..

end
end

/-! ### Driver faults (R224) -/

theorem execDriverFault_eq (n : Nat) :
    execDriverFault n s = .next (
      if s.isReady .conv = true ∧ s.isReady .prot = true ∧ n < 16 ∧ s.prot.dfltRaw.getLsbD n = true then s.driverFault n else s) :=
  next_ite (by simp [and_assoc]) ..

/-! ### Fault frames (R228, R230, R327, R333) -/

/-- A fault frame without harm, of its length and with its CRC. -/
def faultGood (x : Received) : Bool := crc16Good x.bytes && x.bytes.length == 15 && x.harm == .none

/-- A frame goes on at the other port than the one it arrived at. -/
def State.sendAcross (fromB : Bool) (f : ChainFrame) : State := if fromB then s.sendA f else s.sendB f

/-- A frame that fails its checks has been counted. -/
def State.checked (good : Bool) (h : Harm) : State := if good then s else s.badFrame h

/-- A transmitter holds a fault frame of the class and the epoch that has not begun. -/
def State.holdsFault (cls e : Nat) : Bool :=
  faultWaits s.slolos.txA s.slolos.spentA cls e || faultWaits s.slolos.txB s.slolos.spentB cls e

/-- The die has reported the class in the epoch, and so has a bit of its own in the frame. -/
def State.hasReported (cls e : Nat) : Bool :=
  s.slolos.address ≠ 0 && s.prot.reports.any fun r => r.cls == cls && r.epoch == e

theorem State.hasReported_eq (cls e : Nat) :
    s.hasReported cls e = decide (s.slolos.address ≠ 0 ∧ ∃ r ∈ s.prot.reports, r.cls = cls ∧ r.epoch = e) := by
  rw [Bool.eq_iff_iff]
  simp [State.hasReported]

theorem State.portsRun_iff : s.portsRun = true ↔ ¬(s.isStandalone = true ∨ s.sys.clk ≠ .running) := by
  simp [State.portsRun]

/-! What the count of a frame leaves. -/

section
variable (good : Bool) (h : Harm)

theorem State.checked_leaves {α : Type} (x : State → α) (counted : x (s.badFrame h) = x s) : x (s.checked good h) = x s := by
  rw [State.checked, apply_ite x, counted, ite_self]

@[simp] theorem State.checked_prot : (s.checked good h).prot = s.prot :=
  s.checked_leaves good h State.prot rfl

@[simp] theorem State.checked_time : (s.checked good h).time = s.time :=
  s.checked_leaves good h State.time rfl

@[simp] theorem State.checked_address : (s.checked good h).slolos.address = s.slolos.address :=
  s.checked_leaves good h (fun t => t.slolos.address) rfl

@[simp] theorem State.checked_holdsFault (cls e : Nat) : (s.checked good h).holdsFault cls e = s.holdsFault cls e :=
  s.checked_leaves good h (fun t => t.holdsFault cls e) rfl

@[simp] theorem State.checked_hasReported (cls e : Nat) : (s.checked good h).hasReported cls e = s.hasReported cls e :=
  s.checked_leaves good h (fun t => t.hasReported cls e) rfl

end

/-! A worker passes the frame on. -/

section
variable (b good : Bool) {cls e : Nat} (bits : BitVec 64)

/-- It absorbs a frame whose like it has sent (R228). -/
theorem State.workerFault_of_sent (sent : (cls, e) ∈ s.prot.sent ∧ s.holdsFault cls e = false) :
    s.workerFault b good cls e bits = s.sendAcross b .abort :=
  if_pos (by simpa [State.holdsFault] using sent)

/-- Otherwise it sets its bit, cancels its own frame and remembers the class and the epoch (R228); a CRC that fails stays so (R327). -/
theorem State.workerFault_of_not_sent (fresh : ¬((cls, e) ∈ s.prot.sent ∧ s.holdsFault cls e = false)) :
    let out := bits.putBit s.slolos.address (s.hasReported cls e || bits.getLsbD s.slolos.address)
    let body := le 1 cls ++ le 4 e ++ le 8 out.toNat
    s.workerFault b good cls e bits =
      ((s.modSlolos fun y => { y with txA := dropFault y.txA y.spentA cls e, txB := dropFault y.txB y.spentB cls e }).sendAcross b
        (.fault (body ++ le 2 (if good then crc16 body else crc16 body ^^^ 0xFFFF)))).modProt fun p =>
          { p with sent := if p.sent.contains (cls, e) then p.sent else p.sent ++ [(cls, e)] } :=
  if_neg (by simpa [State.holdsFault] using fresh)

end

section
variable (b : Bool) (x : Received)

/-- No port runs on a standalone die or without the clocks. -/
theorem execFaultFrame_of_stopped (stopped : s.isStandalone = true ∨ s.sys.clk ≠ .running) : execFaultFrame b x s = .next s :=
  if_pos (by simpa using mt s.portsRun_iff.mp (not_not_intro stopped))

variable (runs : ¬(s.isStandalone = true ∨ s.sys.clk ≠ .running))
include runs

/-- A worker in a reset passes the frame on as it came (R333). -/
theorem execFaultFrame_of_held (held : s.sys.held = true) :
    execFaultFrame b x s = .next (if s.isWorker then s.sendAcross b (if x.harm = .cut then .abort else .fault x.bytes) else s) := by
  have ports := s.portsRun_iff.mpr runs
  refine (if_neg (by simp [ports])).trans ((if_pos (by simp [State.chainActs, held])).trans ?_)
  simp only [carriedOn, beq_iff_eq]
  rfl

variable (free : ¬s.sys.held = true)
include free

/-- A die that acts counts a frame that fails its checks. The manager takes a good one into its live view (R230), and a worker passes
it on, where it was not cut short. -/
theorem execFaultFrame_of_acts :
    let t := s.checked (faultGood x) x.harm
    let cls := byteAt x.bytes 0
    let e := fieldAt x.bytes 1 4
    let bits := BitVec.ofNat 64 (fieldAt x.bytes 5 8)
    execFaultFrame b x s = .next (
      if s.isManager then (if faultGood x then t.managerFault cls e bits else t)
      else if x.harm = .cut then t.sendAcross b .abort
      else t.workerFault b (faultGood x) cls e bits) := by
  have ports := s.portsRun_iff.mpr runs
  intro t cls e bits
  refine (if_neg (by simp [ports])).trans ((if_neg (by simp [State.chainActs, ports, free])).trans ?_)
  by_cases manager : s.isManager = true
  · exact (if_pos manager).trans (congrArg _ (if_pos manager).symm)
  · exact (if_neg manager).trans ((next_ite beq_iff_eq ..).trans (congrArg _ (if_neg manager).symm))

end

/-! ### The statement -/

/-- Settles O56, event by event: a crossing by its threshold's action, the crowbar by whether it is in force, and a fault frame by the role
of the die that it meets. -/
theorem protectionEvents : Obligations.ProtectionEvents := by
  unfold Obligations.ProtectionEvents
  refine ⟨fun n up beyond brief s => ⟨Config.freeBit s.freeCtr, ?crossing⟩, fun n s _ act k lane => s.cross_of_limit act lane,
    fun n s role act k lane => s.cross_of_trip role act lane, fun n s role act lane => s.cross_of_overVoltage role act lane,
    fun n k c s role lane mode found => s.cross_of_crowbar role lane mode found,
    fun k s rests => execCrowbar_of_rests s rests,
    fun k c s found mode => ⟨execCrowbarBlankEnd_of_crowbar s found mode, execCrowbarClose_of_crowbar s found mode,
      execCrowbarTimeout_of_crowbar s found mode⟩, fun n high s => rfl, fun n s => execDriverFault_eq s n, fun b m h s => ?frame⟩
  case crossing =>
    by_cases on : s.prot.cmpRole n ≠ 0 ∧ n < 16
    · rw [if_pos on]
      by_cases idle : beyond = false ∨ ¬(s.isReady .prot = true ∧ s.isReady .conv = true)
      · exact (execComparatorCrossing_of_idle s on idle).trans (congrArg _ (if_pos idle).symm)
      · refine Eq.trans ?_ (congrArg _ (if_neg idle).symm)
        by_cases short : brief = true
        · exact (execComparatorCrossing_of_brief s on idle short).trans (congrArg _ (if_pos short).symm)
        · exact (execComparatorCrossing_of_lasting s on idle short).trans (congrArg _ (if_neg short).symm)
    · rw [if_neg on]
      exact execComparatorCrossing_of_off s on
  case frame =>
    intro cls e bits good waits send t
    by_cases stopped : s.isStandalone = true ∨ s.sys.clk ≠ .running
    · exact (execFaultFrame_of_stopped s b ⟨m, h⟩ stopped).trans (congrArg _ (if_pos stopped).symm)
    refine Eq.trans ?_ (congrArg _ (if_neg stopped).symm)
    by_cases held : s.sys.held = true
    · exact (execFaultFrame_of_held s b ⟨m, h⟩ stopped held).trans (congrArg _ (if_pos held).symm)
    refine (execFaultFrame_of_acts s b ⟨m, h⟩ stopped held).trans (congrArg _ (Eq.trans ?_ (if_neg held).symm))
    refine ite_congr rfl (fun _ => ?manager) fun _ => ite_congr rfl (fun _ => rfl) fun _ => ?worker
    case manager =>
      rw [ite_and]
      refine ite_congr rfl (fun _ => ?_) fun _ => rfl
      rw [State.managerFault, State.checked_time]
      rfl
    case worker =>
      by_cases sent : (cls, e) ∈ s.prot.sent ∧ waits = false
      · refine Eq.trans ?_ (if_pos sent).symm
        refine State.workerFault_of_sent _ b good bits ?_
        rwa [State.checked_prot, State.checked_holdsFault]
      · refine Eq.trans ?_ (if_neg sent).symm
        refine (State.workerFault_of_not_sent _ b good bits ?_).trans ?_
        · rwa [State.checked_prot, State.checked_holdsFault]
        · rw [State.checked_hasReported, State.hasReported_eq, State.checked_address]
          rfl

end Sys2Proof.Machine
end

section
/-!
PROOF. O28: the opcodes of a strand (Table 10-7), at receipt and at the boundary (R235, R236, R255, R260, R261).
-/
namespace Sys2Proof.Machine

/-! ### STRAND_CONFIG (R236, R260) -/

/-- A strand that holds a record keeps its epoch of entry; the first record enters HALT IDLE at the boundary that applies it. -/
theorem Strand.configure_eq (x : Strand) (epoch : Nat) (b : List Byte) :
    x.configure epoch b =
      if x.body.isSome then x.load b else { x.load b with mach := { (x.load b).mach with entered := epoch } } := rfl

/-! ### CHARGE_EQUALISE -/

/-- Chemistry 3: the equalisation falls due, and a decision not yet applied is dropped. -/
theorem opChargeEqualise_run_of_chem {s : State} {f : Flight} (chem : (s.strand (byteAt f.payload 0)).chem = 3) :
    opChargeEqualise.run s f =
      (s.modStrand (byteAt f.payload 0) fun x => { x with next := none, mach := { x.mach with equaliseDue := true } },
        some [stOk]) :=
  if_pos (beq_iff_eq.mpr chem)

/-- Any other chemistry refuses it: NOT_NICD, and no strand changes. -/
theorem opChargeEqualise_run_of_other {s : State} {f : Flight} (other : (s.strand (byteAt f.payload 0)).chem ≠ 3) :
    opChargeEqualise.run s f = (s, some [0x99]) :=
  if_neg (mt beq_iff_eq.mp other)

/-! ### STRAND_STATUS (R261) -/

/-- The strand's state as shown at the latest boundary, and before the first one as it is. -/
theorem Strand.reply_eq (x : Strand) : x.reply = if x.shown = [] then x.status else x.shown := by
  simp only [Strand.reply, List.isEmpty_iff]

/-- What a boundary shows of each strand, with the voltage and the temperatures of its snapshot; nothing else of it changes. -/
theorem State.showStrands_strands (s : State) :
    s.showStrands.charge.strands = s.charge.strands.map fun x =>
      { x with shown := Strand.status { x with vs := x.volts s, tempKnown := !(x.temps s).isEmpty } } := rfl

/-! ### The statement -/

/-- Settles O28, opcode by opcode: STRAND_CONFIG and CHARGE_START are what their checks let through, CHARGE_EQUALISE goes by the
chemistry, STRAND_STATUS by what the latest boundary showed, and the others run alike in every state. -/
theorem strandOpcodes : Obligations.StrandOpcodes := by
  unfold Obligations.StrandOpcodes
  refine ⟨?config, ?start, ?stop, ?equalise, ?status, ?limits, ?plan⟩
  case config =>
    simp only [← Strand.configure_eq]
    exact Applies.of_check (fun _ _ => rfl) rfl rfl fun _ _ => rfl
  case start => exact Applies.of_check (fun _ _ => rfl) rfl rfl fun _ _ => rfl
  case stop => exact Applies.of_run (fun _ _ => rfl) rfl rfl fun _ _ => rfl
  case equalise =>
    refine Applies.of_run (fun _ _ => rfl) rfl rfl fun s f => ?_
    by_cases chem : (s.strand (byteAt f.payload 0)).chem = 3
    · simp only [opChargeEqualise_run_of_chem chem, if_pos chem]
    · simp only [opChargeEqualise_run_of_other chem, if_neg chem]
  case status =>
    intro status
    have shows : status = Strand.status := funext fun x => by simp only [status, Strand.status, beq_iff_eq]
    rw [shows]
    refine ⟨Performs.of_run (fun _ _ => rfl) fun s f _ => ?_, State.showStrands_strands⟩
    simp only [opStrandStatus, okayWith, Strand.reply_eq]
  case limits => exact Performs.of_run (fun _ _ => rfl) fun _ _ _ => rfl
  case plan => exact Applies.of_run (fun _ _ => rfl) rfl rfl fun _ _ => rfl

end Sys2Proof.Machine
end

section
/-!
PROOF. O29: the opcodes of the Bezel channels and of the power path (Table 11-14), at receipt and at the boundary (R263, R271, R288).
-/
namespace Sys2Proof.Machine

variable (s : State)

/-! ### BEZEL_CONFIG (R263, R271) -/

/-- The record is in force in every state, and LOCKOUT alone outlives it. -/
theorem State.loadChan_eq (k : Nat) (b : List Byte) :
    s.loadChan k b =
      let t := s.modChan k fun c => { c with body := some b, qualify := 0 }
      if (s.chan k).state = .lockout then t else t.setChan k (t.restState k (some b)) 0 := by
  simp only [State.loadChan, beq_iff_eq]

/-! ### SOURCE_INHIBIT -/

/-- A die that owns the sources takes the inhibits and answers OK; any other refuses them and stays as it is. -/
theorem opSourceInhibit_run_eq (f : Flight) :
    opSourceInhibit.run s f =
      (if s.ownsSources then { s with path := { s.path with inhibit := BitVec.ofNat 4 (byteAt f.payload 0) } } else s,
        some (if s.ownsSources then [stOk] else [0xA1])) := by
  cases owns : s.ownsSources <;> simp [opSourceInhibit, owns, okay, answer, State.modPath]

/-! ### BEZEL_CLEAR (R271) -/

/-- Only LOCKOUT is cleared, and only while the contact does not read closed. -/
theorem bezelClearCheck_eq (p : List Byte) :
    let c := s.chan (byteAt p 0)
    bezelClearCheck s p = if c.state ≠ .lockout then some [stBadParam] else if c.fb then some [0x91] else none := by
  intro c
  by_cases locked : c.state = .lockout
  · cases fb : c.fb <;> simp [bezelClearCheck, need, firstOf, c, locked, fb]
  · simp [bezelClearCheck, need, firstOf, c, locked]

/-- A channel that it releases rests in the state that its record gives, not welded; a refusal changes nothing. -/
theorem opBezelClear_run_eq (f : Flight) :
    let k := byteAt f.payload 0
    let c := s.chan k
    opBezelClear.run s f =
      (if c.state = .lockout ∧ c.fb = false then
          (s.setChan k (s.restState k c.body) 0).modChan k fun c => { c with welded := false }
        else s,
        some (if c.state ≠ .lockout then [stBadParam] else if c.fb then [0x91] else [stOk])) := by
  intro k c
  have check := bezelClearCheck_eq s f.payload
  by_cases locked : c.state = .lockout
  · cases fb : c.fb with
    | true => simp [opBezelClear, check, k, c, locked, fb]
    | false => simp [opBezelClear, check, okay, k, c, locked, fb]
  · simp [opBezelClear, check, k, c, locked]

/-! ### The statement -/

/-- Settles O29, opcode by opcode: BEZEL_CONFIG and PATH_CONFIG are what their checks let through, SOURCE_INHIBIT goes by who owns the
sources, BEZEL_CLEAR by LOCKOUT and the contact, and the others run alike in every state. -/
theorem powerPathOpcodes : Obligations.PowerPathOpcodes := by
  unfold Obligations.PowerPathOpcodes
  refine ⟨?config, ?path, ?inhibit, ?clear, ?status, ?peer⟩
  case config =>
    simp only [← State.loadChan_eq]
    exact Applies.of_check (fun _ _ => rfl) rfl rfl fun _ _ => rfl
  case path => exact Applies.of_check (fun _ _ => rfl) rfl rfl fun _ _ => rfl
  case inhibit => exact Applies.of_run (fun _ _ => rfl) rfl rfl opSourceInhibit_run_eq
  case clear => exact Applies.of_run (fun _ _ => rfl) rfl rfl opBezelClear_run_eq
  case status => exact Performs.of_run (fun _ _ => rfl) fun _ _ _ => rfl
  case peer => exact Performs.of_run (fun _ _ => rfl) fun _ _ _ => rfl

end Sys2Proof.Machine
end

section
/-!
PROOF. O57: the events of the Bezel channels: comparators (R264, R266), the slow level (R267), feedback and its times (R265), the
opening (R268, R270) and the retries (R270).
-/
namespace Sys2Proof.Machine

variable (s : State)

/-! ### The opening and the trip (R266, R268, R270) -/

/-- With the retries used up an opening is LOCKOUT, which the tie's port is told of, and otherwise TRIPPED. -/
theorem State.openTrip_eq (k cls : Nat) :
    let c := s.chan k
    let full := decide (c.prof 0x26 1 ≤ c.retries)
    let u := s.setChan k (if full then .lockout else .tripped) cls
    let v := if k = 4 ∧ c.state.driven = true then u.bz4LanesTrip none else u
    s.openTrip k cls = if full then v.tieLocked k else v := by
  by_cases full : (s.chan k).retryMax ≤ (s.chan k).retries
  · simp [State.openTrip, full, show (s.chan k).prof 0x26 1 ≤ (s.chan k).retries from full]
  · simp [State.openTrip, full, show ¬(s.chan k).prof 0x26 1 ≤ (s.chan k).retries from full]

/-- A trip is recorded in every state but DISABLED, and opens the channel where it is not open already. -/
theorem State.bezelTrip_eq (k cls code : Nat) (noSample : Bool) :
    s.bezelTrip k cls code noSample =
      if (s.chan k).state = .disabled then s
      else if (s.chan k).state.driven = true ∨ ((s.chan k).state = .opening ∧ cls = clsOv) then
        (s.recordBezel k cls code noSample).openTrip k cls
      else s.recordBezel k cls code noSample := by
  refine ite_congr (by simp) (fun _ => rfl) fun _ => ite_congr (by simp) (fun _ => rfl) fun _ => rfl

/-! ### Comparators (R264, R266, log 95) -/

theorem ChanState.judged_iff (m : ChanState) : m.judged = true ↔ m.driven = true ∨ m = .tripped ∨ m = .lockout := by
  simp [ChanState.judged, or_assoc]

/-- The class of a comparator that is armed: the current comparators with the channel driven or opened by a trip, that of the voltage
with a code other than 0. -/
theorem State.bezelArmed_eq (k kind : Nat) :
    s.bezelArmed k kind =
      if (s.chan k).state = .disabled ∨ s.isReady .bezel = false then none
      else match kind with
        | 0 => if (s.chan k).state.driven = true ∨ (s.chan k).state = .tripped ∨ (s.chan k).state = .lockout then some 0x10 else none
        | 1 => if (s.chan k).state.driven = true ∨ (s.chan k).state = .tripped ∨ (s.chan k).state = .lockout then
            some (if s.exporting k then 0x10 else 0x13) else none
        | _ => if (s.chan k).prof 4 2 ≠ 0 then some 0x12 else none := by
  simp only [← ChanState.judged_iff]
  refine ite_congr (by simp) (fun _ => rfl) fun _ => rfl

/-- What stands noted of the comparator of a kind. -/
def Chan.crossing (c : Chan) : Nat → Bool
  | 0 => c.ocPending
  | 1 => c.revPending
  | _ => c.ovPending

theorem Chan.crossing_eq (c : Chan) (kind : Nat) :
    c.crossing kind = if kind = 0 then c.ocPending else if kind = 1 then c.revPending else c.ovPending := by
  match kind with
  | 0 | 1 | _ + 2 => rfl

/-- A crossing is noted as that of its comparator alone. -/
theorem execBezelComparatorCrossing_eq (n : Nat) (crossed : Bool) :
    execBezelComparatorCrossing n crossed s = .next (s.modChan (n / 3) fun c =>
      { c with
        ocPending := if n % 3 = 0 then crossed else c.ocPending
        revPending := if n % 3 = 1 then crossed else c.revPending
        ovPending := if n % 3 = 2 then crossed else c.ovPending }) := by
  have kinds : n % 3 = 0 ∨ n % 3 = 1 ∨ n % 3 = 2 := by omega
  rcases kinds with kind | kind | kind <;> simp [execBezelComparatorCrossing, bezelKind, kind]

/-- The end of a filter passes where the comparator is not armed, or has come back. -/
theorem execBezelTrip_of_rests {n : Nat}
    (rests : s.bezelArmed (n / 3) (n % 3) = none ∨ (s.chan (n / 3)).crossing (n % 3) = false) : execBezelTrip n s = .next s := by
  cases armed : s.bezelArmed (n / 3) (n % 3) with
  | none => simp only [execBezelTrip, bezelKind, armed]
  | some cls =>
    have back := rests.resolve_left (by simp [armed])
    simp only [execBezelTrip, bezelKind, armed]
    exact if_neg (Bool.eq_false_iff.mp back)

/-- A crossing that outlasts the filter of an armed comparator is a trip of its class. -/
theorem execBezelTrip_of_crossed {n cls : Nat} (armed : s.bezelArmed (n / 3) (n % 3) = some cls)
    (crossed : (s.chan (n / 3)).crossing (n % 3) = true) :
    execBezelTrip n s = .next (s.bezelTrip (n / 3) cls (s.codeInForce (n / 3) (n % 3)) false) := by
  simp only [execBezelTrip, bezelKind, armed]
  exact if_pos crossed

/-! ### The slow level without samples (R267) -/

theorem execSlowOcNoSample_eq (k : Nat) :
    execSlowOcNoSample k s = .next (
      if (s.chan k).state = .closed ∧ (s.chan k).pickup ≠ 0 ∧ (s.chan k).prof 2 1 ≠ 0xFF then s.bezelTrip k clsOcSlow 0 true
      else s) :=
  next_ite (by simp [and_assoc]) ..

/-! ### Feedback (R265, log 107) -/

theorem execBzFbQualified_eq (k : Nat) :
    execBzFbQualified k s = .next (if s.isReady .bezel = true ∧ s.drives k = true then s.fbQualified k else s) :=
  next_ite (by simp) ..

/-- A feedback fault that leaves the channel in LOCKOUT. -/
def State.feedbackLockout (k : Nat) : State := (s.recordBezel k clsFeedback 0 false).setChan k .lockout clsFeedback

/-- The close time passes: LOCKOUT, and BZ4 takes its lanes along (R268). -/
theorem execBzCloseTimeout_eq (k : Nat) :
    execBzCloseTimeout k s = .next (
      if (s.chan k).state = .closing ∧ s.isReady .bezel = true then
        (if k = 4 then (s.feedbackLockout k).bz4LanesTrip none else s.feedbackLockout k).tieLocked k
      else s) :=
  next_ite (by simp) ..

/-- The open time passes, whatever opened the channel: LOCKOUT, and the contact counts as welded. -/
theorem execBzOpenTimeout_eq (k : Nat) :
    execBzOpenTimeout k s = .next (
      if ((s.chan k).state = .opening ∨ (s.chan k).state = .tripped) ∧ (s.chan k).openSeen = false ∧ s.isReady .bezel = true then
        ((s.feedbackLockout k).modChan k fun c => { c with welded := true }).tieLocked k
      else s) :=
  next_ite (by simp [and_assoc]) ..

/-! ### Retries (R270) -/

theorem execBzRetryReset_eq (k : Nat) :
    execBzRetryReset k s = .next (
      if (s.chan k).state = .closed then s.modChan k fun c => { c with retries := 0 } else s) :=
  next_ite beq_iff_eq ..

/-! ### The statement -/

/-- Settles O57, event by event: a comparator by whether it is armed and crossed, qualified feedback by the channel's state and the
contact, and the other events by their equations. -/
theorem bezelEvents : Obligations.BezelEvents := by
  unfold Obligations.BezelEvents
  intro armed inForce record open_ trip
  have arms (s : State) (k kind : Nat) : armed s k kind = s.bezelArmed k kind := (s.bezelArmed_eq k kind).symm
  have opens (k cls : Nat) (t : State) : open_ k cls t = t.openTrip k cls := (t.openTrip_eq k cls).symm
  have trips (k cls code : Nat) (b : Bool) (t : State) : trip k cls code b t = t.bezelTrip k cls code b := by
    rw [t.bezelTrip_eq, ← opens]
    rfl
  refine ⟨fun n crossed s => execBezelComparatorCrossing_eq s n crossed, fun n s => ?trip, fun k s => ?slow, fun k closed s => ?change,
    fun k s => ?qualified, fun k s => execBzCloseTimeout_eq s k, fun k s => execBzOpenTimeout_eq s k,
    fun k s => execBzRetryReset_eq s k⟩
  case trip =>
    intro c crossed
    have crosses : crossed = c.crossing (n % 3) := (c.crossing_eq _).symm
    refine ⟨fun rests => ?_, fun cls armed crossed => ?_⟩
    · rw [arms, crosses] at rests
      exact execBezelTrip_of_rests s rests
    · rw [arms] at armed
      rw [crosses] at crossed
      rw [trips]
      exact execBezelTrip_of_crossed s armed crossed
  case slow =>
    rw [trips]
    exact execSlowOcNoSample_eq s k
  case change => exact next_ite Iff.rfl ..
  case qualified =>
    simp only [opens]
    exact (execBzFbQualified_eq s k).trans (congrArg _ (ite_congr rfl (fun _ => rfl) fun _ => rfl))

end Sys2Proof.Machine
end

section
/-!
PROOF. O58: the frames of the Pendant link and their answers (R292 to R297), and the transitions of the link (R298, R299).
-/
namespace Sys2Proof.Machine

variable (s : State)

/-! ### Check 1 of a frame (R292, R296) -/

/-- START, a defined TYPE, and the CRC over the three bytes before it. -/
theorem frameGood_iff (w : Nat) :
    frameGood w = true ↔ w / 2 ^ 29 % 8 = 5 ∧ w / 2 ^ 27 % 4 ≤ 1 ∧
      crc8 [w / 2 ^ 24 % 256, w / 2 ^ 16 % 256, w / 2 ^ 8 % 256] = w % 256 := by
  rw [frameGood, Bool.and_eq_true, Bool.and_eq_true, beq_iff_eq, beq_iff_eq, decide_eq_true_iff, and_assoc]
  rfl

/-- A frame has 32 bits. -/
theorem execPendantSetpointFrame_of_lt {w : Nat} (bits : w < 2 ^ 32) :
    execPendantSetpointFrame w s = .next (s.pendantFrame w) := by
  rw [execPendantSetpointFrame, Nat.mod_eq_of_lt bits]

theorem execPendantSetpointFrame_mod (w : Nat) :
    execPendantSetpointFrame (w % 2 ^ 32) s = execPendantSetpointFrame w s := by
  rw [execPendantSetpointFrame, Nat.mod_mod, ← execPendantSetpointFrame]

theorem State.pendantFrame_of_off (w : Nat) (off : s.pendantOn = false) : s.pendantFrame w = s :=
  if_pos (by rw [off]; rfl)

section
variable {s} {w : Nat} (on : s.pendantOn = true)
include on

theorem State.pendantFrame_of_bad (bad : ¬frameGood w = true) : s.pendantFrame w = s.pendantAnswer 2 0 (nakStatus w) := by
  simp only [State.pendantFrame, on, bad, Bool.not_true, Bool.not_false, Bool.false_eq_true, if_true, if_false]

variable (good : frameGood w = true)
include good

theorem State.pendantFrame_of_setpoint (type : frameType w = 0) : s.pendantFrame w = s.setpoint w := by
  simp only [State.pendantFrame, on, good, type, Bool.not_true, Bool.false_eq_true, if_true, if_false]

theorem State.pendantFrame_of_status (type : frameType w = 1) : s.pendantFrame w = s.statusFrame w := by
  simp only [State.pendantFrame, on, good, type, Bool.not_true, Bool.false_eq_true, Nat.one_ne_zero, if_false]

end

/-! ### STATUS (R301, R302, Table 12-4) -/

/-- The ending that asserted the alert, else a transition in progress or a line that a source holds, else the last ending. -/
theorem State.pendantStatus_eq :
    s.pendantStatus = if s.pendant.alert then endingCode s.pendant.alertEnd
      else if s.pendant.phase ≠ .idle ∨ (s.pendant.mode = 1 ∧ s.path.holder = .source) then 1
      else endingCode s.pendant.lastEnd := by
  simp only [State.pendantStatus, Bool.or_eq_true, Bool.and_eq_true, bne_iff_ne, beq_iff_eq, decide_eq_true_eq]

/-- The alert is released in either answer. -/
theorem State.statusFrame_eq (w : Nat) :
    let t := s.modPendant fun p => { p with alert := false }
    s.statusFrame w = if s.pendant.mode = 0 ∨ s.limits = none then t.pendantAnswer 3 (frameSeq w) 2
      else t.pendantAnswer 1 (frameSeq w) s.pendantStatus := by
  simp only [State.statusFrame, Bool.or_eq_true, decide_eq_true_eq, Option.isNone_iff_eq_none]

/-! ### The refusals of a SETPOINT (R296, checks 2 to 4) -/

/-- The target lies outside the link's range, or above what a lane of the BUS mask may put out. -/
def State.outsideLimits (s : State) (b : List Byte) (mV : Nat) : Prop :=
  mV < certLinkMin b ∨ certLinkMax b < mV ∨
    (s.pendant.mode = 2 ∧ ∃ k, k < 4 ∧ s.pendant.mask.testBit k = true ∧ certVout b k < mV)

theorem State.setpointRefusal_of_off (w : Nat) (off : s.pendant.mode = 0 ∨ s.limits = none) :
    s.setpointRefusal w = some 2 := by
  cases limits : s.limits with
  | none => simp only [State.setpointRefusal, limits]
  | some b =>
    have mode : s.pendant.mode = 0 := off.resolve_right (by rw [limits]; exact Option.some_ne_none b)
    simp only [State.setpointRefusal, limits, mode, if_true]

section
variable {s} {w : Nat} {b : List Byte} (mode : s.pendant.mode ≠ 0) (limits : s.limits = some b)
include limits

theorem State.setpointMv_of_limits : s.setpointMv w = frameCode w * certPendant b / 4095 := by
  simp only [State.setpointMv, limits]

include mode

/-- With limits in force, the slew limit is checked before the voltage. -/
theorem State.setpointRefusal_of_limits [Decidable (s.outsideLimits b (s.setpointMv w))] :
    s.setpointRefusal w =
      if certSlew b < frameSlew w then some 1 else if s.outsideLimits b (s.setpointMv w) then some 0 else none := by
  simp only [State.setpointRefusal, limits, if_neg mode]
  refine ite_congr rfl (fun _ => rfl) fun _ => if_congr ?_ rfl rfl
  simp only [State.outsideLimits, State.setpointMv_of_limits limits, Bool.or_eq_true, Bool.and_eq_true, decide_eq_true_eq, List.any_eq_true,
    List.mem_range, or_assoc]

end

theorem State.setpoint_of_refusal {w st : Nat} (refused : s.setpointRefusal w = some st) :
    s.setpoint w = s.pendantAnswer 3 (frameSeq w) st := by
  simp only [State.setpoint, refused]

/-! ### A SETPOINT that is accepted (R293, R297) -/

theorem State.pendantMoves_iff :
    s.pendantMoves = true ↔ if s.pendant.mode = 2 then s.busRuns = true else s.path.holder = .lanes := by
  unfold State.pendantMoves
  split
  · rfl
  · exact beq_iff_eq

/-- Where the link is not the lanes', the setpoint is stored. -/
theorem State.setpoint_of_rests {w : Nat} (accepted : s.setpointRefusal w = none) (rests : ¬s.pendantMoves = true) :
    s.setpoint w = (s.modPendant fun p =>
        { p with stored := true, target := s.setpointMv w, slew := frameSlew w, lastSeq := frameSeq w }).pendantAnswer 1 (frameSeq w)
      (if s.pendant.mode = 1 ∧ s.path.holder = .source then 1 else 2) := by
  simp only [State.setpoint, accepted, if_neg rests, Bool.and_eq_true, decide_eq_true_eq, beq_iff_eq]

theorem State.setpoint_of_moves {w : Nat} (accepted : s.setpointRefusal w = none) (moves : s.pendantMoves = true) :
    s.setpoint w = (s.startTransition (s.setpointMv w) (frameSlew w) (frameSeq w)).pendantAnswer 1 (frameSeq w) 0 := by
  simp only [State.setpoint, accepted, if_pos moves]

/-! ### The start of a transition (R298, R300) -/

/-- The reference that a transition starts from, and the state once a transition in progress has ended. -/
def State.transitionStart (s : State) : Nat × State :=
  if s.pendant.phase = .idle then (s.pendantVolts, s) else (s.pendant.ref.getD 0, s.pendantEnd 2 0)

theorem State.startTransition_eq (target slew seqNo : Nat) :
    s.startTransition target slew seqNo = s.transitionStart.2.modPendant fun p =>
      { p with
        stored := true, target := target, slew := slew, rate := slew, ref := some s.transitionStart.1, seqNo := seqNo, lastSeq := seqNo
        phase := if s.transitionStart.1 = target then .settling else .slewing } := by
  simp only [State.startTransition, State.transitionStart, beq_iff_eq]
  rfl

theorem State.transitionStart_of_idle (idle : s.pendant.phase = .idle) : s.transitionStart = (s.pendantVolts, s) := if_pos idle

theorem State.transitionStart_of_moving (moving : s.pendant.phase ≠ .idle) :
    s.transitionStart = (s.pendant.ref.getD 0, s.pendantEnd 2 0) := if_neg moving

/-- Either rounding lies less than one unit from the quotient. -/
theorem roundOpen_near (place : Nat) (num : Int) {den : Nat} (h : 0 < den) :
    num - den < roundOpen place num den * den ∧ roundOpen place num den * den < num + den := by
  have quotient : den * (num / den) + num % den = num := Int.mul_ediv_add_emod ..
  have low : 0 ≤ num % den := Int.emod_nonneg _ (by omega)
  have high : num % den < den := Int.emod_lt_of_pos _ (by omega)
  by_cases whole : num % (den : Int) = 0
  · rw [roundOpen, if_pos whole, mul_comm]
    omega
  · rw [roundOpen, if_neg whole, add_mul, mul_comm (num / (den : Int))]
    cases Config.roundUp place num den with
    | false =>
      rw [show ((bit false : Nat) : Int) = 0 from rfl, zero_mul]
      omega
    | true =>
      rw [show ((bit true : Nat) : Int) = 1 from rfl, one_mul]
      omega

/-- The measured voltage in mV, rounded either way. -/
theorem State.pendantVolts_near {v : Int} (volts : s.volts s.pendant.input = some v) (pos : 0 ≤ v * (s.pendantScale : Int)) :
    v * (s.pendantScale : Int) - 32768 < (s.pendantVolts : Int) * 32768 ∧
      (s.pendantVolts : Int) * 32768 < v * (s.pendantScale : Int) + 32768 := by
  have near := roundOpen_near 11 (v * (s.pendantScale : Int)) (den := 32768) (by decide)
  simp only [State.pendantVolts, volts]
  omega

/-! ### The end of a transition (R299) -/

/-- An ending is reported as an event and asserts the alert, unless the transition was superseded. -/
theorem State.pendantEnd_eq (how reason : Nat) :
    s.pendantEnd how reason = if s.pendant.phase = .idle then s
      else (s.dueEvent 0x7F70 0 (le 1 s.pendant.seqNo ++ le 1 how ++ le 1 reason ++ zeros 1 ++ le 4 s.pendant.target ++ le 4 s.time.epoch
        ++ le 4 s.time.tick)).modPendant fun p =>
        { p with
          phase := .idle
          lastEnd := how
          alert := p.alert || decide (how ≠ 2)
          alertEnd := if how = 2 then p.alertEnd else how
          superseded := if how = 2 then satAdd 255 p.superseded 1 else p.superseded } := by
  simp only [State.pendantEnd, beq_iff_eq]

theorem State.pendantInBand_iff :
    s.pendantInBand = true ↔ ∃ v, s.volts s.pendant.input = some v ∧
      (v * (s.pendantScale : Int) - (s.pendant.target : Int) * 32768).natAbs ≤ s.pendant.band * 32768 := by
  cases volts : s.volts s.pendant.input <;> simp [State.pendantInBand, volts]

/-! ### The other events -/

theorem execPendantGapDiscard_eq :
    execPendantGapDiscard s = .next (if s.pendantOn then
      s.modPendant fun p => { p with discarded := satAdd 255 p.discarded 1 } else s) :=
  next_ite Iff.rfl ..

theorem execPendantAnswerReady_eq :
    execPendantAnswerReady s = .next (if s.pendant.answers ≠ [] then s.modPendant fun p => { p with ready := true } else s) := by
  simp only [execPendantAnswerReady, List.isEmpty_iff, ne_eq, ite_not]
  split <;> rfl

theorem execPendantAnswerRead_eq :
    execPendantAnswerRead s = .next (if s.pendant.ready then s.modPendant Pendant.release else s) :=
  next_ite Iff.rfl ..

theorem execPendantSlewStep_eq :
    execPendantSlewStep s = .next (if s.pendant.phase = .slewing then s.modPendant Pendant.step else s) :=
  next_ite beq_iff_eq ..

theorem execPendantDone_eq :
    execPendantDone s = .next (if s.pendant.phase = .settling ∧ s.pendantInBand = true then s.pendantEnd 1 0 else s) :=
  next_ite (by rw [Bool.and_eq_true, beq_iff_eq]) ..

theorem execPendantNotSettled_eq :
    execPendantNotSettled s = .next (if s.pendant.phase = .settling then s.pendantEnd 3 1 else s) :=
  next_ite beq_iff_eq ..

/-! ### The statement -/

/-- Settles O58: a frame by its first check, its type and the refusals of R296, and the other events by their equations. -/
theorem pendantEvents : Obligations.PendantEvents := by
  unfold Obligations.PendantEvents
  intro on put ended good
  have ends (how reason : Nat) (t : State) : ended how reason t = t.pendantEnd how reason := (t.pendantEnd_eq how reason).symm
  have goods (w : Nat) : good w ↔ frameGood w = true := (frameGood_iff w).symm
  have frames (w : Nat) (s : State) (bits : w < 2 ^ 32) : exec (.pendantSetpointFrame w) s = .next (s.pendantFrame w) :=
    execPendantSetpointFrame_of_lt s bits
  refine ⟨fun w s => ⟨rfl, execPendantSetpointFrame_mod s w⟩, fun w s off => congrArg _ (s.pendantFrame_of_off _ off),
    fun w s isOn bits bad => ?nak, fun w s isOn bits isGood type => ?status, fun w s isOn bits isGood type off => ?off,
    fun w s b isOn bits isGood type mode limits => ?setpoint, execPendantGapDiscard_eq, execPendantAnswerReady_eq,
    fun s => ⟨execPendantAnswerRead_eq s, execPendantAnswerRead_eq s⟩, execPendantSlewStep_eq, fun s => ?done, fun s => ?notSettled⟩
  case nak =>
    refine ⟨nakStatus w, Nat.mod_lt _ (by decide), ?_⟩
    rw [frames w s bits, State.pendantFrame_of_bad isOn (mt (goods w).mpr bad)]
    rfl
  case status =>
    intro t seq
    rw [frames w s bits, State.pendantFrame_of_status isOn ((goods w).mp isGood) type, State.statusFrame_eq, State.pendantStatus_eq]
    rfl
  case off =>
    rw [frames w s bits, State.pendantFrame_of_setpoint isOn ((goods w).mp isGood) type,
      s.setpoint_of_refusal (s.setpointRefusal_of_off w off)]
    rfl
  case setpoint =>
    intro seq slew mV outside moves
    classical
    rw [frames w s bits, State.pendantFrame_of_setpoint isOn ((goods w).mp isGood) type]
    have target : s.setpointMv w = mV := State.setpointMv_of_limits limits
    have refusal := State.setpointRefusal_of_limits (w := w) mode limits
    rw [target] at refusal
    have lanes : s.pendantMoves = true ↔ moves := s.pendantMoves_iff
    have accepted (slow : slew ≤ certSlew b) (inside : ¬outside) : s.setpointRefusal w = none :=
      refusal.trans ((if_neg (Nat.not_lt.mpr slow)).trans (if_neg inside))
    refine ⟨fun fast => ?_, fun slow out => ?_, fun slow inside rests => ?_, fun slow inside moving => ?_⟩
    · exact congrArg _ (s.setpoint_of_refusal (refusal.trans (if_pos fast)))
    · exact congrArg _ (s.setpoint_of_refusal (refusal.trans ((if_neg (Nat.not_lt.mpr slow)).trans (if_pos out))))
    · rw [s.setpoint_of_rests (accepted slow inside) (mt lanes.mp rests), target]
      rfl
    · refine ⟨s.transitionStart.1, s.transitionStart.2, ?_, fun busy => ?_, fun idle => ?_⟩
      · rw [s.setpoint_of_moves (accepted slow inside) (lanes.mpr moving), s.startTransition_eq, target]
        rfl
      · rw [s.transitionStart_of_moving busy, ends]
        exact ⟨rfl, rfl⟩
      · rw [s.transitionStart_of_idle idle]
        exact ⟨rfl, fun v => s.pendantVolts_near⟩
  case done =>
    simp only [ends, ← State.pendantInBand_iff]
    exact execPendantDone_eq s
  case notSettled =>
    rw [ends]
    exact execPendantNotSettled_eq s

end Sys2Proof.Machine
end

section
/-!
SUPPORT. What a die does with a frame of the chain that it receives: whether its ports run and it acts itself, what goes on, and what is
counted (R310, R312, R314, R333).
-/
namespace Sys2Proof.Machine

/-- A case of an event row: the model decides between outcomes, the statements between states. -/
theorem ite_eq_next {c d : Prop} [Decidable c] [Decidable d] (h : c ↔ d) {x y : Host.Outcome State Fault Refusal} {t u : State}
    (yes : d → x = .next t) (no : ¬d → y = .next u) : (if c then x else y) = .next (if d then t else u) := by
  by_cases hd : d
  · rw [if_pos (h.mpr hd), if_pos hd, yes hd]
  · rw [if_neg (mt h.mp hd), if_neg hd, no hd]

variable (s : State)

/-- No port runs on a standalone die or without the clocks. -/
theorem State.not_portsRun_iff : (!s.portsRun) = true ↔ s.isStandalone = true ∨ s.sys.clk ≠ .running := by
  rw [Bool.not_eq_true', ← Bool.not_eq_true, s.portsRun_iff, not_not]

/-- A die whose ports run acts unless it is held in a reset. -/
theorem State.chainActs_of_portsRun (ports : s.portsRun = true) : s.chainActs = !s.sys.held := by
  rw [State.chainActs, ports, Bool.true_and]

theorem carriedOn_eq (h : Harm) (f : ChainFrame) : carriedOn h f = if h = .cut then .abort else f := by
  simp only [carriedOn, beq_iff_eq]

theorem State.hearFrame_eq (h : Harm) : s.hearFrame h = if h = .none then s else s.badFrame h := by
  simp only [State.hearFrame, beq_iff_eq]

/-- A die counts a harmed frame that it has passed on, unless it is held in a reset. -/
theorem hearing_eq (held : Bool) (h : Harm) (t : State) :
    (if !held then t.hearFrame h else t) = if held = false ∧ h ≠ .none then t.badFrame h else t := by
  rw [State.hearFrame_eq, ite_and]
  refine ite_congr (by simp) (fun _ => ?_) fun _ => rfl
  rw [ite_not]

/-- The relay upstream: through the buffer, or ABORT in its place where the buffer has no room for the frame (R312). -/
theorem State.relayBulk_eq (f : ChainFrame) :
    s.relayBulk f =
      if 2048 < s.slolos.bulkWaiting + f.chars then
        (s.sendUp .abort).modSlolos fun y => { y with errDropped := satAdd 255 y.errDropped 1 }
      else s.modSlolos fun y =>
        if y.facing = 2 then { y with txB := relayInto y.txB y.spentB f } else { y with txA := relayInto y.txA y.spentA f } := by
  simp only [State.relayBulk, beq_iff_eq]

end Sys2Proof.Machine
end

section
/-!
PROOF. O31: the opcodes of the chain (R336, R337).
-/
namespace Sys2Proof.Machine

/-- CHAIN_ENUMERATE, checked again at its boundary: a full enumeration or an append pass (R320). -/
theorem opChainEnumerate_run_eq (s : State) (f : Flight) :
    opChainEnumerate.run s f = match enumerateCheck s f.payload with
      | some a => (s, some a)
      | none => okay (if byteAt f.payload 0 = 1 then s.fullEnumeration else s.startPass 0) := by
  cases refused : enumerateCheck s f.payload with
  | some a => simp only [opChainEnumerate, refused]
  | none => simp only [opChainEnumerate, refused, beq_iff_eq]

/-- CHAIN_CONFIG waits for the end of a pass. -/
theorem opChainConfig_run_eq (s : State) (f : Flight) :
    opChainConfig.run s f =
      (if s.slolos.enumActive then s else s.modSlolos fun y => y.config (f.payload.drop 4),
        some (if s.slolos.enumActive then [0xB1] else [stOk])) := by
  by_cases active : s.slolos.enumActive = true
  · simp only [opChainConfig, if_pos active, answer]
  · simp only [opChainConfig, if_neg active, okay]

/-- Settles O31, opcode by opcode: the two reads by what they run, CHAIN_ENUMERATE by its check at the boundary, and CHAIN_CONFIG by
whether a pass is in progress. -/
theorem chainOpcodes : Obligations.ChainOpcodes := by
  unfold Obligations.ChainOpcodes
  intro pass
  refine ⟨?status, ?worker, ?enumerate, ?reset, ?config⟩
  case status => exact Performs.of_run (fun _ _ => rfl) fun _ _ _ => rfl
  case worker => exact Performs.of_run (fun _ _ => rfl) fun _ _ _ => rfl
  case enumerate => exact Applies.of_check (fun _ _ => rfl) rfl rfl opChainEnumerate_run_eq
  case reset => exact Applies.of_run (fun _ _ => rfl) rfl rfl fun _ _ => rfl
  case config => exact Applies.of_run (fun _ _ => rfl) rfl rfl opChainConfig_run_eq

end Sys2Proof.Machine
end

section
/-!
PROOF. O52: links, delays and the notices of a loss (R316, R317, R334).
-/
namespace Sys2Proof.Machine

variable (s : State)

/-! ### Training and delays (R316, R317) -/

theorem execSlolosPortStart_eq (p : Nat) :
    execSlolosPortStart p s = .next (if s.chainActs = true ∧ s.slolos.port p = .off then
      s.chainBit.modSlolos fun y => y.setPort p .training else s) :=
  next_ite (by simp) ..

theorem execLinkUp_eq (p : Nat) :
    execLinkUp p s = .next (if s.chainActs = true ∧ (s.slolos.port p = .training ∨ s.slolos.port p = .down) then
      s.modSlolos fun y => y.setPort p .measuring else s) :=
  next_ite (by simp) ..

/-- The delays of a measured port. -/
def State.holdDelays (p d down up : Nat) : State :=
  s.modSlolos fun y =>
    { y.setPort p .up with cA := if p = 0 then d else y.cA, cB := if p = 0 then y.cB else d, r := down, rRev := up }

/-- A measured port is up; the SLB of a manager outside a pass starts one (Table 13-4, step 1). -/
theorem execDelayMeasured_eq (p d down up : Nat) :
    let t := s.holdDelays p d down up
    execDelayMeasured p d down up s = .next (
      if s.chainActs = true ∧ s.slolos.port p = .measuring then
        if s.isManager = true ∧ p = 1 ∧ s.slolos.enumActive = false then
          if s.slolos.verifyDue then t.startPass 2
          else if s.isReady .slolos then (if s.slolos.workers = 0 then t.startPass 0 else t)
          else t.startPass (if s.slolos.workers = 0 then 1 else 2)
        else t
      else s) :=
  ite_eq_next (by simp)
    (fun _ => ite_eq_next (by simp [and_assoc])
      (fun _ => ite_eq_next Iff.rfl (fun _ => rfl) fun _ => ite_eq_next Iff.rfl (fun _ => rfl) fun _ => rfl) fun _ => rfl)
    fun _ => rfl

/-! ### Losses and their notices (R333, R334) -/

/-- A port that goes down is counted with the violations that it met. -/
def State.portDown (p n : Nat) : State :=
  s.modSlolos fun y => { y.setPort p .down with errLink := satAdd 255 y.errLink 1, errCode := satAdd 255 y.errCode n }

/-- What a loss means to the manager, whose SLB begins the chain and whose SLA ends a closed ring. -/
theorem execLinkDownDetected_of_manager (p n : Nat) (manager : s.isManager = true) :
    execLinkDownDetected ⟨p, n⟩ s = .next (
      if s.chainActs = true ∧ (s.slolos.port p = .up ∨ s.slolos.port p = .measuring) then
        if p = 1 then (s.portDown p n).chainBroken 0 1
        else if s.slolos.topology = 2 then (s.portDown p n).chainBroken s.slolos.workers 0 else s.portDown p n
      else s) :=
  ite_eq_next (by simp)
    (fun _ => (if_pos manager).trans
      (ite_eq_next Iff.rfl (fun _ => rfl) fun _ => ite_eq_next beq_iff_eq (fun _ => rfl) fun _ => rfl))
    fun _ => rfl

/-- Any other die tells it on, away from the port that it lost. -/
theorem execLinkDownDetected_of_worker (p n : Nat) (worker : ¬s.isManager = true) :
    execLinkDownDetected ⟨p, n⟩ s = .next (
      if s.chainActs = true ∧ (s.slolos.port p = .up ∨ s.slolos.port p = .measuring) then
        if p = 0 then (s.portDown p n).chainBit.sendB (.control (.linkDown s.slolos.address 0))
        else (s.portDown p n).chainBit.sendUp (.control (.linkDown s.slolos.address p))
      else s) :=
  ite_eq_next (by simp)
    (fun _ => (if_neg worker).trans (congrArg _ (ite_congr rfl (fun first => by subst first; rfl) fun _ => rfl)))
    fun _ => rfl

/-- A notice of a loss, by whether the ports run and by the role of the die. -/
theorem execLinkDown_eq (h : Harm) (a p : Nat) :
    execLinkDown h a p s = .next (
      if s.isStandalone = true ∨ s.sys.clk ≠ .running then s
      else if s.isWorker then
        let f : ChainFrame := if h = .cut then .abort else .control (.linkDown a p)
        let t := if p = 0 then s.sendB f else s.sendUp f
        if s.sys.held = false ∧ h ≠ .none then t.badFrame h else t
      else if s.sys.held then s
      else if h ≠ .none then s.badFrame h
      else s.chainBroken (if p = 0 then a - 1 else a) p) := by
  rw [← carriedOn_eq]
  refine ite_eq_next s.not_portsRun_iff (fun _ => rfl) fun runs => ?_
  have ports := s.portsRun_iff.mpr runs
  rw [s.chainActs_of_portsRun ports]
  exact ite_eq_next Iff.rfl (fun _ => congrArg _ (hearing_eq ..)) fun _ =>
    ite_eq_next (by simp) (fun _ => rfl) fun _ => ite_eq_next (by simp) (fun _ => rfl) fun _ => rfl

theorem execEchoFrame_eq (p : Nat) (answer : Bool) (h : Harm) (r x : Nat) :
    execEchoFrame p answer h r x s = .next (
      if s.chainActs = false then s
      else if h ≠ .none then s.badFrame h
      else if answer then s
      else if p = 0 then s.sendA (.control (.echo r x)) else s.sendB (.control (.echo r x))) :=
  ite_eq_next (by simp) (fun _ => rfl) fun _ => ite_eq_next (by simp) (fun _ => rfl) fun _ => next_ite Iff.rfl ..

/-! ### The statement -/

/-- Settles O52, event by event: a loss by the role of the die, and the other events by their equations. -/
theorem chainLinks : Obligations.ChainLinks := by
  unfold Obligations.ChainLinks
  intro acts bad broken pass
  refine ⟨fun p s => execSlolosPortStart_eq s p, fun p s => execLinkUp_eq s p, fun p d down up s => execDelayMeasured_eq s p d down up,
    fun p n s => ?lost, fun h a p s => execLinkDown_eq s h a p, fun p answer h r x s => execEchoFrame_eq s p answer h r x⟩
  case lost =>
    by_cases manager : s.isManager = true
    · simp only [manager, if_true]
      exact execLinkDownDetected_of_manager s p n manager
    · simp only [manager]
      exact execLinkDownDetected_of_worker s p n manager

end Sys2Proof.Machine
end

section
/-!
PROOF. O40: packet frames of the chain at a worker and at the manager (R145, R327, R328).
-/
namespace Sys2Proof.Machine

variable (s : State) {b : List Byte} {x : Harm}

theorem execPacketFrame_of_stopped (stopped : s.portsRun = false) : execPacketFrame ⟨b, x⟩ s = .next s :=
  if_pos (by simp [stopped])

/-! ### At a worker -/

section
variable (ports : s.portsRun = true) (worker : s.isWorker = true)
include ports worker

/-- A reply or an event goes on upstream, harmed or not. -/
theorem execPacketFrame_of_up (up : frameGoesUp b = true) :
    let f := carriedOn x (.packet b)
    execPacketFrame ⟨b, x⟩ s =
      .next (if s.sys.held then s else if x = .none then s.relayBulk f else (s.badFrame x).relayBulk f) := by
  intro f
  refine (if_neg (by simp [ports])).trans ((if_pos worker).trans ((if_pos up).trans (congrArg _ ?_)))
  rw [s.chainActs_of_portsRun ports, State.hearFrame_eq, apply_ite (State.relayBulk · f), ← ite_not]
  exact ite_congr (by simp) (fun _ => rfl) fun _ => rfl

variable (down : frameGoesUp b = false)
include down

/-- A packet for another address is repeated downstream, harmed or not. -/
theorem execPacketFrame_of_other (other : s.slolos.address = 0 ∨ byteAt b 0 ≠ s.slolos.address) :
    let f := carriedOn x (.packet b)
    execPacketFrame ⟨b, x⟩ s =
      .next (if s.sys.held = true ∨ x = .none then s.repeatDown f else (s.repeatDown f).badFrame x) := by
  intro f
  refine (if_neg (by simp [ports])).trans ((if_pos worker).trans ((if_neg (by simp [down])).trans
    ((if_pos (by rwa [Bool.or_eq_true, decide_eq_true_iff, decide_eq_true_iff])).trans (congrArg _ ?_))))
  rw [s.chainActs_of_portsRun ports, hearing_eq, ← ite_not]
  exact ite_congr (by simp [imp_iff_not_or]) (fun _ => rfl) fun _ => rfl

/-- The worker's own is taken where it is whole. -/
theorem execPacketFrame_of_own (address : s.slolos.address ≠ 0) (own : byteAt b 0 = s.slolos.address) :
    execPacketFrame ⟨b, x⟩ s =
      .next (if s.sys.held then s else if x = .none ∧ crc32Good b = true then s.takePacket b else s.badFrame x) := by
  refine (if_neg (by simp [ports])).trans ((if_pos worker).trans ((if_neg (by simp [down])).trans
    ((if_neg (by simp [frameAddress, address, own])).trans ?_)))
  rw [s.chainActs_of_portsRun ports]
  refine ite_eq_next (by simp) (fun _ => rfl) fun _ => ?_
  rw [← ite_not]
  exact next_ite (by simp) ..

end

/-! ### At the manager -/

section
variable (ends : s.isWorker = false)
include ends

theorem execPacketFrame_of_held (held : s.sys.held = true) : execPacketFrame ⟨b, x⟩ s = .next s := by
  cases ports : s.portsRun with
  | false => exact execPacketFrame_of_stopped s ports
  | true =>
    exact (if_neg (by simp [ports])).trans ((if_neg (by simp [ends])).trans (if_pos (by simp [State.chainActs, held])))

variable (ports : s.portsRun = true) (free : s.sys.held = false)
include ports free

theorem execPacketFrame_of_bad (bad : x ≠ .none ∨ crc32Good b = false) : execPacketFrame ⟨b, x⟩ s = .next (s.badFrame x) :=
  (if_neg (by simp [ports])).trans ((if_neg (by simp [ends])).trans
    ((if_neg (by simp [State.chainActs, ports, free])).trans (if_pos (by simpa using bad))))

/-- A whole frame is an event, a reply, or nothing that concerns the manager. -/
theorem execPacketFrame_of_good (good : crc32Good b = true) :
    let k := Packet.ofBytes (framePacket b)
    execPacketFrame ⟨b, .none⟩ s = .next (
      if k.flags.getLsbD 4 then s.deliver (k.opcode == 0x7F11) k
      else if k.flags.getLsbD 7 then s.workerReply (byteAt b 0) (Origin.ofRank (byteAt b 1)) k
      else s) :=
  (if_neg (by simp [ports])).trans ((if_neg (by simp [ends])).trans
    ((if_neg (by simp [State.chainActs, ports, free])).trans (if_neg (by simp [good]))))

end

/-! ### A worker's reply (R127, R328) -/

section
variable {a : Nat} {o : Origin} {k : Packet}

/-- A reply to no command in flight is dropped. -/
theorem State.workerReply_of_none (lost : s.repliedFlight a o k.tag.toNat = none) : s.workerReply a o k = s := by
  simp only [State.workerReply, lost]

variable {g : Flight} (found : s.repliedFlight a o k.tag.toNat = some g)
include found

/-- An answer to a broadcast is one of several. -/
theorem State.workerReply_of_broadcast (all : g.bcast = true) : s.workerReply a o k = s.dieAnswer g.key a k.payload := by
  simp only [State.workerReply, found, all, if_true]

variable (single : g.bcast = false)
include single

/-- The first ACCEPTED of a scheduled command leaves it in flight. -/
theorem State.workerReply_of_accepted (sched : g.sched = true) (first : g.accepted = false) (accepted : getAt k.payload 0 0 = stAccepted) :
    s.workerReply a o k =
      ((s.planAnswered g stAccepted).sendBack g k none).modFlight g.key fun y => { y with accepted := true } := by
  simp only [State.workerReply, found, single, sched, first, accepted, Bool.false_eq_true, if_false, Bool.not_false, beq_self_eq_true,
    Bool.and_self, if_true]

/-- Any other answer ends it. -/
theorem State.workerReply_of_final (final : ¬(g.sched = true ∧ g.accepted = false ∧ getAt k.payload 0 0 = stAccepted)) :
    let t := (s.planAnswered g (getAt k.payload 0 0)).sendBack g k (some g.key)
    s.workerReply a o k =
      if g.key.origin = .internal then t.dropFlight g.key else t.modFlight g.key fun y => { y with phase := .replied } := by
  have ends : ¬(g.sched && !g.accepted && getAt k.payload 0 0 == stAccepted) = true := by
    simpa only [Bool.and_eq_true, Bool.not_eq_true', beq_iff_eq, and_assoc] using final
  simp only [State.workerReply, found, single, Bool.false_eq_true, if_false, if_neg ends, beq_iff_eq]

end

/-- A frame that fails is counted once, with the violations that it met. -/
theorem State.badFrame_counts (x : Harm) : ∃ n, (s.badFrame x).slolos =
    { s.slolos with errCrc := satAdd 255 s.slolos.errCrc 1, errCode := satAdd 255 s.slolos.errCode n } ∧
      (∀ k, x = .code k → n = k) ∧ ((∀ k, x ≠ .code k) → n = 0) := by
  refine ⟨violationsOf x, rfl, fun k code => by rw [code]; rfl, fun other => ?_⟩
  cases x with
  | code k => exact absurd rfl (other k)
  | none | bits | cut => rfl

/-! ### The statement -/

/-- Settles O40: at a worker by where the frame goes, at the manager by what it carries. -/
theorem packetFrames : Obligations.PacketFrames := by
  unfold Obligations.PacketFrames
  refine ⟨fun s b x stopped => execPacketFrame_of_stopped s stopped, fun s b x ports worker => ⟨?up, ?other, ?own⟩,
    fun s b x ends held => execPacketFrame_of_held s ends held,
    fun s b x ports ends free bad => execPacketFrame_of_bad s ends ports free bad, fun s x => s.badFrame_counts x,
    fun s b ports ends free good => ?manager⟩
  case up => exact execPacketFrame_of_up s ports worker
  case other => exact execPacketFrame_of_other s ports worker
  case own => exact execPacketFrame_of_own s ports worker
  case manager =>
    intro k
    have does := execPacketFrame_of_good s ends ports free good
    refine ⟨fun event => does.trans (congrArg _ (if_pos event)), fun noEvent noReply => ?neither, fun noEvent reply => ?reply⟩
    case neither => exact does.trans (congrArg _ ((if_neg (Bool.eq_false_iff.mp noEvent)).trans (if_neg (Bool.eq_false_iff.mp noReply))))
    case reply =>
      have replies := does.trans (congrArg _ ((if_neg (Bool.eq_false_iff.mp noEvent)).trans (if_pos reply)))
      exact ⟨fun lost => replies.trans (congrArg _ (s.workerReply_of_none lost)),
        fun g found all => replies.trans (congrArg _ (s.workerReply_of_broadcast found all)),
        fun g found single sched first accepted =>
          replies.trans (congrArg _ (s.workerReply_of_accepted found single sched first accepted)),
        fun g found single final => replies.trans (congrArg _ (s.workerReply_of_final found single final))⟩

end Sys2Proof.Machine
end

section
/-!
PROOF. O53: enumeration and membership of the chain (R318 to R321, R331, R337).
-/
namespace Sys2Proof.Machine

variable (s : State)

/-! ### ENUM at a worker (R318, R319) -/

/-- A worker that takes an address, or takes its own again after a cut-off, says so in its promise word. -/
def State.joinAs (k : Nat) : State :=
  (s.modSlolos fun y => y.join k).modTime fun t => { t with wordNow := t.wordNow ||| 0x40 }

/-- A worker's answer to ENUM. -/
def State.enumReply (k a : Nat) : ChainFrame := .control (.enumAnswer s.otp.dieId (bit s.otp.partWq + 2) k a)

section
variable {next prev mode : Nat}

/-- Behind the last address, and in a verify or reverse pass, a worker takes none. -/
theorem State.takeAddress_of_none (none : 63 ≤ prev ∨ 2 ≤ mode) : s.takeAddress next prev mode = (0, s) :=
  if_pos (by simpa [Nat.lt_succ_iff] using none)

variable (free : ¬(63 ≤ prev ∨ 2 ≤ mode))
include free

theorem State.takeAddress_of_full (full : mode = 1) : s.takeAddress next prev mode = (prev + 1, s) :=
  (if_neg (by simpa [Nat.lt_succ_iff] using free)).trans (if_pos full)

/-- Behind the highest address the cap decides. -/
theorem State.takeAddress_of_next (append : ¬mode = 1) (last : prev + 1 = next) :
    s.takeAddress next prev mode = (if next ≤ Nat.min 63 (s.time.length / 14) then next else 0, s) := by
  subst last
  exact (if_neg (by simpa [Nat.lt_succ_iff] using free)).trans ((if_neg append).trans (if_pos rfl))

/-- Between the addresses the manager's contexts decide, which ENUM does not carry (log 43). -/
theorem State.takeAddress_of_between (append : ¬mode = 1) (between : ¬prev + 1 = next) :
    s.takeAddress next prev mode = (if Config.freeBit s.freeCtr then prev + 1 else 0, { s with freeCtr := s.freeCtr + 1 }) :=
  (if_neg (by simpa [Nat.lt_succ_iff] using free)).trans ((if_neg append).trans (if_neg between))

end

/-- The address that a worker without one takes: none or the next, by the rules of R319. -/
theorem State.takeAddress_rules (next prev mode : Nat) :
    ∃ k n, s.takeAddress next prev mode = (k, { s with freeCtr := n }) ∧
      (k = 0 ∨ k = prev + 1) ∧ (63 ≤ prev ∨ 2 ≤ mode → k = 0) ∧ (prev < 63 → mode = 1 → k = prev + 1) ∧
      (prev < 63 → mode = 0 → prev + 1 = next → k = if next ≤ Nat.min 63 (s.time.length / 14) then next else 0) := by
  by_cases none : 63 ≤ prev ∨ 2 ≤ mode
  · exact ⟨0, s.freeCtr, s.takeAddress_of_none none, .inl rfl, fun _ => rfl, by omega, by omega⟩
  by_cases full : mode = 1
  · exact ⟨prev + 1, s.freeCtr, s.takeAddress_of_full none full, .inr rfl, fun h => absurd h none, fun _ _ => rfl, by omega⟩
  by_cases last : prev + 1 = next
  · refine ⟨_, s.freeCtr, s.takeAddress_of_next none full last, ?_, fun h => absurd h none, fun _ h => absurd h full, fun _ _ _ => rfl⟩
    rw [last]
    exact (ite_eq_or_eq ..).symm
  · exact ⟨_, s.freeCtr + 1, s.takeAddress_of_between none full last, (ite_eq_or_eq ..).symm, fun h => absurd h none,
      fun _ h => absurd h full, fun _ _ h => absurd h last⟩

section
variable {next prev delay mode : Nat}

/-- ENUM in the reverse pass. -/
theorem State.workerEnum_of_reverse :
    let a := delay + s.slolos.cB
    s.workerEnum true next prev delay mode =
      ((s.modSlolos fun y => { y with dRev := heldDelay a }).sendUp (s.enumReply s.slolos.address a)).sendA
        (.control (.enum next s.slolos.address (a + s.slolos.rRev) mode)) :=
  rfl

/-- ENUM on its way out at a worker that has its address: it answers where it was cut off. -/
theorem State.workerEnum_of_address (has : s.slolos.address ≠ 0) :
    let a := delay + s.slolos.cA
    let k := s.slolos.address
    let t := s.modSlolos fun y => { y with d := heldDelay a }
    let u := if s.slolos.cutOff then (t.joinAs k).sendUp (s.enumReply k a) else t
    s.workerEnum false next prev delay mode =
      if s.slolos.portB ≠ .up then u.sendUp (.control (.enumEnd k false))
      else u.sendB (.control (.enum (if k = next then next + 1 else next) k (a + s.slolos.r) mode)) := by
  cases cut : s.slolos.cutOff <;> simp [State.workerEnum, has, cut, State.joinAs, State.enumReply]

/-- ENUM on its way out at a worker without an address: it answers with the one that it takes, or with 0. -/
theorem State.workerEnum_of_new {k n : Nat} (new : s.slolos.address = 0)
    (takes : s.takeAddress next prev mode = (k, { s with freeCtr := n })) :
    let a := delay + s.slolos.cA
    let t : State := { s with freeCtr := n, slolos := { s.slolos with d := heldDelay a } }
    let u := (if k = 0 then t else t.joinAs k).sendUp (s.enumReply k a)
    s.workerEnum false next prev delay mode =
      if s.slolos.portB ≠ .up then u.sendUp (.control (.enumEnd k false))
      else u.sendB (.control (.enum (if k = next then next + 1 else next) (if k = 0 then prev else k) (a + s.slolos.r) mode)) := by
  by_cases none : k = 0 <;> simp [State.workerEnum, new, takes, none, State.joinAs, State.enumReply, State.modSlolos]

end

/-! ### ENUM (R318, R319, R321) -/

section
variable {b : Bool} {h : Harm} {next prev delay mode : Nat}

theorem execEnum_of_rests (rests : s.sys.clk ≠ .running ∨ s.sys.held = true) : execEnum b h next prev delay mode s = .next s :=
  if_pos (by simpa using rests)

variable (clock : s.sys.clk = .running) (free : s.sys.held = false)
include clock free

theorem execEnum_of_harmed (harmed : h ≠ .none) :
    execEnum b h next prev delay mode s = .next (if s.isStandalone then s else s.badFrame h) :=
  (if_neg (by simp [clock, free])).trans (if_pos (by simpa using harmed))

theorem execEnum_of_worker (worker : s.isWorker = true) :
    execEnum b .none next prev delay mode s = .next (s.workerEnum b next prev delay mode) :=
  (if_neg (by simp [clock, free])).trans ((if_neg (by simp)).trans (if_pos worker))

/-- The manager of a pass sends the reverse pass back from a ring, and ends it there; another die answers with a conflict (log 78). -/
theorem execEnum_of_manager (ends : s.isWorker = false) :
    execEnum b .none next prev delay mode s = .next (
      if s.isManager = true ∧ s.slolos.enumActive = true ∧ b = false ∧ s.slolos.enumMode ≠ 3 then
        (s.modSlolos fun y => { y with enumMode := 3 }).sendA (.control (.enum next 0 0 3))
      else if s.isManager = true ∧ s.slolos.enumActive = true ∧ b = true ∧ s.slolos.enumMode = 3 then s.finishPass true prev
      else if b then s.sendB (.control (.enumEnd 0 true)) else s.sendA (.control (.enumEnd 0 true))) :=
  (if_neg (by simp [clock, free])).trans ((if_neg (by simp)).trans ((if_neg (by simp [ends])).trans
    (ite_eq_next (by simp [and_assoc]) (fun _ => rfl) fun _ =>
      ite_eq_next (by simp [and_assoc]) (fun _ => rfl) fun _ => rfl)))

end

/-! ### The end of a pass (R321, R336) -/

/-- An event that is queued changes the command engine alone. -/
theorem State.chainEvent_leaves {α : Type} (x : State → α) (cmd : ∀ (t : State) (f : Cmd → Cmd), x (t.modCmd f) = x t)
    (cause address port count : Nat) (die : List Byte) : x (s.chainEvent cause address port count die) = x s := by
  rw [State.chainEvent, State.dueFirst, apply_ite x, State.dueEvent, cmd, ite_self]

/-- What the end of a pass writes, before its events. -/
def State.passDone (ring : Bool) (last : Nat) : State :=
  ((if ring then s.ringRestored else s).modSlolos fun y =>
    { y with
      enumActive := false
      enumMode := 0
      verifyDue := false
      ctxs := y.ctxs.map fun c => { c with joining := false }
      breaks := if ring then [] else y.breaks.filter fun b => last ≤ b
      topology := if ring then 2 else if y.workers = 0 then 0
        else if y.topology.toNat ≥ 2 && y.breaks ≠ [] then 3 else 1 }).setReady .slolos true

/-- Everything but the command engine stands as the end of the pass writes it. -/
theorem State.finishPass_leaves {α : Type} (x : State → α) (cmd : ∀ (t : State) (f : Cmd → Cmd), x (t.modCmd f) = x t)
    (ring : Bool) (last : Nat) : x (s.finishPass ring last) = x (s.passDone ring last) := by
  have event := fun (t : State) => t.chainEvent_leaves x cmd
  simp only [State.finishPass, apply_ite x, event, ite_self]
  rfl

/-- A ring that is closed again changes the chain and the events alone. -/
theorem State.ringRestored_leaves {α : Type} (x : State → α) (cmd : ∀ (t : State) (f : Cmd → Cmd), x (t.modCmd f) = x t)
    (slolos : ∀ (t : State) (f : Slolos → Slolos), x (t.modSlolos f) = x t) : x s.ringRestored = x s := by
  rw [State.ringRestored, apply_ite x, State.chainEvent_leaves _ x cmd, slolos, ite_self]

/-- The end of a pass leaves what is neither of the chain, nor of the readiness, nor of the command engine. -/
theorem State.finishPass_keeps {α : Type} (x : State → α) (cmd : ∀ (t : State) (f : Cmd → Cmd), x (t.modCmd f) = x t)
    (slolos : ∀ (t : State) (f : Slolos → Slolos), x (t.modSlolos f) = x t) (sys : ∀ (t : State) (f : Sys → Sys), x (t.modSys f) = x t)
    (ring : Bool) (last : Nat) : x (s.finishPass ring last) = x s := by
  rw [s.finishPass_leaves x cmd, State.passDone, State.setReady, sys, slolos, apply_ite x, s.ringRestored_leaves x cmd slolos, ite_self]

theorem State.ringRestored_slolos :
    s.ringRestored.slolos =
      if s.slolos.topology = 3 ∧ s.slolos.restoring = none then
        { s.slolos with
          topology := 2, breaks := [], restoring := some 2
          ctxs := s.slolos.ctxs.map fun c => { c with viaA := false } }
      else s.slolos := by
  rw [State.ringRestored, apply_ite State.slolos, State.chainEvent_leaves _ State.slolos fun _ _ => rfl]
  exact ite_congr (by simp) (fun _ => rfl) fun _ => rfl

theorem State.finishPass_slolos (ring : Bool) (last : Nat) :
    (s.finishPass ring last).slolos = { s.slolos with
      enumActive := false
      enumMode := 0
      verifyDue := false
      restoring := if ring = true ∧ s.slolos.topology = 3 ∧ s.slolos.restoring = none then some 2 else s.slolos.restoring
      ctxs := s.slolos.ctxs.map fun c => { c with
        joining := false
        viaA := c.viaA && !(ring && decide (s.slolos.topology = 3) && s.slolos.restoring.isNone) }
      breaks := if ring then [] else s.slolos.breaks.filter fun b => last ≤ b
      topology := if ring then 2 else if s.slolos.workers = 0 then 0
        else if 2 ≤ s.slolos.topology.toNat ∧ s.slolos.breaks ≠ [] then 3 else 1 } := by
  rw [s.finishPass_leaves State.slolos fun _ _ => rfl, State.passDone, State.setReady_slolos, State.modSlolos_slolos]
  cases ring with
  | false => simp
  | true =>
    rw [if_pos rfl, State.ringRestored_slolos]
    by_cases closed : s.slolos.topology = 3 ∧ s.slolos.restoring = none
    · simp [closed]
    · have stays : (true && decide (s.slolos.topology = 3) && s.slolos.restoring.isNone) = false := by
        simpa [Option.isSome_iff_ne_none] using closed
      rw [if_neg closed, if_neg (mt (And.right (a := true = true)) closed), stays]
      simp

theorem State.finishPass_sys (ring : Bool) (last : Nat) :
    (s.finishPass ring last).sys = { s.sys with ready := s.sys.ready.putBit Block.slolos.index true } := by
  have same : (if ring then s.ringRestored else s).sys = s.sys := by
    rw [apply_ite State.sys, s.ringRestored_leaves State.sys (fun _ _ => rfl) fun _ _ => rfl, ite_self]
  rw [s.finishPass_leaves State.sys fun _ _ => rfl, ← same]
  rfl

/-! ### The answers and the end of the chain (R318, R319, R330) -/

/-- A worker relays a control frame upstream, harmed or not, and counts a harmed one. -/
def State.relayHeard (h : Harm) (c : Ctrl) : State := (s.hearFrame h).relayBulk (carriedOn h (.control c))

theorem State.relayHeard_eq (h : Harm) (c : Ctrl) :
    let f : ChainFrame := if h = .cut then .abort else .control c
    let u := if h = .none then s else s.badFrame h
    s.relayHeard h c =
      if 2048 < u.slolos.bulkWaiting + f.chars then
        (u.sendUp .abort).modSlolos fun y => { y with errDropped := satAdd 255 y.errDropped 1 }
      else u.modSlolos fun y =>
        if y.facing = 2 then { y with txB := relayInto y.txB y.spentB f } else { y with txA := relayInto y.txA y.spentA f } := by
  rw [← carriedOn_eq, ← State.hearFrame_eq]
  exact State.relayBulk_eq ..

theorem State.enumAnswer_eq (die : List Byte) (pr a delay : Nat) :
    s.enumAnswer die pr a delay =
      if s.slolos.enumMode = 3 then s.modSlolos fun y => y.modCtx a fun c => { c with dRev := heldDelay delay }
      else if a = 0 then
        let t := s.chainEvent 7 0 0 0 die
        if 63 ≤ s.slolos.workers then t.chainEvent 9 0 0 0 die
        else if s.enumCap ≤ s.slolos.workers then t.cappedAt (s.slolos.workers + 1) else t
      else if 64 ≤ a then s
      else if s.enumCap < a then
        (s.modSlolos fun y => y.modCtx a fun c => { c with state := .refused, dieId := die }).cappedAt a
      else if (s.slolos.ctx a).assigned = true ∧ (s.slolos.ctx a).dieId ≠ die then s.chainEvent 7 0 0 0 die
      else
        let t := s.modSlolos fun y =>
          let z := y.modCtx a fun c => { Ctx.absent with
            state := .enumerated, joining := true, wq := pr % 2 = 1, dieId := die, d := heldDelay delay, dRev := c.dRev }
          { z with workers := z.highest }
        if (s.slolos.ctx a).assigned then t.chainEvent 4 a 0 0 die else t := by
  simp only [State.enumAnswer, Bool.and_eq_true, bne_iff_ne, ge_iff_le]

/-- A frame of the chain that the manager alone takes: a worker relays it, and what fails is counted (R312). -/
theorem relayed_eq (h : Harm) (c : Ctrl) {x : Host.Outcome State Fault Refusal} {t : State} (takes : x = .next t) :
    (if !s.portsRun then .next s
      else if s.isWorker then .next (if s.chainActs then (s.hearFrame h).relayBulk (carriedOn h (.control c)) else s)
      else if !s.chainActs then .next s
      else if h != .none then .next (s.badFrame h)
      else x) =
    .next (
      if s.isWorker then (if s.chainActs then s.relayHeard h c else s)
      else if s.chainActs = false then s
      else if h ≠ .none then s.badFrame h
      else t) := by
  cases ports : s.portsRun with
  | false => simp [State.chainActs, ports]
  | true =>
    exact (if_neg (by simp)).trans (ite_eq_next Iff.rfl (fun _ => rfl) fun _ =>
      ite_eq_next (by simp) (fun _ => rfl) fun _ => ite_eq_next (by simp) (fun _ => rfl) fun _ => takes)

theorem execEnumAnswer_eq (h : Harm) (die : List Byte) (pr a delay : Nat) :
    execEnumAnswer h die pr a delay s = .next (
      if s.isWorker then (if s.chainActs then s.relayHeard h (.enumAnswer die pr a delay) else s)
      else if s.chainActs = false then s
      else if h ≠ .none then s.badFrame h
      else if s.slolos.enumActive = false then s
      else s.enumAnswer die pr a delay) :=
  relayed_eq s h _ (congrArg _ (by simp only [← Bool.not_eq_true, ite_not]))

theorem execEnumEnd_eq (h : Harm) (a : Nat) (conflict : Bool) :
    execEnumEnd h a conflict s = .next (
      if s.isWorker then (if s.chainActs then s.relayHeard h (.enumEnd a conflict) else s)
      else if s.chainActs = false then s
      else if h ≠ .none then s.badFrame h
      else if s.slolos.enumActive = false then s
      else (if conflict then s.chainEvent 8 a 0 0 [] else s).finishPass false a) := by
  refine relayed_eq s h _ ?_
  simp only [← Bool.not_eq_true, ite_not]
  exact next_ite Iff.rfl ..

/-! ### The manager alone (R320, R321, R335) -/

/-- A manager whose SLB does not come up runs as a domain of one, or wakes the workers that it kept (log 117). -/
theorem execEnumNoWorkerTimeout_eq :
    let t := s.setReady .slolos true
    execEnumNoWorkerTimeout s = .next (
      if s.chainActs = true ∧ s.isManager = true ∧ s.isReady .slolos = false ∧ s.slolos.portB ≠ .up then
        if s.slolos.verifyDue then (if 2 ≤ s.slolos.topology.toNat then (t.sendB .wakeBurst).sendA .wakeBurst else t.sendB .wakeBurst)
        else t.chainEvent 1 0 0 0 []
      else s) :=
  next_ite (by simp [and_assoc]) ..

theorem execAppendRetry_eq :
    execAppendRetry s = .next (
      if s.chainActs = true ∧ s.isManager = true ∧ s.isReady .slolos = true ∧ s.slolos.workers = 0 ∧ s.slolos.portB = .up ∧
        s.slolos.enumActive = false then s.startPass 0 else s) :=
  next_ite (by simp [and_assoc]) ..

/-! ### JOIN (R320) -/

theorem execJoin_eq (h : Harm) :
    execJoin h s = .next (
      if s.chainActs = false then s
      else if s.isWorker then s.relayHeard h .join
      else if h ≠ .none then s.badFrame h
      else if s.slolos.autoAppend then s.modSlolos fun y => { y with joinSeen := true } else s) :=
  ite_eq_next (by simp) (fun _ => rfl) fun _ => ite_eq_next Iff.rfl (fun _ => rfl) fun _ =>
    ite_eq_next (by simp) (fun _ => rfl) fun _ => rfl

theorem execJoinTimer_eq :
    execJoinTimer s = .next (
      if s.chainActs = true ∧ s.isWorker = true ∧ (s.slolos.address = 0 ∨ s.slolos.cutOff = true) ∧ s.slolos.facing ≠ 0 ∧
        (s.slolos.marker.isSome = true ∨ s.slolos.skipped = 0) then s.sendUp (.control .join) else s) :=
  next_ite (by simp [and_assoc]) ..

/-! ### UNASSIGN and RESET (R320, R337) -/

/-- A frame of the manager at a die that is no worker, or whose ports do not run. -/
theorem State.not_worker_iff : (!s.portsRun || !s.isWorker) = true ↔ s.isWorker = false ∨ s.sys.clk ≠ .running := by
  rw [Bool.or_eq_true, s.not_portsRun_iff, Bool.not_eq_true', or_comm (b := s.isWorker = false), ← or_assoc]
  refine or_congr_left (or_iff_left_of_imp fun alone => ?_)
  have role : s.sys.role = .standalone := by simpa [State.isStandalone] using alone
  simp [State.isWorker, role]

/-- The ports of a worker run with its clocks. -/
theorem State.portsRun_of_worker (worker : ¬(s.isWorker = false ∨ s.sys.clk ≠ .running)) : s.portsRun = true := by
  have both := mt s.not_worker_iff.mp worker
  simp only [Bool.or_eq_true, Bool.not_eq_true', not_or, Bool.not_eq_false] at both
  exact both.1

theorem execUnassign_eq (h : Harm) :
    execUnassign h s = .next (
      if s.isWorker = false ∨ s.sys.clk ≠ .running then s
      else
        let t := s.repeatDown (if h = .cut then .abort else .control .unassign)
        if s.sys.held then t
        else if h ≠ .none then t.badFrame h
        else t.cutOffNow.modSlolos fun y => { y with address := 0, firstAllot := false, age := 0 }) := by
  rw [← carriedOn_eq]
  refine ite_eq_next s.not_worker_iff (fun _ => rfl) fun worker => ?_
  rw [s.chainActs_of_portsRun (s.portsRun_of_worker worker)]
  exact ite_eq_next (by simp) (fun _ => rfl) fun _ => ite_eq_next (by simp) (fun _ => rfl) fun _ => rfl

theorem execResetFrame_eq (h : Harm) (mask : Nat) :
    execResetFrame h mask s = .next (
      if s.isWorker = false ∨ s.sys.clk ≠ .running then s
      else
        let t := s.repeatDown (if h = .cut then .abort else .control (.reset (BitVec.ofNat 64 mask)))
        if h ≠ .none then (if s.sys.held then t else t.badFrame h)
        else if s.slolos.address ≠ 0 ∧ mask.testBit s.slolos.address = true then t.trigger causeChain else t) := by
  rw [← carriedOn_eq]
  refine ite_eq_next s.not_worker_iff (fun _ => rfl) fun worker => ?_
  rw [s.chainActs_of_portsRun (s.portsRun_of_worker worker)]
  refine ite_eq_next (by simp) (fun _ => congrArg _ ?_) fun _ => next_ite (by simp) ..
  cases s.sys.held <;> rfl

/-! ### The statement -/

/-- Settles O53: ENUM by the role of the die and by what a worker has, and the other frames and times by their equations. -/
theorem chainMembers : Obligations.ChainMembers := by
  unfold Obligations.ChainMembers
  intro acts bad pass relay joined
  have relays (h : Harm) (c : Ctrl) (t : State) : relay h c t = t.relayHeard h c := (t.relayHeard_eq h c).symm
  refine ⟨fun b h next prev delay mode s => ⟨fun rests => execEnum_of_rests s rests,
      fun clock free harmed => execEnum_of_harmed s clock free harmed, ?reverse, ?address, ?new, ?manager⟩,
    fun s ring last => ⟨_, rfl, s.finishPass_slolos ring last, s.finishPass_sys ring last, ?_, ?_, ?_, ?_, ?_⟩,
    fun h die pr a delay s => ?answer, fun h a conflict s => ?finish, execEnumNoWorkerTimeout_eq, execAppendRetry_eq,
    fun h s => ?join, execJoinTimer_eq, fun h s => execUnassign_eq s h, fun h mask s => execResetFrame_eq s h mask⟩
  case reverse =>
    rintro clock free rfl worker rfl
    exact execEnum_of_worker s clock free worker
  case address =>
    rintro clock free rfl worker rfl has
    exact (execEnum_of_worker s clock free worker).trans (congrArg _ (s.workerEnum_of_address has))
  case new =>
    rintro clock free rfl worker rfl none
    obtain ⟨k, n, takes, rules⟩ := s.takeAddress_rules next prev mode
    obtain ⟨some, last, full, append⟩ := rules
    exact ⟨k, n, some, last, full, append,
      (execEnum_of_worker s clock free worker).trans (congrArg _ (s.workerEnum_of_new none takes))⟩
  case manager =>
    rintro clock free rfl ends
    exact execEnum_of_manager s clock free ends
  case answer =>
    rw [relays]
    refine (execEnumAnswer_eq s h die pr a delay).trans ?_
    rw [s.enumAnswer_eq]
    rfl
  case finish =>
    rw [relays]
    exact execEnumEnd_eq s h a conflict
  case join =>
    rw [relays]
    exact execJoin_eq s h
  all_goals exact s.finishPass_keeps _ (fun _ _ => rfl) (fun _ _ => rfl) (fun _ _ => rfl) ring last

end Sys2Proof.Machine
end

section
/-!
PROOF. O54: markers, telemetry, the sum and the allotment (R153, R156, R322 to R325, R331, R332, R334).
-/
namespace Sys2Proof.Machine

variable (s : State)

/-! ### Markers (R153, R156, R322, R334) -/

/-- Whether the next marker leaves on both ports: while a break is bridged, up to the last before the ring is whole again. -/
def State.bridges : Bool := (s.slolos.bothPorts || s.slolos.bridging) && decide (s.slolos.restoring ≠ some 1)

theorem execMarkerSend_eq :
    execMarkerSend s = .next (
      if s.chainActs = true ∧ s.isManager = true ∧ s.isReady .slolos = true ∧ s.slolos.verifyDue = false then
        let t := (s.modSlolos fun y => { y with
          restoring := if y.restoring = some 1 then none else y.restoring.map (· - 1)
          bothPorts := s.bridges
          bridging := false }).sendB (s.markerFrame false)
        if s.bridges then t.sendA (s.markerFrame true) else t
      else s) := by
  refine ite_eq_next (by simp [and_assoc]) (fun _ => ?_) fun _ => rfl
  have last : (!s.slolos.restoring == some 1) = decide (s.slolos.restoring ≠ some 1) :=
    Bool.eq_iff_iff.mpr (by simp)
  simp only [last, beq_iff_eq]
  rfl

/-- A whole marker at a worker: one of a boundary already missed is discarded, and that of the ring's other side adds nothing. -/
theorem State.takeMarker_eq (b : Bool) (m : List Byte) :
    s.takeMarker b m =
      if (fieldAt m 0 4 + 2 ^ 33 - s.time.epoch - 1) % 2 ^ 32 < s.slolos.skipped then s.badFrame .none
      else if (s.slolos.marker.map (·.1)) = some (fieldAt m 0 4) ∧ b = true then s
      else s.modSlolos fun y => { y with
        marker := some (fieldAt m 0 4, fieldAt m 4 2)
        workers := byteAt m 6 % 64
        topology := if bitAt m 7 0 then (if bitAt m 7 1 then 3 else 2) else 1
        facing := if b then 2 else 1 } := by
  refine ite_congr rfl (fun _ => rfl) fun _ => ite_congr ?_ (fun _ => rfl) fun _ => rfl
  cases s.slolos.marker with
  | none => simp
  | some held => simp

/-- A marker without harm, of its length and with its CRC. -/
def markerGood (x : Received) : Bool := crc16Good x.bytes && x.bytes.length == 10 && x.harm == .none

section
variable (b : Bool) (x : Received)

theorem execMarker_of_stopped (stopped : ¬s.portsRun = true) : execMarker b x s = .next s :=
  if_pos (by simpa using stopped)

variable (runs : s.portsRun = true)
include runs

/-- A worker passes a marker on at its other port before it takes it. -/
theorem execMarker_of_worker (worker : s.isWorker = true) :
    let t := s.sendAcross b (if x.harm = .cut then .abort else .marker x.bytes)
    execMarker b x s = .next (
      if s.sys.held then t else if markerGood x = false then t.badFrame x.harm else t.takeMarker b x.bytes) := by
  rw [← carriedOn_eq]
  refine (if_neg (by simp [runs])).trans ((if_pos worker).trans ?_)
  rw [s.chainActs_of_portsRun runs]
  refine ite_eq_next (by simp) (fun _ => rfl) fun _ => congrArg _ ?_
  simp only [← Bool.not_eq_true, ite_not]
  rfl

/-- The manager knows a broken ring closed again by its own marker (R334). -/
theorem execMarker_of_manager (ends : ¬s.isWorker = true) :
    execMarker b x s = .next (
      if s.sys.held then s
      else if markerGood x = false then s.badFrame x.harm
      else if b = false ∧ bitAt x.bytes 7 1 = false ∧ s.slolos.topology = 3 ∧ s.slolos.restoring = none then
        (s.modSlolos fun y => { y with
          topology := 2, breaks := [], restoring := some 2
          ctxs := y.ctxs.map fun c => { c with viaA := false } }).chainEvent 6 0 0 0 []
      else s) := by
  refine (if_neg (by simp [runs])).trans ((if_neg ends).trans ?_)
  rw [s.chainActs_of_portsRun runs]
  refine ite_eq_next (by simp) (fun _ => rfl) fun _ =>
    ite_eq_next (Bool.not_eq_true' _).to_iff (fun _ => rfl) fun _ => congrArg _ (Eq.trans ?_ (if_congr and_assoc rfl rfl))
  rw [ite_and]
  exact ite_congr (by simp) (fun _ => ite_congr (by simp) (fun _ => rfl) fun _ => rfl) fun _ => rfl

end

/-- A skipped boundary at a worker, which is cut off at the second in a row (R130, R331). -/
theorem execMarkerMissed_eq :
    let n := s.slolos.skipped + 1
    let e := (s.time.epoch + n) % 2 ^ 32
    let t := ((s.endWaiting (fun f => f.epoch == e) stTargetTimeout).chainBit.modSlolos fun y =>
      { y with skipped := n, heldEntry := none, allotReady := false }).modMeas fun m => m.startTables e s.time.length 0
    execMarkerMissed s = .next (
      if s.chainActs = true ∧ s.isWorker = true ∧ s.slolos.facing ≠ 0 ∧ s.slolos.marker = none then
        if n = 2 then t.cutOffNow else t.cutOffBz4
      else s) :=
  next_ite (by simp [and_assoc]) ..

/-! ### Telemetry and its sum (R323, R324, R332) -/

theorem execTelemetrySlot_eq :
    execTelemetrySlot s = .next (
      if s.chainActs = true ∧ s.isWorker = true ∧ s.slolos.address ≠ 0 ∧ 2 ≤ s.slolos.age ∧ s.slolos.skipped = 0 then
        (s.sendUp (.telemetry s.telemetry)).modSlolos fun y => { y with missedFlag := false } else s) :=
  next_ite (by simp [and_assoc]) ..

section
variable (a : Nat) (x : Received)

theorem execTelemetryFrame_of_stopped (stopped : ¬s.portsRun = true) : execTelemetryFrame a x s = .next s :=
  if_pos (by simpa using stopped)

variable (runs : s.portsRun = true)
include runs

theorem execTelemetryFrame_of_worker (worker : s.isWorker = true) :
    let t := s.sendUp (if x.harm = .cut then .abort else .telemetry x.bytes)
    execTelemetryFrame a x s = .next (if s.sys.held = false ∧ x.harm ≠ .none then t.badFrame x.harm else t) := by
  rw [← carriedOn_eq]
  refine (if_neg (by simp [runs])).trans ((if_pos worker).trans (congrArg _ ?_))
  rw [s.chainActs_of_portsRun runs]
  exact hearing_eq ..

/-- The manager keeps the frames of the active workers until the sum begins, which it does with the last of them. -/
theorem execTelemetryFrame_of_manager (ends : ¬s.isWorker = true) :
    let t := s.modSlolos fun y => y.modCtx a fun c => { c with arrived := some x.bytes }
    execTelemetryFrame a x s = .next (
      if s.sys.held = true ∨ s.slolos.sumBegun = true then s
      else if x.harm ≠ .none ∨ x.bytes.length ≠ 112 ∨
          fieldAt x.bytes 110 2 ≠ telCrc a ((s.time.epoch + 2 ^ 32 - 1) % 2 ^ 32) (x.bytes.take 110) then s.badFrame x.harm
      else if (s.slolos.ctx a).state ≠ .active then s
      else if ∀ k ∈ t.slolos.actives, (t.slolos.ctx k).arrived.isSome = true then t.beginSum else t) := by
  refine (if_neg (by simp [runs])).trans ((if_neg ends).trans ?_)
  rw [s.chainActs_of_portsRun runs]
  exact ite_eq_next (by simp) (fun _ => rfl) fun _ =>
    ite_eq_next (by rw [Bool.or_eq_true, Bool.or_eq_true, bne_iff_ne, decide_eq_true_iff, decide_eq_true_iff, or_assoc]) (fun _ => rfl)
      fun _ => ite_eq_next (by simp) (fun _ => rfl) fun _ => congrArg _ (ite_congr (by simp) (fun _ => rfl) fun _ => rfl)

end

theorem execSumDeadline_eq :
    execSumDeadline s = .next (
      if s.chainActs = true ∧ s.isManager = true ∧ s.slolos.sumBegun = false then s.beginSum else s) :=
  next_ite (by simp [and_assoc]) ..

/-! ### The allotment (R21, R324, R325) -/

/-- The sum and the allotment follow each other once in an epoch. -/
theorem execAllotmentComputed_eq :
    let t := if s.isManager = true ∧ s.slolos.sumBegun = false then s.beginSum else s
    let u := t.sumEcho.computeAllotment.modSlolos fun y => { y with allotReady := true }
    execAllotmentComputed s = .next (
      if s.isWorker = false ∧ s.sys.held = false ∧ s.sys.clk = .running ∧ s.eupefen = true ∧ s.geode.stalled = false ∧
          s.slolos.allotReady = false then
        if s.isManager = true ∧ s.isReady .slolos = true then u.allotmentFrame else u
      else s) := by
  intro t u
  rw [← ite_not]
  refine ite_eq_next (by simp [imp_iff_not_or, or_assoc]) (fun _ => rfl) fun _ => ?_
  have sum : (if s.isManager && !s.slolos.sumBegun then s.beginSum else s) = t :=
    ite_congr (by simp) (fun _ => rfl) fun _ => rfl
  simp only [sum]
  exact congrArg _ (ite_congr (by simp) (fun _ => rfl) fun _ => rfl)

/-- A worker takes its entry, its BZ4 bit and the link target from the allotment of the next epoch. -/
theorem execAllotmentFrame_eq (m : List Byte) (h : Harm) :
    execAllotmentFrame ⟨m, h⟩ s = .next (
      if s.isWorker = false ∨ s.sys.clk ≠ .running then s
      else
        let t := s.repeatDown (if h = .cut then .abort else .allotment m)
        let k := s.slolos.address
        if s.sys.held then t
        else if h ≠ .none ∨ crc32Good m = false then t.badFrame h
        else if k ≠ 0 ∧ s.slolos.age ≠ 0 ∧ 20 + 8 * k ≤ m.length ∧ fieldAt m 0 4 = (s.time.epoch + 1) % 2 ^ 32 ∧
            s.slolos.allotReady = false then
          t.modSlolos fun y =>
            { y with heldEntry := some (slice m (16 + 8 * (k - 1)) 8, (fieldAt m 4 8).testBit k, fieldAt m 12 4) }
        else t) := by
  rw [← carriedOn_eq]
  refine ite_eq_next s.not_worker_iff (fun _ => rfl) fun worker => ?_
  rw [s.chainActs_of_portsRun (s.portsRun_of_worker worker)]
  refine ite_eq_next (by simp) (fun _ => rfl) fun _ => ite_eq_next (by simp) (fun _ => rfl) fun _ => ?_
  rw [← ite_not]
  exact ite_eq_next (by simp [or_assoc]) (fun _ => rfl) fun _ => rfl

/-- Without an allotment for the next epoch the worker counts and reports the miss. -/
theorem execAllotmentMissed_eq :
    execAllotmentMissed s = .next (
      if s.chainActs = true ∧ s.isWorker = true ∧ s.slolos.address ≠ 0 ∧ s.slolos.age ≠ 0 ∧ s.slolos.heldEntry = none ∧
          s.slolos.allotReady = false then
        (s.modSlolos fun y => { y with allotReady := true, missedFlag := true, misses := y.misses + 1 }).modTime fun t =>
          { t with overruns := t.overruns ++ [{ epoch := (t.epoch + 1) % 2 ^ 32, cause := 1, address := s.slolos.address }] }
      else s) :=
  next_ite (by simp [and_assoc]) ..

/-! ### The statement -/

/-- Settles O54, event by event: a marker and a telemetry frame by the role of the die, and the other events by their equations. -/
theorem chainEpoch : Obligations.ChainEpoch := by
  unfold Obligations.ChainEpoch
  intro ports acts bad frame
  refine ⟨execMarkerSend_eq, fun b m h s => ?marker, execMarkerMissed_eq, execTelemetrySlot_eq, fun a m h s => ?telemetry,
    execSumDeadline_eq, execAllotmentComputed_eq, fun m h s => execAllotmentFrame_eq s m h, execAllotmentMissed_eq⟩
  case marker =>
    by_cases runs : s.portsRun = true
    · refine Eq.trans ?_ (congrArg _ (if_neg (fun stopped => Bool.eq_false_iff.mp stopped runs)).symm)
      by_cases worker : s.isWorker = true
      · refine (execMarker_of_worker s b ⟨m, h⟩ runs worker).trans (congrArg _ (Eq.trans ?_ (if_pos worker).symm))
        rw [State.takeMarker_eq]
        cases b <;> rfl
      · exact (execMarker_of_manager s b ⟨m, h⟩ runs worker).trans (congrArg _ (if_neg worker).symm)
    · exact (execMarker_of_stopped s b ⟨m, h⟩ runs).trans (congrArg _ (if_pos (Bool.eq_false_iff.mpr runs)).symm)
  case telemetry =>
    by_cases runs : s.portsRun = true
    · refine Eq.trans ?_ (congrArg _ (if_neg (fun stopped => Bool.eq_false_iff.mp stopped runs)).symm)
      by_cases worker : s.isWorker = true
      · exact (execTelemetryFrame_of_worker s a ⟨m, h⟩ runs worker).trans (congrArg _ (if_pos worker).symm)
      · exact (execTelemetryFrame_of_manager s a ⟨m, h⟩ runs worker).trans (congrArg _ (if_neg worker).symm)
    · exact (execTelemetryFrame_of_stopped s a ⟨m, h⟩ runs).trans (congrArg _ (if_pos (Bool.eq_false_iff.mpr runs)).symm)

end Sys2Proof.Machine
end

section
/-!
PROOF. O32: the opcodes of the Clasp ports (R360, R361) and of the Pendant link (R305).
-/
namespace Sys2Proof.Machine

variable (s : State)

/-! ### The requests of a port -/

/-- CLASP_SWAP_JS asks for a swap where none is under way (R354). -/
theorem opClaspSwapJs_run_eq (f : Flight) :
    opClaspSwapJs.run s f = match claspSwapCheck s f.payload with
      | some a => (s, some a)
      | none =>
        let i := byteAt f.payload 0
        okay ((s.portSend i msgSwapJs []).modPort i fun p => { p with swap := if p.swap = .none then .asked else p.swap }) := by
  cases refused : claspSwapCheck s f.payload <;> simp only [opClaspSwapJs, refused, beq_iff_eq]

/-- A port leaves for HOLD from an attached state that is not HOLD already (R352). -/
theorem State.sendHold_eq (i reason : Nat) :
    s.sendHold i reason = if (s.port i).mode.attached = true ∧ (s.port i).mode ≠ .hold then
      ((s.portHold i 0).portSend i msgHold (le 1 reason)).modPort i fun p => { p with capsDue := p.exporter } else s :=
  if_congr (by simp) rfl rfl

/-- CLASP_HOLD needs a contract in force, and suspends it by leaving for HOLD. -/
theorem opClaspHold_run_eq (f : Flight) :
    let i := byteAt f.payload 0
    let p := s.port i
    opClaspHold.run s f =
      (if p.grant.isSome = true ∧ p.suspended = false ∧ p.mode.attached = true ∧ p.mode ≠ .hold then
          ((s.portHold i 0).portSend i msgHold (le 1 1)).modPort i fun q => { q with capsDue := q.exporter }
        else s,
        some (if p.grant.isSome && !p.suspended then [stOk] else [0xBA])) := by
  intro i p
  by_cases inForce : p.grant.isSome = true ∧ p.suspended = false
  · obtain ⟨granted, stands⟩ := inForce
    simp [opClaspHold, claspHoldCheck, need, okay, State.sendHold_eq, i, p, granted, stands]
  · have rests : ¬(p.grant.isSome = true ∧ p.suspended = false ∧ p.mode.attached = true ∧ p.mode ≠ .hold) :=
      fun ⟨granted, stands, _⟩ => inForce ⟨granted, stands⟩
    have check : claspHoldCheck s f.payload = some [0xBA] := if_neg (by simpa using inForce)
    have refused : ¬(p.grant.isSome && !p.suspended) = true := by simpa using inForce
    rw [if_neg rests, if_neg refused]
    simp only [opClaspHold, check]

/-- CLASP_DETACH needs an attached port, which recovers with the preference given, or keeps its own. -/
theorem opClaspDetach_run_eq (f : Flight) :
    let i := byteAt f.payload 0
    opClaspDetach.run s f =
      (if (s.port i).mode.attached then
          s.portDetach i 1 0 (some (if byteAt f.payload 4 = 0xFF then (s.port i).pref else byteAt f.payload 4))
        else s,
        some (if (s.port i).mode.attached then [stOk] else [0xB8])) := by
  intro i
  cases attached : (s.port i).mode.attached <;> simp [opClaspDetach, claspDetachCheck, need, okay, i, attached]

/-! ### The record of the Pendant link -/

/-- PENDANT_CONFIG, checked again at its boundary, ends a sequence in progress. -/
theorem opPendantConfig_run_eq (f : Flight) :
    opPendantConfig.run s f =
      (if s.pendantBodyOk (f.payload.drop 4) then
          (s.pendantEnd 3 4).modPendant fun p => { p with body := some (f.payload.drop 4) }
        else s,
        some (if s.pendantBodyOk (f.payload.drop 4) then [stOk] else [stBadParam])) := by
  cases good : s.pendantBodyOk (f.payload.drop 4) <;> simp [opPendantConfig, good, okay, answer]

/-! ### The statement -/

/-- Settles O32, opcode by opcode: three are what their checks let through, CLASP_HOLD goes by the contract, CLASP_DETACH by the port's
state, PENDANT_CONFIG by its record, and the two reads change nothing. -/
theorem couplerOpcodes : Obligations.CouplerOpcodes := by
  unfold Obligations.CouplerOpcodes
  refine ⟨?config, ?status, ?request, ?swap, ?hold, ?detach, ?pendantConfig, ?pendantStatus⟩
  case config => exact Applies.of_check (fun _ _ => rfl) rfl rfl fun _ _ => rfl
  case status => exact Performs.of_run (fun _ _ => rfl) fun _ _ _ => rfl
  case request => exact Applies.of_check (fun _ _ => rfl) rfl rfl fun _ _ => rfl
  case swap => exact Applies.of_check (fun _ _ => rfl) rfl rfl opClaspSwapJs_run_eq
  case hold => exact Applies.of_run (fun _ _ => rfl) rfl rfl opClaspHold_run_eq
  case detach => exact Applies.of_run (fun _ _ => rfl) rfl rfl opClaspDetach_run_eq
  case pendantConfig => exact Applies.of_run (fun _ _ => rfl) rfl rfl opPendantConfig_run_eq
  case pendantStatus => exact Performs.of_run (fun _ _ => rfl) fun _ _ _ => rfl

end Sys2Proof.Machine
end

section
/-!
PROOF. O59: the sense lines of the Clasp ports (R340, R343, R344), their detaching (R356, R357), the line (R348) and the times of their
states (R352 to R354).
-/
namespace Sys2Proof.Machine

variable (s : State)

/-! ### Sense lines and attach (R340, R343, R344) -/

theorem Band.ofCode_eq (n : Nat) : Band.ofCode n = if n = 0 then .low else if n = 1 then .mid else .high := by
  match n with
  | 0 | 1 | _ + 2 => rfl

/-- The line that has changed reads its new band, and the other one stays. -/
def State.sensed (i : Nat) (b : Bool) (n : Nat) : State :=
  s.modPort i fun p => { p with bandA := if b then p.bandA else Band.ofCode n, bandB := if b then Band.ofCode n else p.bandB }

/-- A change of a band ends ATTACH_WAIT where it takes the last MID, and in UNATTACHED it decides on a conflict. -/
theorem execClaspSenseChange_eq (i : Nat) (b : Bool) (n : Nat) :
    let t := s.sensed i b n
    let p := t.port i
    execClaspSenseChange i b n s = .next (
      if s.claspOn i = false then t
      else if p.mode = .unattached then t.modPort i fun p => { p with conflict := p.bandA == .mid && p.bandB == .mid }
      else if p.mode = .attachWait ∧ ((s.port i).bandA = .mid ∨ (s.port i).bandB = .mid) ∧ p.bandA ≠ .mid ∧ p.bandB ≠ .mid then
        t.portRest i 0
      else t) := by
  have line : (s.modPort i fun p =>
      if b then { p with bandB := Band.ofCode n } else { p with bandA := Band.ofCode n }) = s.sensed i b n := by
    cases b <;> rfl
  simp only [execClaspSenseChange, line]
  exact ite_eq_next (by simp) (fun _ => rfl) fun _ => ite_eq_next (by simp) (fun _ => rfl) fun _ =>
    next_ite (by simp [Port.someMid, and_assoc]) ..

theorem Port.oneMid_iff (p : Port) :
    p.oneMid = true ↔ (p.bandA = .mid ∧ p.bandB ≠ .mid) ∨ (p.bandA ≠ .mid ∧ p.bandB = .mid) := by
  rw [Port.oneMid, bne_iff_ne]
  by_cases a : p.bandA = .mid <;> by_cases b : p.bandB = .mid <;> simp [a, b]

/-- Table 14-4, by the preference, the termination and whether a try is spent. -/
theorem State.attachOutcome_eq (i : Nat) :
    s.attachOutcome i = match (s.port i).pref, (s.port i).term, (s.port i).spent with
      | 0, _, _ => s.attach i true
      | 1, _, _ => s.attach i false
      | 2, .source, _ => s.attach i true
      | 2, _, _ => (s.setPort i .trySource 0).modPort i fun p => { p with term := .source }
      | _, .sink, _ => s.attach i false
      | _, _, true => s.attach i true
      | _, _, false => (s.setPort i .tryWaitSink 0).modPort i fun p => { p with term := .sink, fromTry := false } := by
  match pref : (s.port i).pref with
  | 0 | 1 => simp only [State.attachOutcome, pref]
  | 2 => cases term : (s.port i).term <;> simp only [State.attachOutcome, pref, term]
  | n + 3 =>
    cases term : (s.port i).term <;> cases spent : (s.port i).spent <;>
      simp only [State.attachOutcome, pref, term, spent, if_true, Bool.false_eq_true, if_false]

/-- What an update leaves on the port that it writes, it leaves on every port. -/
theorem State.modPort_leaves {α : Type} (i j : Nat) {f : Port → Port} (x : Port → α) (h : ∀ p, x (f p) = x p) :
    x ((s.modPort i f).port j) = x (s.port j) := by
  rw [State.modPort_port]
  split
  · exact h _
  · rfl

/-- The end of the jumper is that of the line which reads MID (R341). -/
def State.endTaken (i : Nat) : State := s.modPort i fun p => { p with endB := p.bandB == .mid }

/-- The port on whose line MID has held moves on by its state. -/
theorem execClaspAttachTimer_eq (i : Nat) :
    let p := s.port i
    execClaspAttachTimer i s = .next (
      if s.claspOn i = true ∧ p.enabled = true ∧ ((p.bandA = .mid ∧ p.bandB ≠ .mid) ∨ (p.bandA ≠ .mid ∧ p.bandB = .mid)) then
        match p.mode with
        | .unattached => if p.endConflict then s else (s.endTaken i).setPort i .attachWait 0
        | .attachWait => (s.endTaken i).attachOutcome i
        | .trySource => (s.endTaken i).attach i true
        | .tryWaitSink => (s.endTaken i).attach i false
        | _ => s
      else s) := by
  intro p
  rw [← ite_not]
  refine ite_eq_next (by simp [p, ← Port.oneMid_iff, imp_iff_not_or, or_assoc]) (fun _ => rfl) fun _ => ?_
  cases mode : p.mode <;> rfl

theorem execClaspToggle_eq (i : Nat) :
    execClaspToggle i s = .next (
      if s.claspOn i = true ∧ (s.port i).enabled = true ∧ (s.port i).mode = .unattached ∧ 2 ≤ (s.port i).pref ∧
          (s.port i).halfAt + s.toggleHalf i ≤ s.time.sysTime then
        s.modPort i fun p => { p with term := if p.term = .source then .sink else .source, halfAt := s.time.sysTime }
      else s) := by
  simp only [execClaspToggle, beq_iff_eq]
  exact next_ite (by simp [and_assoc]) ..

/-- Without a partner TRY_SOURCE goes over to TRY_WAIT_SINK, which ends where it began. -/
theorem execClaspTryTimeout_eq (i : Nat) :
    execClaspTryTimeout i s = .next (
      if s.claspOn i = false then s else match (s.port i).mode, (s.port i).fromTry with
        | .trySource, _ => (s.setPort i .tryWaitSink 0).modPort i fun p => { p with term := .sink, fromTry := true }
        | .tryWaitSink, true => s.portRest i 0
        | .tryWaitSink, false => (s.setPort i .attachWait 0).modPort i fun p => { p with term := .source, spent := true }
        | _, _ => s) := by
  refine ite_eq_next (by simp) (fun _ => rfl) fun _ => ?_
  cases mode : (s.port i).mode <;> cases begun : (s.port i).fromTry <;> rfl

/-! ### Detaching (R356, R357) -/

/-- A port that recovers takes its record's preference, and a tie that is open already releases the lines. -/
theorem State.recover_of_record (i cause : Nat) :
    s.recover i cause none =
      let u := (s.portRecover i cause).modPort i fun p => { p with pref := p.prof 1 1 }
      if (u.chan (tieOf i)).fb = true ∨ (u.chan (tieOf i)).state.driven = true then u
      else u.modPort i fun p => { p with term := .opened, released := true } :=
  if_congr (Bool.or_eq_true _ _).to_iff rfl rfl

/-- A detach that no message has announced is counted, and in TRANSITION it is a fault of the tie. -/
theorem execClaspDetachDetected_eq (i : Nat) :
    let p := s.port i
    let t := s.modClasp fun c => { c with pulled := satAdd 255 c.pulled 1 }
    let u := if p.mode = .transition then
        (t.recordClass 0x19 (legBit i) 0 0x0A (pulledDetail s i)).tiePulled (tieOf i)
      else if (s.chan (tieOf i)).state.driven then t.setChan (tieOf i) .opening 0 else t
    execClaspDetachDetected i s = .next (
      if s.claspOn i = true ∧ p.mode.attached = true ∧ (if p.endB then p.bandB else p.bandA) ≠ .mid then
        (u.modPort i fun p => { p with out := none, queue := [] }).recover i 1 none
      else s) := by
  intro p t u
  have active : (s.port i).activeMid = true ↔ (if p.endB then p.bandB else p.bandA) = .mid := by
    cases b : p.endB <;> simp [Port.activeMid, p] at b ⊢ <;> simp [b]
  rw [← ite_not]
  refine ite_eq_next (by simp [active, p, imp_iff_not_or, or_assoc]) (fun _ => rfl) fun _ => ?_
  simp only [beq_iff_eq]
  rfl

theorem execClaspRecoveryEnd_eq (i : Nat) :
    execClaspRecoveryEnd i s = .next (
      if (s.port i).mode = .recovery ∧ (s.port i).released = true then s.portRest i 0 else s) :=
  next_ite (by simp) ..

/-! ### The line (R348) -/

/-- What waits for the line in one state goes on to another: the answer first, or else the message in progress. -/
def Port.onLine (old new : SendState) (p : Port) : Port :=
  if p.answerState = some old then { p with answerState := some new }
  else { p with out := p.out.map fun o => if o.state = old then { o with state := new } else o }

/-- The model's words for it: a port without a message stays as it is. -/
theorem Port.onLine_eq (p : Port) (old new : SendState) :
    (if p.answerState == some old then { p with answerState := some new }
      else match p.out with
        | some o => if o.state == old then { p with out := some { o with state := new } } else p
        | none => p) = p.onLine old new := by
  refine ite_congr (propext beq_iff_eq) (fun _ => rfl) fun _ => ?_
  cases out : p.out with
  | none => exact congrArg (fun x => { p with out := x }) out
  | some o =>
    by_cases state : o.state = old
    · simp [state]
    · simp only [Option.map_some, state, if_false, beq_false_of_ne state, Bool.false_eq_true]
      exact congrArg (fun x => { p with out := x }) out

/-- The idle line lets the CAPS that is owed join the messages, and the next of them begin. -/
theorem execClaspLineIdle_eq (i : Nat) :
    execClaspLineIdle i s = .next (
      if s.claspOn i then (s.owedCaps i).modPort i (Port.onLine .waiting .sending) else s) := by
  rw [← ite_not]
  refine ite_eq_next (by simp) (fun _ => rfl) fun _ => congrArg (fun f => Host.Outcome.next ((s.owedCaps i).modPort i f)) ?_
  exact funext fun p => p.onLine_eq .waiting .sending

/-- After the retry time what a collision has stopped begins again. -/
theorem execClaspRetryIdle_eq (i : Nat) :
    execClaspRetryIdle i s = .next (if s.claspOn i then s.modPort i (Port.onLine .collided .sending) else s) := by
  rw [← ite_not]
  refine ite_eq_next (by simp) (fun _ => rfl) fun _ => congrArg (fun f => Host.Outcome.next (s.modPort i f)) ?_
  exact funext fun p => p.onLine_eq .collided .sending

/-- The answer leaves before the message in progress, and an ACCEPT of REQUEST enters TRANSITION with it (R349). -/
theorem execClaspMessageSent_eq (i : Nat) :
    let p := s.port i
    execClaspMessageSent i s = .next (
      if s.claspOn i = false then s
      else if p.answerState = some .sending then
        let t := s.modPort i fun p => { p with answerState := none, entersOnSend := false }
        match p.answered with
        | some a => if p.entersOnSend then t.enterTransition i (fieldAt a.payload 0 4) else t
        | none => t
      else match p.out with
        | some o => if o.state = .sending then s.modPort i fun p => { p with out := some { o with state := .sent } } else s
        | none => s) := by
  intro p
  refine ite_eq_next (by simp) (fun _ => rfl) fun _ => ite_eq_next beq_iff_eq (fun _ => ?answer) fun _ => ?message
  case answer => cases enters : p.entersOnSend <;> cases answered : p.answered <;> rfl
  case message =>
    cases out : p.out with
    | none => rfl
    | some o => exact next_ite beq_iff_eq ..

/-- A collision stops the answer or the message that is being sent, and is counted. -/
theorem execClaspCollision_eq (i : Nat) :
    let p := s.port i
    let count : State → State := fun t => t.modClasp fun c => { c with collisions := satAdd 255 c.collisions 1 }
    execClaspCollision i s = .next (
      if s.claspOn i = false then s
      else if p.answerState = some .sending then count (s.modPort i fun p => { p with answerState := some .collided })
      else match p.out with
        | some o =>
          if o.state = .sending then count (s.modPort i fun p => { p with out := some { o with state := .collided } }) else s
        | none => s) := by
  intro p count
  refine ite_eq_next (by simp) (fun _ => rfl) fun _ => ite_eq_next beq_iff_eq (fun _ => rfl) fun _ => ?_
  cases out : p.out with
  | none => rfl
  | some o => exact next_ite beq_iff_eq ..

/-- No answer is awaited. -/
theorem execClaspAnswerTimeout_of_rests {i : Nat}
    (rests : (∀ o, (s.port i).out = some o → o.state ≠ .sent) ∨ s.claspOn i = false) : execClaspAnswerTimeout i s = .next s := by
  cases out : (s.port i).out with
  | none => simp only [execClaspAnswerTimeout, out]
  | some o =>
    have idle : (!s.claspOn i || o.state != .sent) = true := by
      obtain sent | off := rests
      · simp [sent o out]
      · simp [off]
    simp only [execClaspAnswerTimeout, out, idle, if_true]

/-- Three resends in vain leave a silent partner (R353). -/
theorem State.silence_eq (i : Nat) :
    s.silence i =
      let t := s.modPort i fun p => { p with out := none, queue := [], silent := true }
      if (s.port i).mode.attached = true ∧ (s.port i).mode ≠ .hold then t.portHold i 2 else t :=
  if_congr (by simp) rfl rfl

/-- The message whose answer is missing is sent again, up to three times. -/
theorem execClaspAnswerTimeout_of_sent {i : Nat} {o : Outgoing} (out : (s.port i).out = some o) (sent : o.state = .sent)
    (on : s.claspOn i = true) :
    execClaspAnswerTimeout i s = .next (
      if o.resends < 3 then
        (s.modPort i fun p => { p with out := some { o with state := .waiting, resends := o.resends + 1 } }).modClasp fun c =>
          { c with resends := satAdd 255 c.resends 1 }
      else s.silence i) := by
  have awaited : ¬(!s.claspOn i || o.state != .sent) = true := by simp [on, sent]
  simp only [execClaspAnswerTimeout, out, if_neg awaited]
  exact ite_eq_next Iff.rfl (fun _ => rfl) fun _ => rfl

/-! ### The times of the states (R352 to R354) -/

/-- The end of TRANSITION's time: the port leaves for HOLD. -/
theorem execClaspTransitionTimeout_eq (i : Nat) :
    execClaspTransitionTimeout i s = .next (
      if s.claspOn i = true ∧ (s.port i).mode = .transition then
        ((s.portHold i 0).portSend i msgHold (le 1 4)).modPort i fun p => { p with capsDue := p.exporter } else s) :=
  ite_eq_next (by simp) (fun ⟨_, mode⟩ => congrArg _ ((s.sendHold_eq i 4).trans (if_pos (by simp [mode, PortMode.attached])))) fun _ => rfl

/-- The end of HOLD's time: a silent partner is left without a message. -/
theorem execClaspHoldTimeout_eq (i : Nat) :
    execClaspHoldTimeout i s = .next (
      if s.claspOn i = true ∧ (s.port i).mode = .hold then
        if (s.port i).silent then s.recover i 2 none else s.portDetach i 2 0 none
      else s) := by
  rw [← ite_not]
  exact ite_eq_next (by simp [imp_iff_not_or]) (fun _ => rfl) fun _ => ite_eq_next Iff.rfl (fun _ => rfl) fun _ => rfl

theorem execClaspSwapDelay_eq (i : Nat) :
    execClaspSwapDelay i s = .next (
      if s.claspOn i = true ∧ (s.port i).swap = .supplying ∧ (s.port i).swapReady = 0 then
        (s.portSend i msgReady (le 1 (s.chan (tieOf i)).state.code)).modPort i fun p => { p with swapReady := p.seqNo } else s) :=
  next_ite (by simp [and_assoc]) ..

/-! ### The statement -/

/-- Settles O59, event by event, by their equations; a port that recovers does so as `State.recover` says. -/
theorem claspEvents : Obligations.ClaspEvents := by
  unfold Obligations.ClaspEvents
  intro on tie recover
  have recovers (i cause : Nat) (t : State) : recover i cause t = t.recover i cause none := (t.recover_of_record i cause).symm
  refine ⟨fun i b n s => ?sense, fun i s => ?attach, fun i s => execClaspToggle_eq s i, fun i s => execClaspTryTimeout_eq s i,
    fun i s => ?detach, fun i s => execClaspRecoveryEnd_eq s i, fun i s => next_ite Iff.rfl .., fun i s => execClaspLineIdle_eq s i,
    fun i s => execClaspRetryIdle_eq s i, fun i s => execClaspMessageSent_eq s i, fun i s => execClaspCollision_eq s i,
    fun i s => execClaspAnswerTimeout_of_rests s, fun i o s out sent on => ?silent, fun i s => execClaspTransitionTimeout_eq s i,
    fun i s => ?hold, fun i s => execClaspSwapDelay_eq s i⟩
  case sense =>
    simp only [← Band.ofCode_eq]
    exact execClaspSenseChange_eq s i b n
  case attach =>
    refine (execClaspAttachTimer_eq s i).trans (congrArg _ (ite_congr rfl (fun _ => ?_) fun _ => rfl))
    have pref : ((s.endTaken i).port i).pref = (s.port i).pref := s.modPort_leaves i i Port.pref fun _ => rfl
    have term : ((s.endTaken i).port i).term = (s.port i).term := s.modPort_leaves i i Port.term fun _ => rfl
    have spent : ((s.endTaken i).port i).spent = (s.port i).spent := s.modPort_leaves i i Port.spent fun _ => rfl
    rw [State.attachOutcome_eq, pref, term, spent]
    rfl
  case detach =>
    simp only [recovers]
    exact execClaspDetachDetected_eq s i
  case silent => exact (execClaspAnswerTimeout_of_sent s out sent on).trans (by rw [State.silence_eq])
  case hold =>
    simp only [recovers]
    exact (execClaspHoldTimeout_eq s i).trans (congrArg _ (ite_congr rfl (fun _ => rfl) fun _ => rfl))

end Sys2Proof.Machine
end

section
/-!
PROOF. O60: Clasp messages, by their receipt (R341, R347, R348), by the requests (R349, R350, R352, R354, R356) and by their answers.
-/
namespace Sys2Proof.Machine

variable (s : State) {i q type : Nat} {b : Bool} {p : List Byte}

/-! ### Receipt (R341, R347, R348) -/

/-- A port hears messages in an attached state and in recovery. -/
def State.claspHears (i : Nat) : Bool := s.claspOn i && ((s.port i).mode.attached || (s.port i).mode == .recovery)

/-- The message's handling follows unless the port is deaf to it, it is malformed, or it comes from the port's own end. -/
def State.claspReceipt (i : Nat) (b : Bool) (type q : Nat) (p : List Byte) (handled : State) : State :=
  if !s.claspOn i || !((s.port i).mode.attached || (s.port i).mode == .recovery) then s
  else if !claspLength type p.length || q = 0 then s.modClasp fun c => { c with badMsg := satAdd 255 c.badMsg 1 }
  else if (s.port i).mode.attached && b == (s.port i).endB then
    (s.portDetach i 3 3 none).modPort i fun p => { p with endConflict := true }
  else handled

section
variable {s} (handled : State)

theorem State.claspReceipt_of_deaf (deaf : s.claspHears i = false) : s.claspReceipt i b type q p handled = s :=
  if_pos (by simpa [State.claspHears, imp_iff_not_or] using deaf)

variable (hears : s.claspHears i = true)
include hears

theorem State.claspReceipt_of_malformed (malformed : claspLength type p.length = false ∨ q = 0) :
    s.claspReceipt i b type q p handled = s.modClasp fun c => { c with badMsg := satAdd 255 c.badMsg 1 } := by
  have hearing : ¬(!s.claspOn i || !((s.port i).mode.attached || (s.port i).mode == .recovery)) = true := by
    simpa [State.claspHears, imp_iff_not_or] using hears
  exact (if_neg hearing).trans (if_pos (by simpa using malformed))

variable (fits : claspLength type p.length = true) (numbered : q ≠ 0)
include fits numbered

theorem State.claspReceipt_of_wellFormed :
    s.claspReceipt i b type q p handled = if (s.port i).mode.attached && b == (s.port i).endB then
      (s.portDetach i 3 3 none).modPort i fun p => { p with endConflict := true } else handled := by
  have hearing : ¬(!s.claspOn i || !((s.port i).mode.attached || (s.port i).mode == .recovery)) = true := by
    simpa [State.claspHears, imp_iff_not_or] using hears
  exact (if_neg hearing).trans (if_neg (by simp [fits, numbered]))

theorem State.claspReceipt_of_own (attached : (s.port i).mode.attached = true) (own : b = (s.port i).endB) :
    s.claspReceipt i b type q p handled = (s.portDetach i 3 3 none).modPort i fun p => { p with endConflict := true } :=
  (s.claspReceipt_of_wellFormed handled hears fits numbered).trans (if_pos (by simp [attached, own]))

theorem State.claspReceipt_of_partner (partner : ¬((s.port i).mode.attached = true ∧ b = (s.port i).endB)) :
    s.claspReceipt i b type q p handled = handled :=
  (s.claspReceipt_of_wellFormed handled hears fits numbered).trans (if_neg (by simpa using partner))

end

/-! ### The rows of the messages -/

/-- The row of a message by its type (Table 14-6). -/
def claspRow (type i : Nat) (b : Bool) (q a : Nat) (p : List Byte) : Instr :=
  if type = 1 then .caps i b q a p else if type = 2 then .request i b q a p else if type = 3 then .accept i b q a p
  else if type = 4 then .reject i b q a p else if type = 5 then .ready i b q a p else if type = 6 then .swapJs i b q a p
  else if type = 7 then .hold i b q a p else .detach i b q a p

/-- What the port does with a message that is no answer. -/
def State.onMessage (i : Nat) (p : List Byte) (type : Nat) : State × Option ClaspAnswer :=
  if type = 1 then s.onCaps i p else if type = 2 then s.onRequest i p else if type = 5 then s.onReady i
  else if type = 6 then s.onSwap i else if type = 7 then s.onHold i else s.onDetach i

/-- The answer that a handling gives, if any, is handed over. -/
def State.claspReply (i q : Nat) (x : State × Option ClaspAnswer) : State :=
  match x with
  | (t, some a) => t.putAnswer i q a
  | (t, none) => t

/-- The port has heard its partner. -/
def State.partnerHeard (i : Nat) : State := s.modPort i fun p => { p with silent := false }

/-- A message is handled once; of a repeat the answer is sent again. -/
def State.claspHandled (i q : Nat) (p : List Byte) (type : Nat) : State :=
  if (s.port i).answered.any fun a => a.answers == q then
    (s.partnerHeard i).modPort i fun p => { p with answerState := some .waiting }
  else State.claspReply i q ((s.partnerHeard i).onMessage i p type)

/-- The types that are no answers. -/
theorem request_type_cases (low : 1 ≤ type) (high : type ≤ 8) (accept : type ≠ 3) (reject : type ≠ 4) :
    type = 1 ∨ type = 2 ∨ type = 5 ∨ type = 6 ∨ type = 7 ∨ type = 8 := by omega

section
variable (low : 1 ≤ type) (high : type ≤ 8) (accept : type ≠ 3) (reject : type ≠ 4)
include low high accept reject

theorem exec_claspRow_of_request (b : Bool) (q : Nat) (p : List Byte) :
    exec (claspRow type i b q 0 p) s = .next (s.claspReceipt i b type q p (s.claspHandled i q p type)) := by
  obtain rfl | rfl | rfl | rfl | rfl | rfl := request_type_cases low high accept reject <;> rfl

/-- A message that is no answer names none. -/
theorem exec_claspRow_of_names {a : Nat} (names : a ≠ 0) : exec (claspRow type i b q a p) s = .next s := by
  obtain rfl | rfl | rfl | rfl | rfl | rfl := request_type_cases low high accept reject <;> exact if_pos names

end

/-- What the port does with an ACCEPT of its message `m`. -/
def State.onAccept (i : Nat) (p : List Byte) (m : ClaspMsg) : State :=
  if (m.type == msgRequest) == (p.length == 4) then s.accepted i m p
  else s.modClasp fun c => { c with badMsg := satAdd 255 c.badMsg 1 }

/-- What it does with an answer, which ends the message that it names. -/
def State.onAnswer (i a : Nat) (p : List Byte) (type : Nat) : State :=
  match (s.port i).answeredBy a with
  | some m => if type = 3 then s.onAccept i p m else s.rejected i m (byteAt p 0)
  | none => s.partnerHeard i

theorem exec_claspRow_of_answer (b : Bool) (q a : Nat) (p : List Byte) (answers : type = 3 ∨ type = 4) :
    exec (claspRow type i b q a p) s = .next (s.claspReceipt i b type q p (s.onAnswer i a p type)) := by
  obtain rfl | rfl := answers <;> rfl

/-- Every row goes through the receipt of its message. -/
theorem exec_claspRow {a : Nat} (b : Bool) (q : Nat) (p : List Byte) (low : 1 ≤ type) (high : type ≤ 8)
    (names : type = 3 ∨ type = 4 ∨ a = 0) :
    ∃ handled, exec (claspRow type i b q a p) s = .next (s.claspReceipt i b type q p handled) := by
  by_cases answers : type = 3 ∨ type = 4
  · exact ⟨_, exec_claspRow_of_answer s b q a p answers⟩
  · obtain ⟨accept, reject⟩ : type ≠ 3 ∧ type ≠ 4 := not_or.mp answers
    obtain rfl : a = 0 := (names.resolve_left accept).resolve_left reject
    exact ⟨_, exec_claspRow_of_request s low high accept reject b q p⟩

/-! ### The requests (R348 to R350, R352, R354 to R356, R358) -/

theorem State.partnerHeard_answered : ((s.partnerHeard i).port i).answered = (s.port i).answered :=
  s.modPort_leaves i i Port.answered fun _ => rfl

theorem State.claspHandled_of_repeat {m : ClaspMsg} (answered : ((s.partnerHeard i).port i).answered = some m) (same : m.answers = q) :
    s.claspHandled i q p type = (s.partnerHeard i).modPort i fun p => { p with answerState := some .waiting } := by
  rw [State.partnerHeard_answered] at answered
  exact if_pos (by simp [answered, same])

theorem State.claspHandled_of_fresh (fresh : ∀ m, ((s.partnerHeard i).port i).answered = some m → m.answers ≠ q) :
    s.claspHandled i q p type = State.claspReply i q ((s.partnerHeard i).onMessage i p type) := by
  rw [State.partnerHeard_answered] at fresh
  refine if_neg ?_
  cases answered : (s.port i).answered with
  | none => simp
  | some m => simpa using fresh m answered

section
variable {s}

/-- Without a partner only DETACH is answered (R358). -/
theorem State.onMessage_of_detached (other : type ≠ 8) (low : 1 ≤ type) (high : type ≤ 8) (accept : type ≠ 3) (reject : type ≠ 4)
    (detached : (s.port i).mode.attached = false) : s.onMessage i p type = (s, none) := by
  have alone : (!(s.port i).mode.attached) = true := by rw [detached]; rfl
  obtain rfl | rfl | rfl | rfl | rfl | rfl := request_type_cases low high accept reject
  case inr.inr.inr.inr.inr => exact absurd rfl other
  all_goals exact if_pos alone

variable (attached : (s.port i).mode.attached = true)
include attached

theorem State.onCaps_of_exporter (exporter : (s.port i).exporter = true) : s.onCaps i p = (s, some (rejectMsg 4)) := by
  simp only [State.onCaps, attached, exporter, Bool.not_true, Bool.false_eq_true, if_false, if_true]

/-- An importer keeps the offer, and asks for a contract where it fits (R349). -/
theorem State.onCaps_of_importer (importer : (s.port i).exporter = false) :
    let u := (s.modPort i fun x => { x with caps := some p, capsSinceHold := x.mode == .hold }).heardSupply i (bitAt p 17 1)
    s.onCaps i p = if (s.port i).acceptsCaps p then (u.sendRequest i, some acceptMsg) else (u, some (rejectMsg 1)) := by
  simp only [State.onCaps, attached, importer, Bool.not_true, Bool.false_eq_true, if_false]

/-- An exporter grants what its offer and the range that both accept allow (R349). -/
theorem State.onRequest_eq :
    State.claspReply i q (s.onRequest i p) =
      if (s.port i).exporter = false then s.putAnswer i q (rejectMsg 4)
      else if (s.port i).mode = .transition ∨ (s.port i).holdOut = true then s.putAnswer i q (rejectMsg 3)
      else match s.exportOffer i with
        | none => s.putAnswer i q (rejectMsg 4)
        | some o =>
          if Nat.min (fieldAt p 0 4) o.2.2 = 0 then s.putAnswer i q (rejectMsg 2)
          else if o.1 ≤ fieldAt p 8 4 ∧ fieldAt p 4 4 ≤ o.2.1 then
            (s.modPort i fun x => { x with slew := Nat.min 50 (byteAt p 12) }).putAnswer i q
              { type := msgAccept, payload := le 4 (Nat.min (fieldAt p 0 4) o.2.2), enters := true }
          else s.putAnswer i q (rejectMsg 1) := by
  have runs : ¬(!(s.port i).mode.attached) = true := by simp [attached]
  rw [State.onRequest, if_neg runs, apply_ite (State.claspReply i q)]
  refine ite_congr (by simp) (fun _ => rfl) fun _ => ?_
  rw [apply_ite (State.claspReply i q)]
  refine ite_congr (by simp) (fun _ => rfl) fun _ => ?_
  cases s.exportOffer i with
  | none => rfl
  | some o =>
    simp only []
    rw [apply_ite (State.claspReply i q), apply_ite (State.claspReply i q), ← ite_not (p := o.1 ≤ _ ∧ _)]
    exact ite_congr rfl (fun _ => rfl) fun _ => ite_congr (by simp [overlap, imp_iff_not_or]) (fun _ => rfl) fun _ => rfl

/-- READY ends the handing over of the jumper supply (R354). -/
theorem State.onReady_eq :
    State.claspReply i q (s.onReady i) =
      (if (s.port i).swap = .handing then (s.setJs i false true).modPort i fun x => { x with swap := .none } else s).putAnswer i q
        acceptMsg := by
  have runs : ¬(!(s.port i).mode.attached) = true := by simp [attached]
  rw [State.onReady, if_neg runs, apply_ite (State.claspReply i q), apply_ite (State.putAnswer · i q acceptMsg)]
  exact ite_congr (by simp) (fun _ => rfl) fun _ => rfl

/-- Of two requests for a swap that cross, that of end A stands (R355). -/
theorem State.onSwap_eq :
    let own := (s.port i).swap == .asked && ((s.port i).out.any fun o => o.msg.type == msgSwapJs)
    let u := if own then s.modPort i fun x => { x.advance with swap := .none } else s
    State.claspReply i q (s.onSwap i) =
      if (s.port i).mode = .transition then s.putAnswer i q (rejectMsg 3)
      else if own = true ∧ (s.port i).endB = false then s
      else if (u.port i).swap = .supplying ∨ (u.port i).swap = .handing then u.putAnswer i q (rejectMsg 3)
      else if (s.port i).js = false ∧ (s.port i).capable = false then u.putAnswer i q (rejectMsg 5)
      else (u.beginSwap i).putAnswer i q acceptMsg := by
  intro own u
  have runs : ¬(!(s.port i).mode.attached) = true := by simp [attached]
  rw [State.onSwap, if_neg runs]
  simp only [apply_ite (State.claspReply i q)]
  exact ite_congr (by simp) (fun _ => rfl) fun _ => ite_congr (by simp [own]) (fun _ => rfl) fun _ =>
    ite_congr (by simp [u, own]) (fun _ => rfl) fun _ => ite_congr (by simp) (fun _ => rfl) fun _ => rfl

/-- The port goes into HOLD with its partner, and an exporter renews its offer there (R352). -/
theorem State.onHold_eq :
    State.claspReply i q (s.onHold i) =
      (if (s.port i).mode = .hold then s
        else if (s.port i).exporter then (s.portHold i 0).sendCaps i true else s.portHold i 0).putAnswer i q acceptMsg := by
  have runs : ¬(!(s.port i).mode.attached) = true := by simp [attached]
  rw [State.onHold, if_neg runs, apply_ite (State.claspReply i q), apply_ite (State.putAnswer · i q acceptMsg)]
  exact ite_congr (by simp) (fun _ => rfl) fun _ => rfl

omit attached in
/-- In recovery DETACH is only answered (R358). -/
theorem State.onDetach_eq :
    State.claspReply i q (s.onDetach i) =
      (if (s.port i).mode = .recovery then s
        else (s.modPort i fun x => { x with out := none, queue := [] }).recover i 0 none).putAnswer i q acceptMsg := by
  rw [State.onDetach, apply_ite (State.claspReply i q), apply_ite (State.putAnswer · i q acceptMsg)]
  exact ite_congr (by simp) (fun _ => rfl) fun _ => rfl

end

/-! ### The answers (R348, R349, R354) -/

theorem Port.answeredBy_eq_some_iff {x : Port} {a : Nat} {m : ClaspMsg} :
    x.answeredBy a = some m ↔ ∃ o, x.out = some o ∧ o.state = .sent ∧ o.msg.seqNo = a ∧ m = o.msg := by
  cases out : x.out with
  | none => simp [Port.answeredBy, out]
  | some o => simp [Port.answeredBy, out, and_assoc, eq_comm (a := m)]

section
variable {s} {a : Nat} {m : ClaspMsg}

theorem State.onAnswer_of_unnamed (unnamed : ¬∃ m, (s.port i).answeredBy a = some m) : s.onAnswer i a p type = s.partnerHeard i := by
  have none : (s.port i).answeredBy a = none := Option.eq_none_iff_forall_ne_some.mpr (not_exists.mp unnamed)
  simp only [State.onAnswer, none]

variable (named : (s.port i).answeredBy a = some m)
include named

theorem State.onAnswer_accept : s.onAnswer i a p 3 = s.onAccept i p m := by
  simp only [State.onAnswer, named, if_true]

theorem State.onAnswer_reject : s.onAnswer i a p 4 = s.rejected i m (byteAt p 0) := by
  simp only [State.onAnswer, named]
  rfl

end

/-- An ACCEPT carries a current exactly where it answers a REQUEST (Table 14-6). -/
theorem State.onAccept_eq (m : ClaspMsg) :
    s.onAccept i p m = if m.type = 2 ↔ p.length ≠ 4 then s.modClasp fun c => { c with badMsg := satAdd 255 c.badMsg 1 }
      else s.accepted i m p := by
  rw [← ite_not]
  refine ite_congr ?_ (fun _ => rfl) fun _ => rfl
  by_cases request : m.type = 2 <;> by_cases four : p.length = 4 <;> simp [request, four, msgRequest]

/-! ### The statement -/

/-- Settles O60: a message by its receipt, a request by what the port answers to its type, and an answer by the message it names. -/
theorem claspMessages : Obligations.ClaspMessages := by
  unfold Obligations.ClaspMessages
  intro on heard bad clash row fits answered
  refine ⟨fun type i q a b p s low high names => ?receipt, fun type i q a b p s low high accept reject a0 => ?names,
    fun type i q b p s low high accept reject hears fits numbered partner => ?request,
    fun i q a b p s hears numbered partner => ?answer⟩
  case receipt =>
    obtain ⟨handled, e⟩ := exec_claspRow s b q p low high names
    exact ⟨fun deaf => e.trans (congrArg _ (State.claspReceipt_of_deaf handled deaf)),
      fun hears malformed => e.trans (congrArg _ (State.claspReceipt_of_malformed handled hears malformed)),
      fun hears fits numbered attached own =>
        e.trans (congrArg _ (State.claspReceipt_of_own handled hears fits numbered attached own))⟩
  case names => exact exec_claspRow_of_names s low high accept reject a0
  case request =>
    intro t port
    have handles : exec (row type i b q 0 p) s = .next (s.claspHandled i q p type) :=
      (exec_claspRow_of_request s low high accept reject b q p).trans
        (congrArg _ (State.claspReceipt_of_partner _ hears fits numbered partner))
    refine ⟨fun m held same => handles.trans (congrArg _ (State.claspHandled_of_repeat s held same)), fun fresh => ?_⟩
    have replies {u : State} (e : State.claspReply i q (t.onMessage i p type) = u) : exec (row type i b q 0 p) s = .next u :=
      handles.trans (congrArg _ ((State.claspHandled_of_fresh s fresh).trans e))
    refine ⟨fun other detached => ?detached, ?exporter, ?importer, ?contract, ?ready, ?swap, ?hold, ?detach⟩
    case detached =>
      exact replies (congrArg (State.claspReply i q) (State.onMessage_of_detached other low high accept reject detached))
    case exporter =>
      rintro rfl attached exporter
      exact replies (congrArg (State.claspReply i q) (State.onCaps_of_exporter attached exporter))
    case importer =>
      rintro rfl attached importer
      refine replies ((congrArg (State.claspReply i q) (State.onCaps_of_importer attached importer)).trans ?_)
      exact apply_ite (State.claspReply i q) ..
    case contract =>
      rintro rfl attached
      exact replies (State.onRequest_eq attached)
    case ready =>
      rintro rfl attached
      exact replies (State.onReady_eq attached)
    case swap =>
      rintro rfl attached
      exact replies (State.onSwap_eq attached)
    case hold =>
      rintro rfl attached
      exact replies (State.onHold_eq attached)
    case detach =>
      rintro rfl
      exact replies State.onDetach_eq
  case answer =>
    intro named t
    have names (m : ClaspMsg) : named m ↔ (s.port i).answeredBy a = some m := Port.answeredBy_eq_some_iff.symm
    have handles (n : Nat) (answers : n = 3 ∨ n = 4) (f : fits n p.length = true) :
        exec (row n i b q a p) s = .next (s.onAnswer i a p n) :=
      (exec_claspRow_of_answer s b q a p answers).trans
        (congrArg _ (State.claspReceipt_of_partner _ hears f numbered partner))
    refine ⟨fun n answers f unnamed => ?unnamed, fun m n f mismatch => ?mismatch, fun m n f matches_ => ?accept,
      fun m n f => ?reject⟩
    case unnamed =>
      simp only [names] at unnamed
      exact (handles n answers f).trans (congrArg _ (State.onAnswer_of_unnamed unnamed))
    case mismatch =>
      refine (handles 3 (.inl rfl) f).trans (congrArg _ ((State.onAnswer_accept ((names m).mp n)).trans ?_))
      exact (s.onAccept_eq m).trans (if_pos mismatch)
    case accept =>
      refine (handles 3 (.inl rfl) f).trans (congrArg _ ((State.onAnswer_accept ((names m).mp n)).trans ?_))
      exact (s.onAccept_eq m).trans (if_neg matches_)
    case reject => exact (handles 4 (.inr rfl) f).trans (congrArg _ (State.onAnswer_reject ((names m).mp n)))

end Sys2Proof.Machine
end

section
/-!
PROOF. O30: the opcodes of the measurement (Table 15-16), conversions and samples (R366, R367, R371) and the end of the calibration
(R363).
-/
namespace Sys2Proof.Machine

variable (s : State)

/-! ### The opcodes -/

/-- MEAS_TABLE, checked again at its boundary: of several for one converter the one applied last stands. -/
theorem opMeasTable_run_eq (f : Flight) :
    opMeasTable.run s f =
      (if s.laterTable f || (measTableCheck s f.payload).isSome then s
        else s.modMeas fun m => m.modAdc (byteAt f.payload 0) fun a =>
          { Adc.load (f.payload.drop 4) with ended := a.ended, now := a.now },
        some (if s.laterTable f then [stSuperseded] else (measTableCheck s f.payload).getD [stOk])) := by
  cases last : s.laterTable f with
  | true => simp [opMeasTable, last, answer]
  | false => cases check : measTableCheck s f.payload <;> simp [opMeasTable, last, check, okay]

/-- A mode that changes empties its accumulator or tracker. -/
theorem Meas.setModes_eq (m : Meas) (b : List Byte) :
    m.setModes b = { m with
      modes := some b
      accs := (m.accs.zipIdx).map fun x => if x.1.running = bitAt b x.2 0 then x.1 else { Acc.reset with running := bitAt b x.2 0 }
      trks := (m.trks.zipIdx).map fun x =>
        if x.1.running = bitAt b (64 + x.2) 0 then x.1 else { Trk.reset with running := bitAt b (64 + x.2) 0 } } := by
  simp only [Meas.setModes, beq_iff_eq]

/-- MEAS_SNAPSHOT_READ answers with the newest snapshot, and NOT_READY before there is one. -/
theorem opMeasSnapshotRead_run_eq (f : Flight) :
    opMeasSnapshotRead.run s f = (s, some (match s.meas.newest with
      | none => [stNotReady]
      | some x => stOk ::
          (le 4 x.epoch ++ (((x.accs.drop (byteAt f.payload 0)).take (byteAt f.payload 1)).map accEntry).flatten
            ++ (((x.trks.drop (byteAt f.payload 2)).take (byteAt f.payload 3)).map trkEntry).flatten))) := by
  cases newest : s.meas.newest <;> simp only [opMeasSnapshotRead, newest, answer, okayWith]

/-! ### Conversions (R366, R367, R371) -/

/-- A converter that has no table, or does not run, converts nothing. -/
theorem execConversionDone_of_rests (k n : Nat)
    (rests : (∀ b, (s.meas.adc k).body = some b → tabCount b = 0) ∨ s.isReady .meas = false ∨ (s.meas.adc k).started = false ∨
      (s.meas.adc k).stopped = true ∨ 4 ≤ k) : execConversionDone k n s = .next s := by
  cases body : (s.meas.adc k).body with
  | none => simp only [execConversionDone, body]
  | some b =>
    have stays : ¬(s.isReady .meas && (s.meas.adc k).started && !(s.meas.adc k).stopped && tabCount b ≠ 0 && k < 4) = true := by
      obtain empty | stopped := rests
      · simp [empty b body]
      · simp only [Bool.and_eq_true, Bool.not_eq_true', decide_eq_true_eq]
        rintro ⟨⟨⟨⟨ready, started⟩, runs⟩, -⟩, low⟩
        simp [ready, started, runs] at stopped
        omega
    simp only [execConversionDone, body, if_neg stays]

section
variable {s} {k n : Nat} {b : List Byte}

theorem execConversionDone_of_runs (body : (s.meas.adc k).body = some b) (table : tabCount b ≠ 0) (ready : s.isReady .meas = true)
    (started : (s.meas.adc k).started = true) (runs : (s.meas.adc k).stopped = false) (low : k < 4) :
    execConversionDone k n s = .next (s.conversion k (n % 65536) b) := by
  have acts : (s.isReady .meas && (s.meas.adc k).started && !(s.meas.adc k).stopped && tabCount b ≠ 0 && k < 4) = true := by
    simp [table, ready, started, runs, low]
  simp only [execConversionDone, body, if_pos acts]

/-- The converter after the ten cycles of one more conversion. -/
def Adc.converted (a : Adc) (b : List Byte) : Adc :=
  let e := tabEntry b a.entry
  { a with
    last := some (entChannel e, entGain e, entFilter e)
    cycle := a.cycle + 10
    now := { a.now with conversions := a.now.conversions + 1 } }

/-- A discard is counted, and its code dropped (R367). -/
theorem State.conversion_of_discards (discards : (s.meas.adc k).discards ≠ 0) :
    let e := tabEntry b (s.meas.adc k).entry
    let a := (s.meas.adc k).converted b
    s.conversion k n b = s.modMeas fun m =>
      (m.modAdc k fun _ => { a with discards := a.discards - 1, now := { a.now with discards := a.now.discards + 1 } }).modAcc
        (entAcc e) fun c => { c with discards := satAdd (2 ^ 32 - 1) c.discards 1 } :=
  if_pos (Nat.pos_of_ne_zero discards)

/-- A conversion before the F-th adds its code to the sample. -/
theorem Adc.convert_of_lt {a : Adc} {skip : List Byte → Bool} {us : Nat} (part : a.convs + 1 < entF (tabEntry b a.entry)) :
    a.convert b skip us n = ({ a with convs := a.convs + 1, part := a.part + n }, none) := if_pos part

/-- The F-th completes the sample, the mean of the codes (R366); the entry's last sample begins its delay. -/
theorem Adc.convert_of_le {a : Adc} {skip : List Byte → Bool} {us : Nat} (whole : entF (tabEntry b a.entry) ≤ a.convs + 1) :
    let e := tabEntry b a.entry
    a.convert b skip us n =
      ({ a with
        convs := 0
        part := 0
        sample := a.sample + 1
        delay := if a.sample + 1 < entRepeat e then a.delay else entDelay e }.plan b skip us, some ((a.part + n) / entF e)) := by
  refine (if_neg (Nat.not_lt.mpr whole)).trans ?_
  by_cases again : a.sample + 1 < entRepeat (tabEntry b a.entry)
  · simp only [if_pos again]
  · simp only [if_neg again]

variable (none : (s.meas.adc k).discards = 0)
include none

/-- A conversion that is not discarded, by what it makes of the converter and of the sample. -/
theorem State.conversion_of_convert {x : Adc × Option Nat}
    (converts : ((s.meas.adc k).converted b).convert b (passedOver s.meas.throttled s.time.epoch) s.time.length n = x) :
    s.conversion k n b = match x.2 with
      | .none => s.modMeas fun m => m.modAdc k fun _ => x.1
      | some v =>
        let e := tabEntry b (s.meas.adc k).entry
        (s.modMeas fun m => ((m.modAdc k fun _ => x.1).modAcc (entAcc e) (·.add v)).modTrk (entTrk e) (·.add v)).slowSamples
          (entAcc e) v := by
  subst converts
  exact if_neg (by simp [none])

end

/-! ### The end of the calibration (R363) -/

/-- MEAS is ready, and the first entry of every converter takes the start discards (log 119). -/
theorem execMeasCalibrationDone_eq :
    execMeasCalibrationDone s = .next (if s.sys.clk = .running ∧ s.sys.held = false then
      (s.modMeas fun m =>
        { m with calDone := true, adcs := m.adcs.map fun a => { a with last := none, begun := false } }).setReady .meas true
      else s) :=
  next_ite (by simp) ..

/-! ### The statement -/

/-- Settles O30: the opcodes by what each runs, and a conversion by whether it is discarded or completes a sample. -/
theorem measurements : Obligations.Measurements := by
  unfold Obligations.Measurements
  refine ⟨?table, ?modes, ?clear, ?snapshot, ?status, fun k n s rests => execConversionDone_of_rests s k n rests,
    fun k n b s body table ready started runs low => ?conversion, execMeasCalibrationDone_eq⟩
  case table => exact Applies.of_run (fun _ _ => rfl) rfl rfl opMeasTable_run_eq
  case modes =>
    simp only [← Meas.setModes_eq]
    exact Applies.of_check (fun _ _ => rfl) rfl rfl fun _ _ => rfl
  case clear => exact Applies.of_run (fun _ _ => rfl) rfl rfl fun _ _ => rfl
  case snapshot =>
    refine Performs.of_run (fun _ _ => rfl) fun s f _ => (opMeasSnapshotRead_run_eq s f).trans ?_
    cases s.meas.newest <;> rfl
  case status => exact Performs.of_run (fun _ _ => rfl) fun _ _ _ => rfl
  case conversion =>
    intro e a skip
    have converts := execConversionDone_of_runs (n := n) body table ready started runs low
    refine ⟨fun discards => ?discarded, fun none part => ?part, fun none whole => ?sample⟩
    case discarded => exact converts.trans (congrArg _ (State.conversion_of_discards discards))
    case part => exact converts.trans (congrArg _ (State.conversion_of_convert none (Adc.convert_of_lt part)))
    case sample => exact converts.trans (congrArg _ (State.conversion_of_convert none (Adc.convert_of_le whole)))

end Sys2Proof.Machine
end

section
/-!
PROOF. O50: the flags of the levels (R383), the junction reads (R384 to R386) and the thermal shutdown (R390, Table 16-3).
-/
namespace Sys2Proof.Machine

variable (s : State)

/-! ### Flags (R383) -/

theorem flagNext_eq (old : Bool) (v set hyst : Int) :
    flagNext old v set hyst = if set ≤ v then true else if v < set - hyst then false else old := by
  by_cases above : set ≤ v
  · simp [flagNext, above]
  · by_cases below : v < set - hyst
    · simp only [flagNext, above, below, Int.not_le.mpr below, decide_false, Bool.and_false, Bool.or_false, if_true, if_false]
    · simp only [flagNext, above, below, Int.not_lt.mp below, decide_false, decide_true, Bool.and_true, Bool.false_or, if_false]

/-- A flag that is set stays so down to the release level. -/
theorem flagNext_of_set {v set hyst : Int} (falls : 0 ≤ hyst) : flagNext true v set hyst = true ↔ set - hyst ≤ v := by
  simp only [flagNext, Bool.true_and, Bool.or_eq_true, decide_eq_true_eq]
  omega

/-- The throttle and shutdown levels of the junction defaults, with their hystereses (Table 16-1). -/
theorem junctionSet_reset :
    sfieldAt Therm.reset.junctionSet 2 2 = 1500 ∧ sfieldAt Therm.reset.junctionSet 6 2 = 50 ∧
      sfieldAt Therm.reset.junctionSet 4 2 = 1600 ∧ sfieldAt Therm.reset.junctionSet 8 2 = 150 := by decide

/-! ### The start of a read (R385) -/

theorem State.readDue_iff :
    let grid := 50 * Config.ticksPerUs
    let step := if s.time.lfrcStep then 80 else 1
    s.readDue = true ↔ s.therm.started = false ∨ (s.therm.fast = true ∧ s.time.tick % grid < step) ∨
      (s.epochTicks ≤ s.time.tick + grid ∧ s.time.tick + grid < s.epochTicks + step) := by
  intro grid step
  simp only [State.readDue, Bool.or_eq_true, Bool.and_eq_true, Bool.not_eq_true', decide_eq_true_iff, or_assoc]
  rfl

theorem execThermalReadStart_eq :
    execThermalReadStart s = .next (if s.sys.clk = .running ∧ s.sys.held = false ∧ s.readDue = true then
      s.modTherm fun t => { t with reads := true } else s) :=
  next_ite (by simp [and_assoc]) ..

/-! ### What a read and its events leave -/

section
variable {s} {α : Type} (x : State → α) (cmd : ∀ (t : State) (f : Cmd → Cmd), x (t.modCmd f) = x t)
include cmd

theorem State.levelEvent_leaves (scheme o n : Nat) (r : Option Int) : x (s.levelEvent scheme o n r) = x s := by
  rw [State.levelEvent, apply_ite x, State.dueEvent, cmd, ite_self]

theorem State.sensorEvents_leaves (old new : BitVec 8) (l : List Int) : x (s.sensorEvents old new l) = x s := by
  rw [State.sensorEvents]
  induction List.range 8 generalizing s with
  | nil => rfl
  | cons k r ih =>
    rw [List.foldl_cons, ih, apply_ite x, State.dueEvent, cmd, ite_self]

end

/-- The name of the hottest sensor is one field of the thermal block (log 53). -/
theorem State.nameHottest_leaves (l : List Int) : ∃ h, s.nameHottest l = s.modTherm fun t => { t with hottest := h } := by
  by_cases single : (hottestTies l).length ≤ 1
  · exact ⟨s.therm.hottest, if_pos single⟩
  · exact ⟨_, if_neg single⟩

/-- The state with the read in its registers and its events told. -/
def State.readTold (l : List Int) : State :=
  let t := s.therm.read l
  (((s.modTherm fun _ => t).nameHottest l).sensorEvents (if s.therm.haveRead then s.therm.ok else 0xFF) t.ok l).levelEvent 0
    s.therm.level t.level t.reading

/-- A read that finds level 3 shuts the die down (R390). -/
theorem State.thermalRead_eq (l : List Int) :
    s.thermalRead l = if (s.therm.read l).level = 3 then (s.readTold l).thermalShutdown else s.readTold l := rfl

theorem State.readTold_leaves {α : Type} (x : State → α) (cmd : ∀ (t : State) (f : Cmd → Cmd), x (t.modCmd f) = x t)
    (therm : ∀ (t : State) (f : Therm → Therm), x (t.modTherm f) = x t) (l : List Int) : x (s.readTold l) = x s := by
  obtain ⟨h, named⟩ := (s.modTherm fun _ => s.therm.read l).nameHottest_leaves l
  rw [State.readTold, State.levelEvent_leaves x cmd, State.sensorEvents_leaves x cmd, named, therm, therm]

theorem State.readTold_therm (l : List Int) : ∃ h, (s.readTold l).therm = { s.therm.read l with hottest := h } := by
  obtain ⟨h, named⟩ := (s.modTherm fun _ => s.therm.read l).nameHottest_leaves l
  refine ⟨h, ?_⟩
  rw [State.readTold, State.levelEvent_leaves State.therm fun _ _ => rfl, State.sensorEvents_leaves State.therm fun _ _ => rfl, named]
  rfl

/-! ### The shutdown (R390) -/

section
variable {s} {α : Type} (x : State → α)

/-- A record of a class leaves what is neither of the protection, nor of the last-fault record, nor of the chain. -/
theorem State.recordClassAs_leaves (prot : ∀ (t : State) (f : Prot → Prot), x (t.modProt f) = x t)
    (fault : ∀ (t : State) (code block : Nat) (detail : List Byte), x (t.recordFault code block detail) = x t)
    (slolos : ∀ (t : State) (f : Slolos → Slolos), x (t.modSlolos f) = x t)
    (cls code : Nat) (legs : BitVec 16) (lanes : BitVec 4) (block : Nat) (detail : List Byte) :
    x (s.recordClassAs cls code legs lanes block detail) = x s := by
  have up (t : State) (f : ChainFrame) : x (t.sendUp f) = x t := by
    rw [State.sendUp, apply_ite x, State.sendB, State.sendA, slolos, slolos, ite_self]
  have told (t : State) : x (t.announce cls) = x t := by
    simp only [State.announce, apply_ite x, prot, up, ite_self]
  simp only [State.recordClassAs, apply_ite x, prot, told, fault, ite_self]

theorem State.thermalShutdown_leaves (prot : ∀ (t : State) (f : Prot → Prot), x (t.modProt f) = x t)
    (sys : ∀ (t : State) (f : Sys → Sys), x (t.modSys f) = x t)
    (slolos : ∀ (t : State) (f : Slolos → Slolos), x (t.modSlolos f) = x t)
    (therm : ∀ (t : State) (f : Therm → Therm), x (t.modTherm f) = x t) : x s.thermalShutdown = x s := by
  have fault (t : State) (code block : Nat) (detail : List Byte) : x (t.recordFault code block detail) = x t := sys _ _
  rw [State.thermalShutdown, State.trigger, apply_ite x, sys, sys, ite_self, therm, State.recordClassAs_leaves x prot fault slolos]

end

theorem State.thermalShutdown_therm : s.thermalShutdown.therm = { s.therm with shutdown := true, coolReads := 0 } := by
  have recorded := State.recordClassAs_leaves (s := s) State.therm (fun _ _ => rfl) (fun _ _ _ _ => rfl) fun _ _ => rfl
  rw [State.thermalShutdown, State.trigger, apply_ite State.therm, State.modSys_therm, State.modSys_therm, ite_self,
    State.modTherm_therm, recorded]

theorem State.thermalShutdown_trigPending (free : s.sys.held = false) :
    s.thermalShutdown.sys.trigPending = s.sys.trigPending.putBit causeThermal true := by
  have held := State.recordClassAs_leaves (s := s) (·.sys.held) (fun _ _ => rfl) (fun _ _ _ _ => rfl) fun _ _ => rfl
  have pending := State.recordClassAs_leaves (s := s) (·.sys.trigPending) (fun _ _ => rfl) (fun _ _ _ _ => rfl) fun _ _ => rfl
  rw [State.thermalShutdown, State.trigger, if_neg (by simp [held, free])]
  simp only [State.modSys_sys, State.modTherm_sys, pending]

/-! ### A completed read -/

theorem execThermalReadDone_eq (l : List Int) :
    execThermalReadDone l s = .next (
      if s.sys.clk = .running ∧ s.sys.held = false ∧ s.therm.reads = true ∧ l.length = 8 then s.thermalRead l else s) :=
  next_ite (by simp [and_assoc]) ..

/-- A read leaves what is neither of the thermal block, nor of its events, nor of its shutdown. -/
theorem State.thermalRead_leaves {α : Type} (x : State → α) (cmd : ∀ (t : State) (f : Cmd → Cmd), x (t.modCmd f) = x t)
    (prot : ∀ (t : State) (f : Prot → Prot), x (t.modProt f) = x t) (sys : ∀ (t : State) (f : Sys → Sys), x (t.modSys f) = x t)
    (slolos : ∀ (t : State) (f : Slolos → Slolos), x (t.modSlolos f) = x t)
    (therm : ∀ (t : State) (f : Therm → Therm), x (t.modTherm f) = x t) (l : List Int) : x (s.thermalRead l) = x s := by
  rw [s.thermalRead_eq, apply_ite x, State.thermalShutdown_leaves x prot sys slolos therm, s.readTold_leaves x cmd therm, ite_self]

/-- The thermal block after a read: its registers, the name of the hottest sensor, and the shutdown. -/
theorem State.thermalRead_therm (l : List Int) :
    ∃ h, (s.thermalRead l).therm = { s.therm.read l with
      hottest := h
      shutdown := if (s.therm.read l).level = 3 then true else s.therm.shutdown
      coolReads := if (s.therm.read l).level = 3 then 0 else s.therm.coolReads } := by
  obtain ⟨h, told⟩ := s.readTold_therm l
  refine ⟨h, ?_⟩
  by_cases hot : (s.therm.read l).level = 3
  · rw [s.thermalRead_eq, if_pos hot, State.thermalShutdown_therm, told, if_pos hot, if_pos hot]
  · rw [s.thermalRead_eq, if_neg hot, told, if_neg hot, if_neg hot]
    rfl

theorem State.thermalRead_of_hot {l : List Int} (hot : (s.therm.read l).level = 3) (free : s.sys.held = false) :
    (s.thermalRead l).sys.trigPending = s.sys.trigPending.putBit causeThermal true := by
  have told : (s.readTold l).sys = s.sys := s.readTold_leaves State.sys (fun _ _ => rfl) (fun _ _ => rfl) l
  rw [s.thermalRead_eq, if_pos hot, State.thermalShutdown_trigPending _ (told ▸ free), told]

theorem State.thermalRead_of_cool {l : List Int} (cool : (s.therm.read l).level ≠ 3) :
    (s.thermalRead l).sys = s.sys ∧ (s.thermalRead l).prot = s.prot := by
  rw [s.thermalRead_eq, if_neg cool]
  exact ⟨s.readTold_leaves State.sys (fun _ _ => rfl) (fun _ _ => rfl) l, s.readTold_leaves State.prot (fun _ _ => rfl) (fun _ _ => rfl) l⟩

/-! ### Reads while the shutdown holds (Table 16-3, steps 5 and 6) -/

theorem execThermalHeldRead_eq (l : List Int) :
    execThermalHeldRead l s = .next (
      if s.sys.held = true ∧ s.therm.shutdown = true ∧ s.sys.lfrcRun = true ∧ l.length = 8 then
        s.modTherm fun t => { t with
          coolReads := if (hottestOf l).any fun x => decide (x.2 < sfieldAt t.junctionSet 4 2 - sfieldAt t.junctionSet 8 2)
            then t.coolReads + 1 else 0 }
      else s) := by
  refine ite_eq_next (by simp [and_assoc]) (fun _ => ?_) fun _ => rfl
  cases hottestOf l with
  | none => rfl
  | some x => simp only [State.modTherm, Option.any_some]

/-! ### The statement -/

/-- Settles O50: the flags, the start of a read by when it is due, and a completed read by what it leaves in each block. -/
theorem thermalReads : Obligations.ThermalReads := by
  unfold Obligations.ThermalReads
  refine ⟨fun l b v => ⟨flagNext_eq .., flagNext_eq .., flagNext_eq ..⟩, fun _ => rfl, fun l v throttle shutdown => ?defaults,
    fun s => ?start, fun l s rests => (execThermalReadDone_eq s l).trans (congrArg _ (if_neg rests)),
    fun l s clock free reads eight => ?done, fun l s => execThermalHeldRead_eq s l⟩
  case defaults =>
    obtain ⟨throttleSet, throttleHyst, shutdownSet, shutdownHyst⟩ := junctionSet_reset
    simp only [Levels.next, throttle, shutdown, throttleSet, throttleHyst, shutdownSet, shutdownHyst]
    exact ⟨flagNext_of_set (by decide), flagNext_of_set (by decide)⟩
  case start =>
    intro grid step due
    have acts : (s.sys.clk = .running ∧ s.sys.held = false ∧ s.readDue = true) ↔ (s.sys.clk = .running ∧ s.sys.held = false ∧ due) :=
      and_congr_right' (and_congr_right' s.readDue_iff)
    exact ⟨fun h => (execThermalReadStart_eq s).trans (congrArg _ (if_pos (acts.mpr h))),
      fun h => (execThermalReadStart_eq s).trans (congrArg _ (if_neg (mt acts.mp h)))⟩
  case done =>
    obtain ⟨h, therm⟩ := s.thermalRead_therm l
    have eights : l.take 8 = l := List.take_of_length_le eight.le
    have level : (s.thermalRead l).therm.level = (s.therm.read l).level := by rw [therm]; rfl
    have others := s.thermalRead_leaves (fun t => (t.conv, t.path, t.time, t.meas, t.flash)) (fun _ _ => rfl) (fun _ _ => rfl)
      (fun _ _ => rfl) (fun _ _ => rfl) (fun _ _ => rfl) l
    simp only [Prod.mk.injEq] at others
    refine ⟨s.thermalRead l, (execThermalReadDone_eq s l).trans (congrArg _ (if_pos ⟨clock, free, reads, eight⟩)), ?_⟩
    rw [level]
    exact ⟨(congrArg Therm.readings therm).trans eights, (congrArg Therm.ok therm).trans (congrArg validMask eights),
      congrArg Therm.reading therm, congrArg Therm.haveRead therm, congrArg Therm.reads therm, congrArg Therm.levels therm,
      (congrArg Therm.ext therm :), (congrArg Therm.batt therm :), (congrArg Therm.frozen therm :), (congrArg Therm.body therm :),
      congrArg Therm.started therm,
      fun hot => ⟨(congrArg Therm.shutdown therm).trans (if_pos hot), (congrArg Therm.coolReads therm).trans (if_pos hot),
        s.thermalRead_of_hot hot free⟩,
      s.thermalRead_of_cool, others⟩

end Sys2Proof.Machine
end

section
/-!
PROOF. O43: the accesses of one register through the window (R8, R140, R399, R401, R402, R406).
-/
namespace Sys2Proof.Machine

variable {s : State}

/-! ### One word of a running block -/

/-- The state behind the status byte of a transaction that CMD serves. -/
def State.statusTaken (s : State) : State := { s with cmd := { s.cmd with discarded := false } }

/-- What a read of one word answers, and what it leaves. -/
def State.wordRead (s : State) (x : Nat × State) : State :=
  x.2.sendMiso (s.statusByte :: (zeros 5 ++ [0xFF] ++ ((0x5A : Byte) :: le 4 x.1)))

/-- What a write that is carried out answers, and what it leaves. -/
def State.wordWritten (s t : State) : State := t.sendMiso (s.statusByte :: (zeros 8 ++ [0xFF, 0x5A]))

/-- Address `a` is that of a word at offset `o` of block `b`, which is not SYS. -/
def WordAt (b : Block) (o a : Nat) : Prop :=
  b ≠ .sys ∧ blockOf (a / 2 ^ 16) = some b ∧ a % 2 ^ 16 = o ∧ windowAddress a = a ∧ regDefined b o = true

section
variable {a o : Nat} {b : Block} (clear : s.sys.hung = none) (running : s.windowOpen b = true)
include clear running

theorem State.spiBegin_of_open (host : b ≠ .sys) : s.spiBegin = s.statusTaken := by
  obtain ⟨ready, -⟩ := ((State.windowOpen_iff b).mp running).resolve_left host
  exact (State.spiBegin_of_clear clear).trans (if_pos ready)

variable (lc : s.lc ≠ .scrapped) (whole : s.fused b = false) (word : WordAt b o a)
include lc whole word

theorem State.windowRead_word : s.windowRead a 1 = s.wordRead (s.statusTaken.readReg b o) := by
  obtain ⟨host, block, offset, aligned, defined⟩ := word
  have value : s.statusTaken.readWord a = some (s.statusTaken.readReg b o) := by
    have served : ¬(s.statusTaken.fused b = true ∨ regDefined b o = false) := by
      simp [show s.statusTaken.fused b = false from whole, defined]
    have readable : ¬(s.statusTaken.lc = .scrapped ∧ b ≠ .sys ∧ a ≠ 0xF0000) := fun ⟨scrapped, _⟩ => lc scrapped
    have runs : ¬s.statusTaken.windowOpen b = false := by simp [show s.statusTaken.windowOpen b = true from running]
    rw [State.readWord_of_block block, offset, if_neg served, if_neg readable, if_neg runs]
  refine (State.windowRead_of_burst a clear (by decide) (by decide)).trans ?_
  rw [aligned, State.spiBegin_of_open clear running host, State.burst_of_word rfl value]
  rfl

theorem State.windowWrite_word (v : Nat) {t : State} (writes : s.statusTaken.writeReg b o (v % 2 ^ 32) = some t) :
    s.windowWrite a v = s.wordWritten t := by
  obtain ⟨host, block, offset, aligned, -⟩ := word
  refine State.windowWrite_of_done clear (ok := true) ?_
  rw [State.spiBegin_of_open clear running host, aligned,
    State.writeWord_of_open (s := s.statusTaken) block whole lc running, offset, writes]
  rfl

end

theorem State.fused_of_ne {b : Block} (clasp : b ≠ .clasp) (pendant : b ≠ .pendant) : s.fused b = false := by
  simp [State.fused, clasp, pendant]

theorem State.fused_of_part {b : Block} (mq : s.otp.partWq = false) : s.fused b = false := by
  simp [State.fused, mq]

/-! ### The registers of a timer -/

section
variable {k r : Nat} (timer : k < 16) (reg : r ≤ 0x18)
include timer reg

theorem inTimers_timerOffset : inTimers (timerOffset k + r) = true := by
  rw [inTimers, Bool.and_eq_true, decide_eq_true_iff, decide_eq_true_iff, timerOffset]
  omega

omit timer in
/-- The offset of a timer's register names the timer and the register. -/
theorem timerOf_timerOffset : timerOf (timerOffset k + r) = k ∧ timerReg (timerOffset k + r) = r := by
  simp only [timerOf, timerReg, timerOffset]
  omega

theorem wordAt_timer (aligned : r % 4 = 0) : WordAt .time (timerOffset k + r) (0x20000 + r + timerOffset k) := by
  obtain ⟨-, what⟩ := timerOf_timerOffset (k := k) reg
  have defined : regDefined .time (timerOffset k + r) = true := by
    simp [regDefined, inTimers_timerOffset timer reg, what, reg]
  have base : (0x20000 + r + timerOffset k) / 2 ^ 16 = 2 := by
    simp only [timerOffset]
    omega
  refine ⟨by decide, by rw [base]; rfl, ?_, ?_, defined⟩
  · simp only [timerOffset]
    omega
  · simp only [windowAddress, timerOffset]
    omega

theorem State.readReg_timer (t : State) :
    t.readReg .time (timerOffset k + r) = ((t.time.readTimer k r).1, { t with time := (t.time.readTimer k r).2 }) := by
  obtain ⟨which, what⟩ := timerOf_timerOffset (k := k) reg
  simp only [State.readReg, State.readTime, inTimers_timerOffset timer reg, which, what, if_true]

theorem State.writeReg_timer (t : State) {v : Nat} {x : Timer} (writes : (t.time.timer k).writeReg r v = some x) :
    t.writeReg .time (timerOffset k + r) v = some (t.modTime fun y => y.setTimer k x) := by
  obtain ⟨which, what⟩ := timerOf_timerOffset (k := k) reg
  simp only [State.writeReg, inTimers_timerOffset timer reg, which, what, reg, decide_true, Bool.and_self, if_true, writes]

variable (clear : s.sys.hung = none) (lc : s.lc ≠ .scrapped) (running : s.windowOpen .time = true) (aligned : r % 4 = 0)
include clear lc running aligned

theorem State.windowRead_timer :
    s.windowRead (0x20000 + r + timerOffset k) 1 =
      s.wordRead ((s.time.readTimer k r).1, { s.statusTaken with time := (s.time.readTimer k r).2 }) := by
  rw [State.windowRead_word clear running lc (State.fused_of_ne (by decide) (by decide)) (wordAt_timer timer reg aligned),
    State.readReg_timer timer reg]
  rfl

theorem State.windowWrite_timer (v : Nat) {x : Timer} (writes : (s.time.timer k).writeReg r (v % 2 ^ 32) = some x) :
    s.windowWrite (0x20000 + r + timerOffset k) v = s.wordWritten (s.statusTaken.modTime fun y => y.setTimer k x) :=
  State.windowWrite_word clear running lc (State.fused_of_ne (by decide) (by decide)) (wordAt_timer timer reg aligned) v
    (State.writeReg_timer timer reg s.statusTaken writes)

end

/-! ### The corrections of the memories -/

/-- The corrections of a memory have a word for each. -/
theorem wordAt_memiCorr {k : Nat} (low : k < 4) : WordAt .memi (0x20 + 4 * k) (0xC0020 + 4 * k) := by
  obtain rfl | rfl | rfl | rfl : k = 0 ∨ k = 1 ∨ k = 2 ∨ k = 3 := by omega
  all_goals exact ⟨by decide, rfl, rfl, rfl, rfl⟩

theorem State.readReg_memiCorr (t : State) (k : Nat) :
    t.readReg .memi (0x20 + 4 * k) = ((t.memi.ram k).corrReg,
      t.modMemi fun m => m.modRam k fun r => { r with overflows := 0, corrected := 0 }) := by
  have word : (0x20 + 4 * k - 0x20) / 4 = k := by omega
  simp only [State.readReg, word, if_neg (show ¬0x20 + 4 * k = 0 by omega), if_neg (show ¬0x20 + 4 * k < 0x20 by omega)]

/-! ### The statement -/

/-- Settles O43, register by register: the access is one word of a running block, and the block's own read or write does the rest. -/
theorem registerRows : Obligations.RegisterRows := by
  intro s clear lc t read written
  have plain {b : Block} (clasp : b ≠ .clasp) (pendant : b ≠ .pendant) : s.fused b = false := State.fused_of_ne clasp pendant
  have reads {b : Block} {o a : Nat} (word : WordAt b o a) (whole : s.fused b = false) (running : s.windowOpen b = true) :
      Host.Outcome.next (s.windowRead a 1) = read (t.readReg b o).1 (t.readReg b o).2 :=
    congrArg _ (State.windowRead_word clear running lc whole word)
  refine ⟨fun running => ?cmdErrors, fun running mq => ?pendantCount, fun running => ?slolosErrors, fun k running mq => ?claspCount,
    fun running => ?memiStatus, fun k low running => ?memiCorr, fun running => ⟨?timeSys, ?timeEpoch, fun k timer => ?timer⟩,
    fun h running => ?hold⟩
  case cmdErrors => exact reads (b := .cmd) (o := 4) ⟨by decide, rfl, rfl, rfl, rfl⟩ (plain (by decide) (by decide)) running
  case pendantCount => exact reads (b := .pendant) (o := 12) ⟨by decide, rfl, rfl, rfl, rfl⟩ (State.fused_of_part mq) running
  case slolosErrors => exact reads (b := .slolos) (o := 4) ⟨by decide, rfl, rfl, rfl, rfl⟩ (plain (by decide) (by decide)) running
  case claspCount => exact reads (b := .clasp) (o := 4) ⟨by decide, rfl, rfl, rfl, rfl⟩ (State.fused_of_part mq) running
  case memiStatus => exact reads (b := .memi) (o := 0) ⟨by decide, rfl, rfl, rfl, rfl⟩ (plain (by decide) (by decide)) running
  case memiCorr =>
    refine (reads (wordAt_memiCorr low) (plain (by decide) (by decide)) running).trans ?_
    rw [State.readReg_memiCorr]
    rfl
  case timeSys => exact reads (b := .time) (o := 0) ⟨by decide, rfl, rfl, rfl, rfl⟩ (plain (by decide) (by decide)) running
  case timeEpoch => exact reads (b := .time) (o := 0x800) ⟨by decide, rfl, rfl, rfl, rfl⟩ (plain (by decide) (by decide)) running
  case hold =>
    refine congrArg _ (State.windowWrite_word clear running lc (plain (by decide) (by decide)) (b := .meas) (o := 8)
      ⟨by decide, rfl, rfl, rfl, rfl⟩ (bit h) ?_)
    cases h <;> rfl
  case timer =>
    intro x put
    refine ⟨?capstat, ?capture, ?latch, fun v => ?compare, fun v => ?period, fun v => ?count⟩
    case capstat => exact congrArg _ (State.windowRead_timer (r := 0x18) timer (by decide) clear lc running rfl)
    case capture => exact congrArg _ (State.windowRead_timer (r := 0x14) timer (by decide) clear lc running rfl)
    case latch =>
      refine (congrArg _ (State.windowRead_timer (r := 4) timer (by decide) clear lc running rfl)).trans ?_
      cases latch : s.time.latch <;> simp only [Time.readTimer, latch] <;> rfl
    case compare => exact congrArg _ (State.windowWrite_timer (r := 0xC) timer (by decide) clear lc running rfl v rfl)
    case period => exact congrArg _ (State.windowWrite_timer (r := 8) timer (by decide) clear lc running rfl v rfl)
    case count => exact congrArg _ (State.windowWrite_timer (r := 4) timer (by decide) clear lc running rfl v rfl)

end Sys2Proof.Machine
end

section
/-!
PROOF. O46 and O47: the watchdog's service, expiry and clock monitor (R409, R411, R412), and its window (R410).
-/
namespace Sys2Proof.Machine

variable (s : State)

/-! ### The service (Table 17-2) -/

theorem execWdgService_of_stopped {key : Nat} (stopped : s.coreRuns = false) : execWdgService key s = .next s :=
  if_pos (by rw [stopped]; rfl)

/-- An accepted service begins the next window, with the written limits where there are some. -/
theorem Wdg.served_eq (w : Wdg) :
    w.served = { w with
      count := 0
      prescale := 0
      openTick := (w.window.map (·.1)).getD w.openTick
      closeTick := (w.window.map (·.2)).getD w.closeTick
      window := none } := by
  rw [Wdg.served]
  cases w.window <;> rfl

/-- A service too late, with a wrong key, too early, or accepted: in this order. -/
theorem execWdgService_of_runs {key : Nat} (runs : s.coreRuns = true) :
    execWdgService key s = .next (
      if s.wdg.closeTick ≤ s.wdg.count then s.wdgExpire
      else if key ≠ wdgKey then s.wdgReset causeWdgEarly 0xD3 key
      else if s.wdg.count < s.wdg.openTick then s.wdgReset causeWdgEarly 0xD1 0
      else s.modWdg Wdg.served) :=
  (if_neg (by simp [runs])).trans
    (ite_eq_next Iff.rfl (fun _ => rfl) fun _ => ite_eq_next Iff.rfl (fun _ => rfl) fun _ => ite_eq_next Iff.rfl (fun _ => rfl) fun _ => rfl)

/-- The service inside the window. -/
theorem execWdgService_of_inside (runs : s.coreRuns = true) (opened : s.wdg.openTick ≤ s.wdg.count)
    (inTime : s.wdg.count < s.wdg.closeTick) : execWdgService wdgKey s = .next (s.modWdg Wdg.served) := by
  rw [execWdgService_of_runs s runs, if_neg (Nat.not_le.mpr inTime), if_neg (not_not.mpr rfl), if_neg (Nat.not_lt.mpr opened)]

/-! ### Expiry and the clock monitor (R408, R409, R411) -/

theorem State.wdgRuns_iff :
    s.wdgRuns = true ↔ s.sys.held = false ∧ (if s.wdg.clkLfrc then s.sys.lfrcRun = true else s.sys.clk = .running) := by
  cases lfrc : s.wdg.clkLfrc <;> simp [State.wdgRuns, lfrc]

theorem execWdgExpire_eq :
    execWdgExpire s = .next (
      if s.sys.held = false ∧ (if s.wdg.clkLfrc then s.sys.lfrcRun = true else s.sys.clk = .running) ∧
          s.wdg.count < s.wdg.closeTick then
        (s.modWdg fun w => { w with count := w.closeTick, prescale := 0 }).wdgExpire else s) :=
  next_ite (by rw [Bool.and_eq_true, s.wdgRuns_iff, decide_eq_true_iff, and_assoc]) ..

theorem execWdgClkmon_eq :
    execWdgClkmon s = .next (if s.wdg.clkLfrc = true ∧ s.powered = true then
      ((s.modWdg fun w => { w with lfrcStalled := true }).modSys fun y => { y with lfrcRun := false }).wdgReset causeWdgClkmon 0xD2 0
      else s) :=
  next_ite (Bool.and_eq_true _ _).to_iff ..

theorem execLfrcResume_eq :
    execLfrcResume s = .next (if s.wdg.lfrcStalled = true ∧ s.powered = true then
      (s.modWdg fun w => { w with lfrcStalled := false }).modSys fun y => { y with lfrcRun := true } else s) :=
  next_ite (Bool.and_eq_true _ _).to_iff ..

/-- Settles O46, event by event: a service by whether the core runs, and the other events by their equations. -/
theorem watchdogOutcomes : Obligations.WatchdogOutcomes := by
  unfold Obligations.WatchdogOutcomes
  intro reset
  refine ⟨fun key s stopped => execWdgService_of_stopped s stopped, fun key s runs => ?service, execWdgExpire_eq, execWdgClkmon_eq,
    execLfrcResume_eq⟩
  case service =>
    rw [← Wdg.served_eq]
    exact execWdgService_of_runs s runs

/-! ### The window (R410) -/

section
variable {v : Nat}

theorem execWdgWindowWrite_of_stopped (stopped : s.coreRuns = false) : execWdgWindowWrite v s = .next s :=
  if_pos (by rw [stopped]; rfl)

variable (runs : s.coreRuns = true)
include runs

theorem execWdgWindowWrite_of_locked (locked : s.wdg.locked = true) :
    execWdgWindowWrite v s = .next (s.modWdg fun w => { w with lockViol := true }) :=
  (if_neg (by simp [runs])).trans (if_pos locked)

theorem execWdgWindowWrite_of_unlocked (unlocked : s.wdg.locked = false) :
    execWdgWindowWrite v s = .next (s.modWdg fun w =>
      { w with locked := true, window := some (wdgClamp s.wdgCloseMax w.clkLfrc v) }) :=
  (if_neg (by simp [runs])).trans (if_neg (by simp [unlocked]))

end

theorem State.wdgCloseMax_eq :
    s.wdgCloseMax = if s.lc = .develop ∧ 1 ≤ s.wdg.devClose.toNat then 1250 * Nat.min s.wdg.devClose.toNat 32 else 500 :=
  if_congr (by simp) rfl rfl

/-- CLOSE is clamped first, then OPEN below it; with LFRC selected OPEN leaves a margin as well (log 75). -/
theorem wdgClamp_eq (most v : Nat) (lfrc : Bool) :
    let close := Nat.max 2 (Nat.min most (v / 2 ^ 16))
    let first := Nat.max 1 (Nat.min (close - 1) (v % 2 ^ 16))
    wdgClamp most lfrc v = (if lfrc then Nat.min first (close - 30) else first, close) := rfl

/-- Settles O47: a write of the window by whether it is locked, the service that begins the new window, and the end of a reset. -/
theorem watchdogWindow : Obligations.WatchdogWindow := by
  unfold Obligations.WatchdogWindow
  refine ⟨fun v s stopped => execWdgWindowWrite_of_stopped s stopped, fun v s runs locked => execWdgWindowWrite_of_locked s runs locked,
    fun v s runs unlocked => ?written, fun s o c runs opened inTime window => ?served, fun x s ends => ?reset⟩
  case written =>
    intro most close first
    have clamped : wdgClamp s.wdgCloseMax s.wdg.clkLfrc v = (if s.wdg.clkLfrc then Nat.min first (close - 30) else first, close) := by
      rw [wdgClamp_eq, s.wdgCloseMax_eq]
    refine ⟨if s.wdg.clkLfrc then Nat.min first (close - 30) else first,
      (execWdgWindowWrite_of_unlocked s runs unlocked).trans ?_, fun core => if_neg (by simp [core]), fun lfrc => ⟨?_, ?_⟩⟩
    · rw [State.modWdg, clamped]
    · rw [if_pos lfrc]
      exact Nat.min_le_left ..
    · exact fun _ => if_pos lfrc
  case served =>
    refine (execWdgService_of_inside s runs opened inTime).trans ?_
    rw [State.modWdg, Wdg.served_eq, window]
    rfl
  case reset =>
    have wdg := (s.endReset_endedAs x).wdg
    refine ⟨s.endReset x, execResetEnd_of_mayEnd s x ends, ?_⟩
    rw [wdg]
    exact ⟨rfl, rfl, rfl, rfl, rfl⟩

end Sys2Proof.Machine
end

section
/-!
PROOF. O48: overflows and matches of the timers (R400, R402, R403), their wake (R405), captures (R406) and the stepping from LFRC (R407).
-/
namespace Sys2Proof.Machine

variable (s : State) {n : Nat}

/-! ### Overflow (R400) -/

theorem Timer.counts_iff (t : Timer) (n : Nat) : t.counts n = true ↔ t.source = 1 ∨ (t.source = 2 ∧ n ≠ 0) := by
  simp [Timer.counts]

theorem execTimerOverflow_eq :
    execTimerOverflow n s = .next (
      if s.timersRun = true ∧ n < s.time.timers.length ∧
          ((s.time.timer n).source = 1 ∨ ((s.time.timer n).source = 2 ∧ n ≠ 0)) then
        (s.modTime fun y => y.overflow n).timerWake s.time.timers else s) :=
  next_ite (by rw [Bool.and_eq_true, Bool.and_eq_true, decide_eq_true_iff, Timer.counts_iff, and_assoc]) ..

/-! ### Match (R402, R403) -/

/-- A match that comes late is counted as such, and a timer without an interval is disarmed. -/
theorem Timer.matched_eq (t : Timer) :
    let late : Bool := decide ((t.count + (t.period + 1) - t.compare % (t.period + 1)) % (t.period + 1) ≠ 0)
    t.matched = { t with
      armed := if t.interval = 0 then false else t.armed
      compare := if t.interval = 0 then t.compare else (t.compare + t.interval) % (t.period + 1)
      catchup := if late then satAdd 65535 t.catchup 1 else t.catchup
      epMatches := t.epMatches + 1
      epLate := if late then t.epLate + 1 else t.epLate } := by
  intro late
  have behind : late = true ↔ t.distance ≠ 0 := decide_eq_true_iff
  rw [if_congr behind rfl rfl, if_congr behind rfl rfl]
  rfl

theorem execTimerMatch_eq :
    execTimerMatch n s = .next (
      if s.timersRun = true ∧ n < s.time.timers.length ∧ (s.time.timer n).armed = true ∧
          ((s.time.timer n).due = true ∨ (s.time.timer n).source = 1 ∨ ((s.time.timer n).source = 2 ∧ n ≠ 0)) then
        (s.modTime fun y => y.matchNow n).timerWake s.time.timers else s) :=
  next_ite (by simp only [Bool.and_eq_true, Bool.or_eq_true, decide_eq_true_iff, Timer.counts_iff, and_assoc]) ..

/-! ### Wake from STANDBY (R405) -/

theorem State.timerWake_eq (l : List Timer) :
    s.timerWake l =
      if (s.sys.power = .standby ∨ s.sys.power = .serviceWake) ∧ s.sys.wake.timer = true ∧
          (∃ x ∈ s.time.timers.zip l, x.1.wakeEn = true ∧ x.2.epMatches < x.1.epMatches) then
        { s with sys := { s.sys with wakeLatched := true } } else s :=
  if_congr (by simp only [Bool.and_eq_true, Sys.inStandby_iff, List.any_eq_true, decide_eq_true_iff, and_assoc]) rfl rfl

/-! ### Captures (R406) -/

/-- Without the block's clock, from LFRC and in a debug halt an edge is lost. -/
theorem execCaptureEdge_of_stopped {i : Nat} {e : Edge}
    (stopped : s.isReady .time = false ∨ s.time.lfrcStep = true ∨ s.time.debugHalt = true) : execCaptureEdge i e s = .next s :=
  if_neg (by simpa [imp_iff_not_or, or_assoc] using stopped)

/-- Otherwise every timer that takes the edge captures it. -/
theorem execCaptureEdge_of_runs {i : Nat} {e : Edge} (ready : s.isReady .time = true) (core : s.time.lfrcStep = false)
    (runs : s.time.debugHalt = false) :
    execCaptureEdge i e s = .next (s.modTime fun y =>
      { y with timers := y.timers.map fun t => if t.takes i e.rising e.held then t.capture y.sysTime else t }) :=
  if_pos (by simp [ready, core, runs])

/-- A timer takes an edge of its input that EDGE selects, once its level has held for FILTER. -/
theorem Timer.takes_iff (t : Timer) (i k : Nat) (rising : Bool) :
    t.takes i rising k = true ↔ t.source = 1 ∧ t.capSel.toNat = i ∧
      (if rising then t.edge.getLsbD 0 else t.edge.getLsbD 1) = true ∧ t.filter.toNat = k := by
  simp only [Timer.takes, Bool.and_eq_true, beq_iff_eq, and_assoc]

/-- What an edge leaves of a timer: a capture, a loss on a full queue, or nothing in a tick that has one already. -/
theorem Timer.capture_of_takes (t : Timer) (i k now : Nat) (rising : Bool) :
    (if t.takes i rising k then t.capture now else t) =
      if t.source = 1 ∧ t.capSel.toNat = i ∧ (if rising then t.edge.getLsbD 0 else t.edge.getLsbD 1) = true ∧ t.filter.toNat = k ∧
          t.capturedAt ≠ some now then
        if t.captures.length < 4 then
          { t with
            captures := t.captures ++ [(t.count + 2 * (t.period + 1) - (2 + t.filter.toNat) % (t.period + 1)) % (t.period + 1)]
            capturedAt := some now }
        else { t with capOvf := satAdd 255 t.capOvf 1, epDrops := t.epDrops + 1, capturedAt := some now }
      else t := by
  by_cases takes : t.takes i rising k = true
  · obtain ⟨source, input, edge, filter⟩ := (t.takes_iff i k rising).mp takes
    rw [if_pos takes, Timer.capture, ← ite_not]
    exact if_congr ⟨fun fresh => ⟨source, input, edge, filter, fresh⟩, fun ⟨_, _, _, _, fresh⟩ => fresh⟩ rfl rfl
  · rw [if_neg takes, if_neg fun ⟨source, input, edge, filter, _⟩ => takes ((t.takes_iff i k rising).mpr ⟨source, input, edge, filter⟩)]

/-! ### Stepping from LFRC (R407) -/

theorem execLfrcStepSwitch_eq :
    execLfrcStepSwitch s = .next (if s.sys.lfrcRun = true ∧ s.sys.held = false then
      s.modTime fun y => { y with lfrcStep := s.stepsLfrc || (y.lfrcStep && s.sys.clk != .running) } else s) :=
  next_ite (by simp) ..

/-! ### The statement -/

/-- Settles O48, event by event: an overflow and a match by whether the timer counts, and an edge timer by timer. -/
theorem timerEvents : Obligations.TimerEvents := by
  unfold Obligations.TimerEvents
  intro runs
  refine ⟨fun n s rests => (execTimerOverflow_eq s).trans (congrArg _ (if_neg rests)),
    fun n s running known counts => (execTimerOverflow_eq s).trans (congrArg _ (if_pos ⟨running, known, counts⟩)),
    fun n s rests => (execTimerMatch_eq s).trans (congrArg _ (if_neg rests)), fun n s running known armed due => ?matched,
    State.timerWake_eq, fun i k rising s stopped => execCaptureEdge_of_stopped s stopped, fun i k rising s ready core halt => ?captured,
    execLfrcStepSwitch_eq⟩
  case matched =>
    refine (execTimerMatch_eq s).trans ((congrArg _ (if_pos ⟨running, known, armed, due⟩)).trans ?_)
    simp only [Time.matchNow, Timer.matched_eq]
    rfl
  case captured =>
    refine (execCaptureEdge_of_runs s ready core halt).trans ?_
    simp only [Timer.capture_of_takes]
    rfl

end Sys2Proof.Machine
end

section
/-!
PROOF. O17: the opcodes of memory integrity (R424 to R426) and of thermal supervision (R394, R397).
-/
namespace Sys2Proof.Machine

/-- Settles O17, opcode by opcode, by what each runs; THERM_CONFIG is what its check lets through. -/
theorem memoryAndThermalOpcodes : Obligations.MemoryAndThermalOpcodes := by
  unfold Obligations.MemoryAndThermalOpcodes
  refine ⟨⟨?memiConfig, ?memiRead, ?memiInject⟩, ?thermConfig, ?thermStatus, ?thermPeak⟩
  case memiConfig => exact Applies.of_run (fun _ _ => rfl) rfl rfl fun _ _ => rfl
  case memiRead => exact Performs.of_run (fun _ _ => rfl) fun _ _ _ => rfl
  case memiInject => exact Performs.of_run (fun _ _ => rfl) fun _ _ _ => rfl
  case thermConfig => exact Applies.of_check (fun _ _ => rfl) rfl rfl fun _ _ => rfl
  case thermStatus => exact Performs.of_run (fun _ _ => rfl) fun _ _ _ => rfl
  case thermPeak => exact Performs.of_run (fun _ _ => rfl) fun _ _ _ => rfl

end Sys2Proof.Machine
end

section
/-!
PROOF. O49: leaks (R420), the checks of the owners' accesses and of the scrubber (R416, R417, R419), and what they find (R420, R422).
-/
namespace Sys2Proof.Machine

variable (s : State) {k : Nat}

/-! ### Leaks (R420) -/

theorem execDripLeak_eq :
    execDripLeak k s = .next (if s.sys.clk = .running ∧ s.sys.power ≠ .serviceWake ∧ s.sys.held = false then
      s.modMemi fun m => m.modRam k fun r => { r.leak with leakTicks := 0 } else s) :=
  next_ite (by simp [and_assoc]) ..

theorem State.memiAdvance_eq (n : Nat) :
    s.memiAdvance n = if s.sys.clk = .running ∧ s.sys.power ≠ .serviceWake then
      s.modMemi fun m => { m with rams := m.rams.map fun r => r.advance n } else s :=
  if_congr (by simp) rfl rfl

/-! ### What a check finds (R420, R422) -/

/-- A correction raises the drip count, which overflows to 0 above its ceiling. -/
theorem Ram.correct_eq (r : Ram) :
    r.correct = if r.ceiling < r.count + 1 then
      { r with
        corrected := satAdd 65535 r.corrected 1, total := r.total + 1, count := 0, overflowed := true
        overflows := satAdd 65535 r.overflows 1, epOverflows := r.epOverflows + 1 }
    else { r with corrected := satAdd 65535 r.corrected 1, total := r.total + 1, count := r.count + 1 } := rfl

section
variable {s} {word syndrome reader : Nat} {owner : Option FlightKey}

/-- Outside queue RAM an uncorrectable error leads to the Geode's safe state. -/
theorem State.uncorrectable_of_ne_queue (other : k ≠ 1) :
    s.uncorrectable k word syndrome reader owner =
      (s.recordFault (0xA0 + k) 0x0C (uncorrDetail k syndrome word reader (s.memi.ram k).count)).trigger causeGeodeSafe :=
  if_neg other

/-- In queue RAM it costs the command in whose buffer the word lies. -/
theorem State.uncorrectable_queue :
    let t := s.modMemi fun m => { m with queueUncorr := satAdd 65535 m.queueUncorr 1 }
    s.uncorrectable 1 word syndrome reader owner = match owner.bind s.findFlight with
      | none => t
      | some g => (t.recordFault 0xA1 0x0C (uncorrDetail 1 syndrome word reader (t.memi.ram 1).count)).queueUncorr g := by
  intro t
  rw [State.uncorrectable, if_pos rfl]
  cases owner.bind s.findFlight <;> rfl

end

/-! ### The accesses (R416, R417, R419, R425) -/

/-- A word of a memory now holds `n` flipped bits. -/
def State.putFlips (k word n : Nat) : State := s.modMemi fun m => m.modRam k fun r => r.mark word n

/-- The flipped bits that a check of a word meets: those that stand in it and new ones. -/
def State.flipsAt (k word f : Nat) : Nat := f + (s.memi.ram k).held word

theorem State.ramUse_read (w f y r : Nat) (o : Option FlightKey) (b : Bool) :
    s.ramUse k (.read w f y r o b) =
      (s.putFlips k w (if s.flipsAt k w f = 1 then 1 else 0)).ramFound k w (s.flipsAt k w f) y r o := by
  have stays : (if true && s.flipsAt k w f = 1 then 1 else 0) = if s.flipsAt k w f = 1 then 1 else 0 := if_congr (by simp) rfl rfl
  rw [← stays]
  rfl

theorem State.ramUse_part (w f y r : Nat) (o : Option FlightKey) :
    s.ramUse k (.part w f y r o) = (s.putFlips k w 0).ramFound k w (s.flipsAt k w f) y r o := rfl

theorem Memi.modRam_modRam (m : Memi) (f g : Ram → Ram) : (m.modRam k f).modRam k g = m.modRam k fun r => g (f r) := by
  simp only [Memi.modRam, modAt, List.modify_modify_eq, Function.comp_def]

/-- The scrubber leaves its word whole and goes on to the next. -/
def State.scrubbed (k : Nat) : State :=
  (s.putFlips k (s.memi.ram k).scrubAt 0).modMemi fun m => m.modRam k fun r => { r with scrubAt := (r.scrubAt + 1) % ramWords k }

theorem State.scrub_eq (f y : Nat) (o : Option FlightKey) (w counted : Bool) :
    let word := (s.memi.ram k).scrubAt
    let n := s.flipsAt k word f
    let u := if w then (s.scrubbed k).ramUse k (.write word) else s.scrubbed k
    s.scrub k f y o w counted = if n = 1 ∧ counted = true then u else u.ramFound k word n y 1 o := by
  intro word n u
  have visited : (s.modMemi fun m => m.modRam k fun r => { r.mark word 0 with scrubAt := (r.scrubAt + 1) % ramWords k }) =
      s.scrubbed k :=
    congrArg (fun m => { s with memi := m }) (s.memi.modRam_modRam (fun r => r.mark word 0) fun r =>
      { r with scrubAt := (r.scrubAt + 1) % ramWords k }).symm
  have once : (n = 1 && counted) = true ↔ n = 1 ∧ counted = true := by rw [Bool.and_eq_true, decide_eq_true_iff]
  have writes : (if w then (s.scrubbed k).ramWrite k word else s.scrubbed k) = u := rfl
  rw [← writes, ← visited]
  exact if_congr once rfl rfl

/-! ### The slot of a memory (R419) -/

theorem execScrubVisit_of_rests {f y : Nat} (us : List RamUse) (o : Option FlightKey) (w : Bool)
    (rests : ¬(s.sys.clk = .running ∧ s.sys.held = false ∧ k < s.memi.rams.length)) : execScrubVisit k us ⟨f, y⟩ o w s = .next s :=
  if_neg (by simpa [and_assoc] using rests)

/-- The owner's accesses come first, and end with a reset that they bring about. -/
theorem execScrubVisit_of_runs {f y : Nat} (us : List RamUse) (o : Option FlightKey) (w : Bool) (clock : s.sys.clk = .running)
    (free : s.sys.held = false) (known : k < s.memi.rams.length) :
    let t := us.foldl (fun t u => if t.sys.held then t else t.ramUse k u) s
    execScrubVisit k us ⟨f, y⟩ o w s = .next (if s.isReady .memi = true ∧ t.sys.held = false then
      t.scrub k f y o w (us.any (RamUse.countsWith (s.memi.ram k).scrubAt)) else t) :=
  (if_pos (by simp [clock, free, known])).trans (congrArg _ (if_congr (by simp) rfl rfl))

/-! ### The statement -/

/-- Settles O49, event by event: the leaks, the slot of a memory, each access, and the scrubber's visit. -/
theorem memoryIntegrityEvents : Obligations.MemoryIntegrityEvents := by
  unfold Obligations.MemoryIntegrityEvents
  intro put found flips
  have finds (t : State) (k word n y reader : Nat) (o : Option FlightKey) :
      found t k word n y reader o = t.ramFound k word n y reader o := by
    refine ite_congr rfl (fun _ => rfl) fun _ => ite_congr rfl (fun _ => rfl) fun _ => ?_
    by_cases queue : k = 1
    · subst queue
      rw [State.uncorrectable_queue, if_neg (not_not.mpr rfl)]
      cases o.bind t.findFlight <;> rfl
    · rw [if_pos queue, State.uncorrectable_of_ne_queue queue]
  refine ⟨fun k s => execDripLeak_eq s, fun s n => s.memiAdvance_eq n, fun k f y us o w s => execScrubVisit_of_rests s us o w,
    fun k f y us o w s => execScrubVisit_of_runs s us o w, fun k w f y r o b s => ⟨?read, ?part⟩, fun k w s => rfl,
    fun k f y o w counted s => ?scrub⟩
  case read =>
    rw [finds]
    exact s.ramUse_read w f y r o b
  case part =>
    rw [finds]
    exact s.ramUse_part w f y r o
  case scrub =>
    intro word n t u
    rw [finds]
    exact s.scrub_eq f y o w counted

end Sys2Proof.Machine
end

section
/-!
PROOF. O1, O2, O4: a step and its command. Every arm of `exec` ends, behind its conditions, in a next state; goodness carries the
queue.
-/
namespace Sys2Proof.Machine

/-! ### The step -/

/-- Settles O1, by the second row of `step`. -/
theorem stepRunsTheFront : Obligations.StepRunsTheFront := by
  intro c rest s waiting
  unfold step
  rw [waiting]

/-- Settles O2: the first row of `step`; and the passing of time keeps a good state, thus its queue. -/
theorem stepIdles : Obligations.StepIdles := by
  intro s empty
  have idles : step s = .next s.idle := by
    unfold step
    rw [empty]
  exact ⟨idles, fun sound => (good_State_idle (sound.good s.pending)).queue.trans empty⟩

/-! ### Completion -/

/-- The outcome is a next state. -/
def Completes (x : Host.Outcome State Fault Refusal) : Prop := ∃ t, x = .next t

theorem Completes.next {t : State} : Completes (.next t) := ⟨t, rfl⟩

theorem Completes.ite {c : Prop} [Decidable c] {x y : Host.Outcome State Fault Refusal} (hx : Completes x)
    (hy : Completes y) : Completes (if c then x else y) := by
  split
  · exact hx
  · exact hy

section
variable (s : State)

theorem completes_execSupplyMonitorTrip (supply : Supply) : Completes (execSupplyMonitorTrip supply s) := by
  cases supply <;> exact .next

theorem completes_execPendingWipeDone : Completes (execPendingWipeDone s) := by
  unfold execPendingWipeDone
  split <;> exact .next

theorem completes_execAppCoreActuatorWrite (place : Nat) (write : CoreWrite) :
    Completes (execAppCoreActuatorWrite place write s) := by
  cases write <;> exact .ite .next .next

theorem completes_execHungAccessComplete : Completes (execHungAccessComplete s) := by
  refine .ite .next ?_
  split <;> exact .next

theorem completes_execCanFrameReceived (controller ident : Nat) (fd : Bool) (bytes : List Byte) :
    Completes (execCanFrameReceived controller ident fd bytes s) := by
  cases bytes <;> exact .next

theorem completes_execEpochBoundary : Completes (execEpochBoundary s) := by
  refine .ite .next (.ite ?_ .next)
  split <;> exact .next

theorem completes_execLegTurnOn (leg : Nat) : Completes (execLegTurnOn leg s) := by
  unfold execLegTurnOn
  split
  · exact .next
  · exact .ite (.ite .next .next) .next

theorem completes_execCrowbarBlankEnd (lane : Nat) : Completes (execCrowbarBlankEnd lane s) := by
  unfold execCrowbarBlankEnd
  split
  · exact .ite .next .next
  · exact .next

theorem completes_execCrowbarClose (lane : Nat) : Completes (execCrowbarClose lane s) := by
  unfold execCrowbarClose
  split
  · exact .ite .next .next
  · exact .next

theorem completes_execCrowbarTimeout (lane : Nat) : Completes (execCrowbarTimeout lane s) := by
  unfold execCrowbarTimeout
  split
  · exact .ite .next .next
  · exact .next

theorem completes_execBezelTrip (comparator : Nat) : Completes (execBezelTrip comparator s) := by
  unfold execBezelTrip
  dsimp only
  split
  · exact .ite .next .next
  · exact .next

theorem completes_execCertCommitted : Completes (execCertCommitted s) := by
  unfold execCertCommitted
  split <;> exact .next

theorem completes_execCertEraseDone : Completes (execCertEraseDone s) := by
  unfold execCertEraseDone
  split <;> exact .next

theorem completes_execJournalCommitDone : Completes (execJournalCommitDone s) := by
  unfold execJournalCommitDone
  split <;> exact .next

theorem completes_execLcWipeDone : Completes (execLcWipeDone s) := by
  unfold execLcWipeDone
  split <;> exact .next

theorem completes_execOtpProgramDone : Completes (execOtpProgramDone s) := by
  unfold execOtpProgramDone
  split <;> exact .next

theorem completes_execTombstoneCommitted : Completes (execTombstoneCommitted s) := by
  unfold execTombstoneCommitted
  split <;> exact .next

theorem completes_execUpdateEraseDone : Completes (execUpdateEraseDone s) := by
  unfold execUpdateEraseDone
  split <;> exact .next

theorem completes_execBodyHashDone : Completes (execBodyHashDone s) := by
  unfold execBodyHashDone
  split
  · exact .next
  · exact .ite .next (.ite .next .next)

theorem completes_execCertVerified : Completes (execCertVerified s) := by
  unfold execCertVerified
  dsimp only
  split
  · exact .next
  · split <;> exact .next

theorem completes_execChunkCommitted : Completes (execChunkCommitted s) := by
  unfold execChunkCommitted
  split
  · split
    · exact .ite .next (.ite .next .next)
    · exact .next
  · exact .next

theorem completes_execCanFrameTransmitted (controller : Nat) : Completes (execCanFrameTransmitted controller s) := by
  refine .ite ?_ .next
  split <;> exact .next

theorem completes_execConversionDone (converter code : Nat) : Completes (execConversionDone converter code s) := by
  unfold execConversionDone
  dsimp only
  split
  · exact .ite .next .next
  · exact .next

theorem completes_execClaspAnswerTimeout (port : Nat) : Completes (execClaspAnswerTimeout port s) := by
  unfold execClaspAnswerTimeout
  split
  · exact .ite .next (.ite .next .next)
  · exact .next

theorem completes_execClaspAttachTimer (port : Nat) : Completes (execClaspAttachTimer port s) := by
  refine .ite .next ?_
  split <;> exact .next

theorem completes_execClaspCollision (port : Nat) : Completes (execClaspCollision port s) := by
  refine .ite .next (.ite .next ?_)
  split
  · exact .ite .next .next
  · exact .next

theorem completes_execClaspMessageSent (port : Nat) : Completes (execClaspMessageSent port s) := by
  refine .ite .next (.ite ?answer ?message)
  case answer =>
    dsimp only
    split <;> exact .next
  case message =>
    split
    · exact .ite .next .next
    · exact .next

theorem completes_execClaspTryTimeout (port : Nat) : Completes (execClaspTryTimeout port s) := by
  refine .ite .next ?_
  split
  · exact .next
  · exact .ite .next .next
  · exact .next

theorem completes_execMarker (fromB : Bool) (frame : Received) : Completes (execMarker fromB frame s) :=
  .ite .next (.ite (.ite .next .next) (.ite .next (.ite .next .next)))

theorem completes_execLinkDownDetected (loss : LinkLoss) : Completes (execLinkDownDetected loss s) :=
  .ite (.ite (.ite .next (.ite .next .next)) .next) .next

theorem completes_execDelayMeasured (port delay down up : Nat) : Completes (execDelayMeasured port delay down up s) :=
  .ite (.ite (.ite .next (.ite .next .next)) .next) .next

theorem completes_execEnum (fromB : Bool) (harm : Harm) (nextAddr prevAddr delay mode : Nat) :
    Completes (execEnum fromB harm nextAddr prevAddr delay mode s) :=
  .ite .next (.ite .next (.ite .next (.ite .next (.ite .next .next))))

theorem completes_execPacketFrame (frame : Received) : Completes (execPacketFrame frame s) :=
  .ite .next (.ite (.ite .next (.ite .next (.ite .next (.ite .next .next)))) (.ite .next (.ite .next .next)))

end

/-- Every command completes: an arm with a `match`, or with more than a few conditions, has its lemma; the others are listed by
their conditions; the arms that are not listed, all of the requests among them, have none. -/
theorem exec_completes (c : Instr) (s : State) : Completes (exec c s) := by
  cases c
  case supplyMonitorTrip => exact completes_execSupplyMonitorTrip s _
  case pendingWipeDone => exact completes_execPendingWipeDone s
  case appCoreActuatorWrite => exact completes_execAppCoreActuatorWrite s _ _
  case hungAccessComplete => exact completes_execHungAccessComplete s
  case canFrameReceived => exact completes_execCanFrameReceived s _ _ _ _
  case epochBoundary => exact completes_execEpochBoundary s
  case legTurnOn => exact completes_execLegTurnOn s _
  case crowbarBlankEnd => exact completes_execCrowbarBlankEnd s _
  case crowbarClose => exact completes_execCrowbarClose s _
  case crowbarTimeout => exact completes_execCrowbarTimeout s _
  case bezelTrip => exact completes_execBezelTrip s _
  case certCommitted => exact completes_execCertCommitted s
  case certEraseDone => exact completes_execCertEraseDone s
  case journalCommitDone => exact completes_execJournalCommitDone s
  case lcWipeDone => exact completes_execLcWipeDone s
  case otpProgramDone => exact completes_execOtpProgramDone s
  case tombstoneCommitted => exact completes_execTombstoneCommitted s
  case updateEraseDone => exact completes_execUpdateEraseDone s
  case bodyHashDone => exact completes_execBodyHashDone s
  case certVerified => exact completes_execCertVerified s
  case chunkCommitted => exact completes_execChunkCommitted s
  case canFrameTransmitted => exact completes_execCanFrameTransmitted s _
  case conversionDone => exact completes_execConversionDone s _ _
  case claspAnswerTimeout => exact completes_execClaspAnswerTimeout s _
  case claspAttachTimer => exact completes_execClaspAttachTimer s _
  case claspCollision => exact completes_execClaspCollision s _
  case claspMessageSent => exact completes_execClaspMessageSent s _
  case claspTryTimeout => exact completes_execClaspTryTimeout s _
  case marker => exact completes_execMarker s _ _
  case linkDownDetected => exact completes_execLinkDownDetected s _
  case delayMeasured => exact completes_execDelayMeasured s _ _ _ _
  case enum => exact completes_execEnum s _ _ _ _ _ _
  case packetFrame => exact completes_execPacketFrame s _
  case vaonRise | supplyMonitorRelease | nrstRise | resetEntry | referenceCheck | pllLock | pllLockTimeout
      | pllRetryRestart | clockStart | blockReady | blockRestart | pllLoss | refLoss | lfrcMeasUpdate | slotSelectionDone
      | bootCertLoaded | eupefenRunning | wakeTimerExpired | standbyWake | hibWake | serviceWake | serviceWakeReturn
      | markerSend | markerMissed | telemetrySlot | sumDeadline | allotmentComputed | allotmentMissed | frameStart
      | brakeEnd | driverFault | slowOcNoSample | bzFbQualified | bzCloseTimeout | bzOpenTimeout | bzRetryReset
      | pendantGapDiscard | pendantAnswerReady | pendantAnswerRead | pendantAnswerTimeout | pendantSlewStep | pendantDone
      | pendantNotSettled | linkUp | enumNoWorkerTimeout | appendRetry | joinTimer | slolosWakeDetected
      | claspDetachDetected | bzFbChange | caps | captureEdge | claspBadMessage | claspLineIdle | claspRecoveryEnd
      | claspRetryIdle | claspSwapDelay | claspToggle | claspTransitionTimeout | detach | dripLeak | hold
      | jtagInstruction | lfrcResume | lfrcStepSwitch | measCalibrationDone | ready | request | scrubVisit
      | slolosPortStart | swapJs | thermalHeldRead | thermalReadDone | thermalReadStart | timerMatch | timerOverflow
      | wdgClkmon | wdgExpire => exact .ite .next .next
  case nrstLow | claspHoldTimeout | debugHalt | writePacket | wdgWindowWrite => exact .ite .next (.ite .next .next)
  case patchCheckDone | decimatorOutput => exact .ite (.ite .next .next) .next
  case comparatorCrossing | echoFrame | join | unassign | resetFrame | claspSenseChange =>
    exact .ite .next (.ite .next (.ite .next .next))
  case wdgService | malformedPacket | faultFrame | allotmentFrame | enumAnswer | linkDown =>
    exact .ite .next (.ite .next (.ite .next (.ite .next .next)))
  case telemetryFrame | enumEnd => exact .ite .next (.ite .next (.ite .next (.ite .next (.ite .next .next))))
  all_goals exact .next

/-- Settles O4: every arm of `exec` completes, and from a good state it leads to one with the same queue. -/
theorem everyCommandCompletes : Obligations.EveryCommandCompletes := by
  intro c s
  obtain ⟨t, ran⟩ := exec_completes c s
  refine ⟨t, ran, fun sound => ?_⟩
  obtain ⟨t', ran', good⟩ := goes_exec (sound.good s.pending) c
  obtain rfl : t' = t := Host.Outcome.next.inj (ran'.symm.trans ran)
  exact good.queue

end Sys2Proof.Machine
end

section
/-!
PROOF. O3, O7: the state after a POR, block by block.
-/
namespace Sys2Proof.Machine

/-- Settles O3, block by block: the numbers of records are those of the lists of `State.reset`, and its queues are empty. -/
theorem resetIsSound : Obligations.ResetIsSound where
  sys := ⟨rfl⟩
  flash := ⟨rfl⟩
  cmd :=
    { routes := rfl, lost := rfl, queue := by decide, tags := by decide, spi := by decide, events0 := by decide,
      events1 := by decide, events2 := by decide }
  time := { timers := rfl, captures := by decide, epoch := by decide }
  wdg := ⟨by decide⟩
  memi := { rams := rfl, drip := by decide }
  conv := ⟨rfl, rfl, rfl⟩
  prot := ⟨rfl, rfl⟩
  path := ⟨rfl, rfl⟩
  slolos := ⟨rfl, fun _ held => nomatch held⟩
  charge := ⟨rfl⟩
  clasp := ⟨rfl⟩
  meas := ⟨rfl, rfl, rfl⟩
  therm := ⟨rfl, rfl⟩

/-- Settles O7: a finite table of one state, so each clause is computed. -/
theorem resetRegisters : Obligations.ResetRegisters := by
  unfold Obligations.ResetRegisters
  refine ⟨?table, ?timersAndLegs, ?accumulators, ?trackers, ?workers, ?sensorsAndMemories⟩
  case table => decide
  case timersAndLegs => decide
  case accumulators => decide
  case trackers => decide
  case workers => decide
  case sensorsAndMemories => decide

end Sys2Proof.Machine
end
